-- ==== Sys2Proof/Word.lean ====
section
/-! DEFINITION. Word types of the Aelax architecture (R7, R8) and their plainest arithmetic. -/

namespace Sys2Proof

/-- 8 bits (R8). -/
abbrev Byte := BitVec 8
/-- 16 bits (R8). -/
abbrev Half := BitVec 16
/-- 32 bits, the manual's word (R8). -/
abbrev Word := BitVec 32
/-- 64 bits (R8). -/
abbrev Dword := BitVec 64
/-- One bit per lane of a fibre (R14, R16). -/
abbrev Lanes := BitVec 16

/-- Sixteen lanes make a fibre (R3, R17). -/
def laneCount : Nat := 16

/-- The lane numbers in ascending order (R13). -/
def allLanes : List Nat := [0, 1, 2, 3, 4, 5, 6, 7, 8, 9, 10, 11, 12, 13, 14, 15]

/-- Bit `l` of a lane mask. -/
def laneIn (m : Lanes) (l : Nat) : Bool := m.getLsbD l

end Sys2Proof
end

