-- ==== Sys2Proof/Syntax.lean ====
section
/-! DEFINITION. The instructions and events of the table of operations: operand classes (R348 to R353), MOD layouts
(R355 and the instruction chapters), the arguments of the hardware events, and Instr, one constructor per table row. -/

namespace Sys2Proof

/-- The readable specials (R349). -/
inductive Special where
  | laneId | fibreId | slotId | coreId | quadId | dieId | partId | clockLo | liveMask | actMask | roleId
  deriving DecidableEq, Repr

/-- A 10-bit operand (R348 to R351). -/
inductive Operand where
  | v (n : Fin 256)    -- vector register
  | s (n : Fin 128)    -- uniform register
  | a (n : Fin 16)     -- affine register
  | sp (k : Special)   -- special
  | l (n : Fin 4)      -- bypass latch
  | p (n : Fin 8)      -- predicate
  | t (n : Fin 16)     -- tile register
  | acc (n : Fin 4)    -- accumulator
  | b (n : Fin 16)     -- workgroup barrier
  | w (n : Fin 64)     -- window register
  | c (n : Fin 64)     -- trigger-counter handle
  | imm (i : BitVec 8) -- small immediate
  deriving DecidableEq, Repr

/-- Lane permutations of a source (R353). -/
inductive Perm where
  | none | bfly1 | bfly2 | bfly4 | bfly8 | rot1 | rot2 | rot4 | rot8 | mir | bc0 | bc4 | bc8 | bc15 | rev4
  deriving DecidableEq, Repr

/-- A source field: operand and permutation (R343). -/
structure Src where
  op : Operand
  perm : Perm
  deriving DecidableEq, Repr

/-- The unused operand: the field holds zero (R345). -/
def Operand.zero : Operand := .v 0
/-- The unused source field. -/
def Src.zero : Src := ⟨.v 0, .none⟩

/-- The scheduling fields, bits 85 to 61 of every word (R343, R354). -/
structure Sched where
  pass : Bool
  pred : Fin 8
  pneg : Bool
  wait : BitVec 12
  dist : Fin 8
  setf : Option (Fin 12)
  nwb : Bool
  deriving DecidableEq, Repr

/-- G-form operands (R343). -/
structure GOps where
  d : Operand
  a : Src
  b : Src
  c : Src
  deriving DecidableEq, Repr

/-- I-form operands (R344). -/
structure IOps where
  d : Operand
  a : Src
  imm : Word
  deriving DecidableEq, Repr

/-- M-form operands (R344, R347). -/
structure MOps where
  d : Operand
  a : Src
  b : Src
  off : BitVec 14
  deriving DecidableEq, Repr

/-- X-form operands (R344). -/
structure XOps where
  d : Operand
  a : Src
  b : Src
  c : Src
  fsa : Fin 8
  fsb : Fin 8
  deriving DecidableEq, Repr

/-- B-form operands (R344, R346). -/
structure BOps where
  d : Operand
  off : BitVec 42
  deriving DecidableEq, Repr

/-- Y-form operands (R344). -/
structure YOps where
  d : Operand
  a : Src
  sysn : BitVec 14
  deriving DecidableEq, Repr

/-- Floating-point TYPE of layout F (R355). -/
inductive FType where
  | f32 | f64 | f16 | bf16
  deriving DecidableEq, Repr

/-- Integer TYPE of layout N (R355). -/
inductive NType where
  | i32 | ui32 | i64 | ui64
  deriving DecidableEq, Repr

/-- Rounding modes (R303). -/
inductive Rm where
  | rne | rtz | rdn | rup
  deriving DecidableEq, Repr

/-- Access sizes of layout M (R355). -/
inductive MSize where
  | b | h | w | d | q
  deriving DecidableEq, Repr

/-- Ordering qualifiers (R266). -/
inductive Qual where
  | none | acq | rel
  deriving DecidableEq, Repr

/-- Scopes (R260). -/
inductive Scope where
  | lane | core | quad | die | pkg | pod | sys
  deriving DecidableEq, Repr

/-- MOD layout F (R355). -/
structure ModF where
  ty : FType
  rm : Rm
  sat : Bool
  ftzi : Bool
  ftzo : Bool
  pk : Bool
  deriving DecidableEq, Repr

/-- MOD layout N; bits [4:0] must be zero (R370 to R372). -/
structure ModN where
  ty : NType
  sat : Bool
  deriving DecidableEq, Repr

/-- MOD layout M (R355). -/
structure ModM where
  size : MSize
  sx : Bool
  qual : Qual
  scope : Scope
  deriving DecidableEq, Repr

/-- Conditions of ICMP and FCMP (R373). -/
inductive Cc where
  | eq | ne | lt | le | gt | ge | ord | uno
  deriving DecidableEq, Repr

/-- COMB of the compares (R373). -/
inductive Comb where
  | none | and | or
  deriving DecidableEq, Repr

/-- MOD of ICMP (R373). -/
structure ModIcmp where
  ty : NType
  cc : Cc
  comb : Comb
  deriving DecidableEq, Repr

/-- MOD of FCMP (R373). -/
structure ModFcmp where
  ty : FType
  cc : Cc
  comb : Comb
  ftzi : Bool
  deriving DecidableEq, Repr

/-- Modes of MOVI (R375). -/
inductive MoviMode where
  | zx | sx | hi
  deriving DecidableEq, Repr

/-- Items of RDSP (R376). -/
inductive RdspItem where
  | wgidx | gx | gy | gz | localsz | vregn | wregn | ntiles | naccs | nctrs | runseq | handle | cfeat
  deriving DecidableEq, Repr

/-- Modes of VOTE (R378). -/
inductive VoteMode where
  | any | all | ballot | uni
  deriving DecidableEq, Repr

/-- MOD of VOTE (R378). -/
structure ModVote where
  mode : VoteMode
  d : Bool
  deriving DecidableEq, Repr

/-- Operations of ISCAN and LRED (R379, R380). -/
inductive ScanOp where
  | add | min | max | and | or | xor
  deriving DecidableEq, Repr

/-- MOD of ISCAN (R379). -/
structure ModScan where
  ty : NType
  op : ScanOp
  excl : Bool
  deriving DecidableEq, Repr

/-- TYPE of LRED (R380). -/
inductive LredTy where
  | i32 | ui32 | i64 | ui64 | f32
  deriving DecidableEq, Repr

/-- MOD of LRED (R380). -/
structure ModLred where
  ty : LredTy
  op : ScanOp
  bc : Bool
  rm : Rm
  deriving DecidableEq, Repr

/-- MOD of PSET (R393). -/
structure ModPset where
  mask : Bool
  d : Bool
  deriving DecidableEq, Repr

/-- Operations of PLOG (R393). -/
inductive PlogOp where
  | and | or | xor | andn | not | mov
  deriving DecidableEq, Repr

/-- Types of CVT (R389). -/
inductive CvtTy where
  | i32 | ui32 | i64 | ui64 | f32 | f64 | f16 | bf16
  deriving DecidableEq, Repr

/-- MOD of CVT, both forms (R389, R390). -/
structure ModCvt where
  dty : CvtTy
  sty : CvtTy
  rm : Rm
  sat : Bool
  deriving DecidableEq, Repr

/-- MOD of QNT and DQNT: for QNT fa is FTZO and fb must be clear, for DQNT fa is FTZI and fb FTZO (R391, R392). -/
structure ModQnt where
  fs : Fin 8
  ty : FType
  rm : Rm
  fa : Bool
  fb : Bool
  deriving DecidableEq, Repr

/-- Atomic operations (R406). -/
inductive AtomOp where
  | add | sub | min | max | and | or | xor | exch | cas
  deriving DecidableEq, Repr

/-- MOD of ATOM and ATOM.L (R406). -/
structure ModAtom where
  op : AtomOp
  d : Bool
  s : Bool
  nr : Bool
  deriving DecidableEq, Repr

/-- Types of the accumulator instructions (R408). -/
inductive AccTy where
  | f32 | bf16 | f16 | f64 | bf16x2 | f16x2
  deriving DecidableEq, Repr

/-- MOD of FACC (R408). -/
structure ModFacc where
  ty : AccTy
  ftzi : Bool
  deriving DecidableEq, Repr

/-- MOD of FACCRD (R410). -/
structure ModFaccrd where
  ty : AccTy
  ent : Fin 8
  deriving DecidableEq, Repr

/-- Fence kinds (R268). -/
inductive FenceKind where
  | acq | rel | full
  deriving DecidableEq, Repr

/-- MOD of FENCE (R412). -/
structure ModFence where
  kind : FenceKind
  scope : Scope
  deriving DecidableEq, Repr

/-- Sizes of ACP (R421). -/
inductive AcpSize where
  | w | d | q
  deriving DecidableEq, Repr

/-- MOD of ACP (R421). -/
structure ModAcp where
  sz : AcpSize
  ld : Bool
  ls : Bool
  bar : Option (Fin 16)
  deriving DecidableEq, Repr

/-- XMOD of TLD, TLD.SLIDE and TST: fm must be clear on TST (R422). -/
structure ModTld where
  fm : Bool
  ls : Bool
  deriving DecidableEq, Repr

/-- XMOD of TCFG (R430). -/
structure ModTcfg where
  t : Bool
  noorg : Bool
  kt : Bool
  deriving DecidableEq, Repr

/-- Modes of TMOV (R432). -/
inductive TmovMode where
  | tt | tv | vt
  deriving DecidableEq, Repr

/-- Element sizes of TXP (R433). -/
inductive TxpEsz where
  | n | b | h | w | d
  deriving DecidableEq, Repr

/-- XMOD of MMA (R434). -/
structure ModMma where
  ftzi : Bool
  ftzo : Bool
  z : Bool
  deriving DecidableEq, Repr

/-- Types of MACCLD (R437). -/
inductive MaccldTy where
  | f32 | bf16 | f64 | zero
  deriving DecidableEq, Repr

/-- XMOD of MACCLD (R437). -/
structure ModMaccld where
  ty : MaccldTy
  ls : Bool
  deriving DecidableEq, Repr

/-- Modes of MDRAIN (R438). -/
inductive MdrainMode where
  | f32 | bf16 | q | f64 | f64q
  deriving DecidableEq, Repr

/-- MOD of KIND and KMASK (R441, R442). -/
structure ModKind where
  fs : Fin 8
  sl : Bool
  deriving DecidableEq, Repr

/-- MOD of NPOST (R444). -/
structure ModNpost where
  hnd : Bool
  reg : Bool
  deriving DecidableEq, Repr

/-- A Trailhead datagram as it reaches a function (R88, R89): its header, the key under which its tag verifies with the nonce of a
command, if there is one, the decrypted payload, and the address and UDP port that it comes from (DESIGN CHOICE, log entry 15). -/
structure Datagram where
  magic : Nat
  func : Nat
  opc : Nat
  ver : Nat
  flags : Nat
  seq : Nat
  claim : Nat
  status : Nat
  key : Option (BitVec 256)
  payload : List Byte
  ip : Nat
  udp : Nat
  deriving DecidableEq, Repr

/-- One core position named by the fuses: physical core, partner of a Guyline pair (R21, R110, R114). -/
structure FuseCore where
  pcore : Nat
  partner : Option Nat
  deriving DecidableEq, Repr

/-- What the fuses and tests say of one physical die: its whole quads, its composite quads, which of its 16 L2 slices pass, and
whether its DRAM stack and its station do (R21, R22, R110). -/
structure DieFuse where
  die : Nat
  whole : List Nat
  comp : List (List FuseCore)
  slices : BitVec 16
  dram : Bool
  station : Bool
  deriving DecidableEq, Repr

/-- A route of a routing table that is not the straight one: the physical dies where it starts and ends, and those that it passes in
order, the last one among them (R22, R133, R136) (DESIGN CHOICE, log entry 116). -/
structure Route where
  src : Nat
  dst : Nat
  via : List Nat
  deriving DecidableEq, Repr

/-- The result of firmware's check of a new routing table (R134, R135): acyclic, union with the old one acyclic, the logical dies that
the table does not reach, and its routes. Where the new table is cyclic, the rest tells of the largest acyclic one. -/
structure RouteCheck where
  acyclic : Bool
  unionAcyclic : Bool
  isolated : List Nat
  routes : List Route
  deriving DecidableEq, Repr

/-- The findings of the bring-up sequence (R40): the images held in flash verified, valid Lantern inputs, the tests of the
dies, the first routing table, and those images' security version and measurements (R104) (DESIGN CHOICE, log entry 97). -/
structure BringUp where
  firmwareOk : Bool
  lantern : BitVec 8
  tested : List DieFuse
  ringsFailed : List Nat
  table : RouteCheck
  secVersion : Nat
  measurements : List (BitVec 256)
  deriving DecidableEq, Repr

/-- A host RoCEv2 request (R81 to R85): function, queue pair, window key, virtual address, length or data, operands, and whether its
packets came marked by ECN (R82). -/
structure RdmaReq where
  func : Nat
  qp : Nat
  key : Word
  va : Nat
  len : Nat
  data : List Byte
  opnd : Dword
  cmp : Dword
  ecn : Bool
  deriving DecidableEq, Repr

/-- A message of a flit (R54): channel, opcode, sectors, check values, transaction tag, source module, address, argument, byte
mask of the line, and the line's bytes; with images, the images one after another (DESIGN CHOICE, log entry 89). -/
structure Msg where
  chan : Nat
  opc : Nat
  smask : BitVec 4
  chk : BitVec 64
  mtag : Nat
  srcmod : Nat
  addr : Nat
  arg : BitVec 84
  mask : BitVec 256
  data : List Byte
  deriving DecidableEq, Repr

/-- A received flit after the GCM check (R51, R52, R58): header fields, whether the tag passes, its messages: none in a control
flit, whose content its event gives, and none in an idle one (DESIGN CHOICE, log entry 15). -/
structure Flit where
  ttag : Nat
  kidx : Nat
  fctr : Nat
  seq : Nat
  ackseq : Nat
  cchan : Nat
  cgran : Nat
  ok : Bool
  msgs : List Msg
  deriving DecidableEq, Repr

/-- A flit that arrives on a Yilbel port (R51). -/
structure PortFlit where
  port : Nat
  flit : Flit
  deriving DecidableEq, Repr

/-- Carrier found on a lane, and the highest rate that this end's training flits ask for (R48). -/
structure LaneCarrier where
  lane : Nat
  ownRate : Nat
  deriving DecidableEq, Repr

/-- The queue pair that a received RoCE packet names, and the packet's ECN mark (R82). -/
structure MarkedQp where
  qp : Nat
  ecn : Bool
  deriving DecidableEq, Repr

/-- A fence of a die: its cause and the check of the table that follows it (R26, R134). -/
structure FenceOrder where
  cause : Nat
  routes : RouteCheck
  deriving DecidableEq, Repr

/-- A remap: its frame, and the check of the table that follows a fence where no spare group is left (R25, R26). -/
structure RemapOrder where
  frame : Nat
  routes : RouteCheck
  deriving DecidableEq, Repr

/-- What a scrub finds beyond correction (R38): 64-byte sectors now read wrong, sectors that a later read will find, and parts
of local stores (workgroup and 64-byte part). -/
structure Scrubbed where
  bad : List Nat
  latent : List Nat
  stores : List (Nat × Nat)
  deriving DecidableEq, Repr

/-- Which of a request's accumulates perform: lanes, and the halves of a pair form (R287). -/
structure AccPart where
  lanes : Lanes
  halves : BitVec 2
  deriving DecidableEq, Repr

/-- The instructions and events of spec/opcode_table.json, one constructor per row. The rows whose argument waits in a
queue of State stand last, without fields. -/
inductive Instr where
  -- module and wafer events
  | moduleReset (u : BringUp)
  | trayKeyInstall (key : BitVec 256)
  | lantern (mask : BitVec 8)
  | orderSlotError (die : Nat)
  | warning (die sensor : Nat) (reading : Half)
  | thermalThrottle (die : Nat) (readings : List Half)
  | thermalRelease (die : Nat) (readings : List Half)
  | sustainedPower (watts1s : Nat)
  | peakPower (watts100us : Nat)
  | powerRelease (watts1s watts100us : Nat)
  | trip (die sensor : Nat) (reading : Half)
  | remap (die : Nat) (x : RemapOrder)
  | remapFrame (die : Nat)
  | fieldFence (die : Nat) (x : FenceOrder)
  | quarantine (lcore cause : Nat)
  | dramScrub (die : Nat) (found : Scrubbed) (soft : Nat)
  | sramScrub (die : Nat) (found : Scrubbed) (soft : Nat)
  | routingTable (r : RouteCheck)
  | routingRetry (r : RouteCheck)
  -- Ethernet and RoCEv2 events
  | ethernetFrameDiscard (malformed : Bool) (length : Nat) (mac : BitVec 48)
  | arp (func ip : Nat)
  | neighbourDiscovery (func ip : Nat)
  | rdmaWrite (q : RdmaReq)
  | rdmaRead (q : RdmaReq)
  | compareSwap (q : RdmaReq)
  | fetchAdd (q : RdmaReq)
  | unsupportedOpcode (func : Nat) (pair : MarkedQp) (opcode : Nat)
  | cnp (func qp : Nat)
  | rateRestore (func qp : Nat)
  | acknowledgement (func : Nat) (pair : MarkedQp) (tag : Nat)
  | readResponse (func : Nat) (pair : MarkedQp) (tag : Nat) (data : List Byte)
  | nak (func : Nat) (pair : MarkedQp) (tag : Nat) (qpError : Bool)
  | blockRelease (ldie part : Nat)
  -- scheduler
  | runStart (handle : Nat)
  | nodeDispatch (handle node : Nat)
  | dispatchDecision (ldie : Nat)
  | promotion (handle node : Nat)
  | nodeDone (handle node : Nat)
  | preemption (wg : Nat)
  | watchdogExpiry (wg : Nat)
  | handOff (wg slot : Nat)
  -- memory pipe and engines
  | loadPerform (op : Nat) (lanes : Lanes)
  | storePerform (op : Nat) (lanes : Lanes)
  | atomicPerform (op : Nat) (lanes : Lanes)
  | accumulatePerform (op : Nat) (part : AccPart)
  | divideComplete (op : Nat)
  | pageWalk (die asid page : Nat)
  | copyCommandStart (core : Nat)
  | copyCommandPerform (core : Nat)
  | matrixCommandStart (core : Nat)
  | matrixCommandPerform (core : Nat)
  | stbPerform (op : Nat)
  -- the Ridgeline
  | rds (lane : Nat)
  | rdx (lane : Nat)
  | own (lane : Nat)
  | upg (lane : Nat)
  | putm (lane : Nat)
  | puto (lane : Nat)
  | pin (lane : Nat)
  | forwardedData (die line : Nat)
  | requesterCompletion (die line : Nat)
  | dramWriteBack (line : Nat)
  -- Yilbel ports
  | receivedCarrier (port : Nat) (c : LaneCarrier)
  | carrierLoss (port : Nat)
  | laneDown (port lane : Nat)
  | trainingFlit (x : PortFlit) (peerRate : Nat)
  | trainFail (port : Nat)
  | identityFlit (port : Nat) (f : Flit) (identity : Dword)
  | retrain (x : PortFlit) (rate : Nat) (same : Bool)
  | retrainComplete (port : Nat)
  | messageFlit (port : Nat) (f : Flit)
  | retryRequest (port : Nat) (f : Flit)
  | ackTimeout (port : Nat)
  | keyExhaust (port tag kidx : Nat)
  | keyAcknowledge (x : PortFlit) (tag : Nat)
  | keyRetire (x : PortFlit) (tag : Nat)
  | quiesceDone (x : PortFlit)
  | drainLimit (port : Nat)
  | holdLimit (port : Nat)
  | carrierLossNotice (x : PortFlit)
  | heartbeat (x : PortFlit)
  | peerSilent (port : Nat)
  -- fabric engine
  | triggerWindowAdd (op : Nat)
  | triggerWindowSet (op : Nat)
  | entryIssue (ldie part : Nat)
  | entryComplete (ldie part : Nat)
  -- integer, logic and bit instructions
  | iadd (h : Sched) (o : GOps) (m : ModN)
  | isub (h : Sched) (o : GOps) (m : ModN)
  | imul (h : Sched) (o : GOps) (m : ModN)
  | imulh (h : Sched) (o : GOps) (m : ModN)
  | imad (h : Sched) (o : GOps) (m : ModN)
  | imin (h : Sched) (o : GOps) (m : ModN)
  | imax (h : Sched) (o : GOps) (m : ModN)
  | iabs (h : Sched) (o : GOps) (m : ModN)
  | ineg (h : Sched) (o : GOps) (m : ModN)
  | and (h : Sched) (o : GOps) (m : ModN)
  | or (h : Sched) (o : GOps) (m : ModN)
  | xor (h : Sched) (o : GOps) (m : ModN)
  | andn (h : Sched) (o : GOps) (m : ModN)
  | not (h : Sched) (o : GOps) (m : ModN)
  | shl (h : Sched) (o : GOps) (m : ModN)
  | shr (h : Sched) (o : GOps) (m : ModN)
  | sar (h : Sched) (o : GOps) (m : ModN)
  | rol (h : Sched) (o : GOps) (m : ModN)
  | ror (h : Sched) (o : GOps) (m : ModN)
  | popc (h : Sched) (o : GOps) (m : ModN)
  | clz (h : Sched) (o : GOps) (m : ModN)
  | ctz (h : Sched) (o : GOps) (m : ModN)
  | brev (h : Sched) (o : GOps) (m : ModN)
  | bfx (h : Sched) (o : GOps) (m : ModN)
  | bfi (h : Sched) (o : GOps) (m : ModN)
  | prmb (h : Sched) (o : GOps) (m : ModN)
  -- compare, select, move
  | icmp (h : Sched) (o : GOps) (m : ModIcmp)
  | fcmp (h : Sched) (o : GOps) (m : ModFcmp)
  | sel (h : Sched) (o : GOps) (dw : Bool)
  | mov (h : Sched) (o : GOps) (dw : Bool)
  | movi (h : Sched) (o : IOps) (m : MoviMode)
  | rdsp (h : Sched) (o : GOps) (m : RdspItem)
  -- lane operations
  | lperm (h : Sched) (o : GOps) (dw : Bool)
  | vote (h : Sched) (o : GOps) (m : ModVote)
  | iscan (h : Sched) (o : GOps) (m : ModScan)
  | lred (h : Sched) (o : GOps) (m : ModLred)
  -- affine registers and predicates
  | aset (h : Sched) (o : IOps)
  | aadd (h : Sched) (o : GOps)
  | ascl (h : Sched) (o : IOps)
  | aoff (h : Sched) (o : GOps)
  | aexp (h : Sched) (o : GOps) (dw : Bool)
  | pset (h : Sched) (o : GOps) (m : ModPset)
  | plog (h : Sched) (o : GOps) (m : PlogOp)
  | pcnt (h : Sched) (o : GOps)
  -- floating point
  | fadd (h : Sched) (o : GOps) (m : ModF)
  | fsub (h : Sched) (o : GOps) (m : ModF)
  | fmul (h : Sched) (o : GOps) (m : ModF)
  | ffma (h : Sched) (o : GOps) (m : ModF)
  | fmin (h : Sched) (o : GOps) (m : ModF)
  | fmax (h : Sched) (o : GOps) (m : ModF)
  | fdiv (h : Sched) (o : GOps) (m : ModF)
  | fsqrt (h : Sched) (o : GOps) (m : ModF)
  | frcp (h : Sched) (o : GOps) (m : ModF)
  | frsq (h : Sched) (o : GOps) (m : ModF)
  | fexp2 (h : Sched) (o : GOps) (m : ModF)
  | flog2 (h : Sched) (o : GOps) (m : ModF)
  | fsin (h : Sched) (o : GOps) (m : ModF)
  | fcos (h : Sched) (o : GOps) (m : ModF)
  | ftanh (h : Sched) (o : GOps) (m : ModF)
  | ffrc (h : Sched) (o : GOps) (m : ModF)
  | frnd (h : Sched) (o : GOps) (m : ModF)
  | fclass (h : Sched) (o : GOps) (m : ModF)
  -- conversions
  | cvt (h : Sched) (o : GOps) (m : ModCvt)
  | cvtNarrow (h : Sched) (o : GOps) (m : ModCvt)
  | qnt (h : Sched) (o : GOps) (m : ModQnt)
  | dqnt (h : Sched) (o : GOps) (m : ModQnt)
  -- control flow
  | bra (h : Sched) (o : BOps)
  | brx (h : Sched) (o : GOps)
  | call (h : Sched) (o : BOps)
  | callx (h : Sched) (o : GOps)
  | ret (h : Sched) (o : GOps)
  | exit (h : Sched) (o : GOps)
  | waypt (h : Sched) (o : IOps)
  | nop (h : Sched) (o : GOps)
  -- loads, stores, cache operations
  | ld (h : Sched) (o : MOps) (m : ModM)
  | st (h : Sched) (o : MOps) (m : ModM)
  | lds (h : Sched) (o : MOps) (m : ModM)
  | ldL (h : Sched) (o : MOps) (m : ModM)
  | stL (h : Sched) (o : MOps) (m : ModM)
  | cpf (h : Sched) (o : MOps) (m : ModM)
  | cwb (h : Sched) (o : MOps) (m : ModM)
  | cinv (h : Sched) (o : MOps) (m : ModM)
  -- atomics and accumulators
  | atom (h : Sched) (o : MOps) (m : ModAtom)
  | atomL (h : Sched) (o : MOps) (m : ModAtom)
  | facc (h : Sched) (o : MOps) (m : ModFacc)
  | faccrd (h : Sched) (o : MOps) (m : ModFaccrd)
  | faccclr (h : Sched) (o : MOps) (m : AccTy)
  -- fences, barriers, windows
  | fence (h : Sched) (o : GOps) (m : ModFence)
  | qfence (h : Sched) (o : GOps) (m : BitVec 4)
  | barInit (h : Sched) (o : GOps)
  | barArv (h : Sched) (o : GOps) (m : Scope)
  | barWait (h : Sched) (o : GOps) (m : Scope)
  | barSync (h : Sched) (o : GOps) (m : Scope)
  | fbar (h : Sched) (o : GOps) (m : BitVec 4)
  | wput (h : Sched) (o : GOps)
  | wtake (h : Sched) (o : GOps)
  | wpeek (h : Sched) (o : GOps)
  | wclr (h : Sched) (o : GOps)
  -- copy engine, broadcast stores
  | acp (h : Sched) (o : MOps) (m : ModAcp)
  | tld (h : Sched) (o : XOps) (m : ModTld)
  | tldSlide (h : Sched) (o : XOps) (m : ModTld)
  | tst (h : Sched) (o : XOps) (m : ModTld)
  | stb (h : Sched) (o : MOps) (m : MSize)
  -- tiles and the matrix engine
  | tcfg (h : Sched) (o : XOps) (m : ModTcfg)
  | tzero (h : Sched) (o : XOps)
  | tmov (h : Sched) (o : XOps) (m : TmovMode)
  | txp (h : Sched) (o : XOps) (m : TxpEsz)
  | mma (h : Sched) (o : XOps) (m : ModMma)
  | maccld (h : Sched) (o : XOps) (m : ModMaccld)
  | mdrain (h : Sched) (o : XOps) (m : MdrainMode)
  -- random, network, system
  | kind (h : Sched) (o : GOps) (m : ModKind)
  | kmask (h : Sched) (o : GOps) (m : ModKind)
  | npost (h : Sched) (o : MOps) (m : ModNpost)
  | ntrig (h : Sched) (o : GOps) (set : Bool)
  | nwait (h : Sched) (o : GOps)
  | nrd (h : Sched) (o : GOps)
  | ncoll (h : Sched) (o : MOps) (hnd : Bool)
  | ncan (h : Sched) (o : GOps)
  | trap (h : Sched) (o : IOps)
  | bkpt (h : Sched) (o : GOps)
  | rdsys (h : Sched) (o : YOps)
  | wrsys (h : Sched) (o : YOps)
  | rdperf (h : Sched) (o : YOps)
  | clock (h : Sched) (o : GOps) (ns : Bool)
  | rolesw (h : Sched) (o : GOps)
  | halt (h : Sched) (o : GOps)
  -- further events
  | priorityFlowControl (prio : Nat) (pause : Bool)
  | retrainRequest (port rate : Nat)
  | granuleZeroed (granule : Nat)
  | blackout (die : Nat)
  | wearManagement (die pages : Nat)
  | heartbeatInterval (port : Nat)
  -- Trailhead commands: each serves the oldest received datagram (State.rx, R88)
  | identify
  | attest
  | ping
  | galloc
  | gload
  | gseal
  | gfree
  | grun
  | gcancel
  | evread
  | winset
  | htset
  | pcreate
  | pdestroy
  | weight
  | gshare
  | wdog
  | coremap
  | funcs
  | asids
  | memGrant
  | memRelease
  | start
  | suspend
  | resume
  | retireExpose
  | retireHide
  | ttagMap
  | ttagUnmap
  | fabricGrant
  | fabricRelease
  | accspill
  | asroot
  | tlbinv
  | bwinCreate
  | bwinDestroy
  | bwinSetWriter
  | priv
  | fassign
  | keyset
  | ykey
  | fixed
  | switched
  | enable
  | disable
  | peer
  | route
  | routeClear
  | read
  | yquiesce
  | yresume
  | treealloc
  | treefree
  | fwstage
  | telread
  | telwrite
  | diagResume
  | diagContinue
  | discard
  | diagread
  | pfreeze
  | pthaw
  | dumpread
  | badop
  -- received Yilbel messages: each serves the oldest unserved message (State.inbox, R54)
  | creqRds
  | creqRdx
  | creqRdc
  | creqUpg
  | creqWbm
  | creqWrs
  | crspCmps
  | crspCmpe
  | crspCmp
  | cdatData
  | binv
  | bshr
  | backi
  | backs
  | nreqPut
  | nreqGet
  | nreqAtom
  | nreqAccp
  | nreqCadd
  | nrspAck
  | nrspGdata
  | nrspArsp
  | nrspNerr
  -- events without argument
  | drainCommit
  | ethernetLinkDown
  | ethernetLinkUp
  | sessionTree
  | powerRemoved
  deriving DecidableEq, Repr

end Sys2Proof
end

