-- ==== Sys2Proof/WellFormed.lean ====
section
/-! DEFINITION. Which instruction values are legal words: operand kinds, unused fields and MOD combinations that the word
alone decides (R345, R352 to R356 and the instruction chapters). A value that fails is ILLEGAL_OP at step 2 of R326. -/

namespace Sys2Proof

/-- 64-bit integer types. -/
def NType.wide : NType → Bool
  | .i32 | .ui32 => false
  | .i64 | .ui64 => true

/-- Signed integer types. -/
def NType.signed : NType → Bool
  | .i32 | .i64 => true
  | .ui32 | .ui64 => false

/-- FP64. -/
def FType.wide : FType → Bool
  | .f64 => true
  | .f32 | .f16 | .bf16 => false

/-- 64-bit CVT types. -/
def CvtTy.wide : CvtTy → Bool
  | .i64 | .ui64 | .f64 => true
  | .i32 | .ui32 | .f32 | .f16 | .bf16 => false

/-- Integer CVT types. -/
def CvtTy.isInt : CvtTy → Bool
  | .i32 | .ui32 | .i64 | .ui64 => true
  | .f32 | .f64 | .f16 | .bf16 => false

/-- 64-bit LRED types. -/
def LredTy.wide : LredTy → Bool
  | .i64 | .ui64 => true
  | .i32 | .ui32 | .f32 => false

/-- The address of a pair names an even register, of a quad a multiple of four (R352). -/
def vAligned (n : Fin 256) (regs : Nat) : Bool := n.val % regs == 0

namespace WF

/-- A permutation code other than 0 stands only on a V or W source (R353). -/
def permOk (x : Src) : Bool :=
  match x.op with
  | .v _ | .w _ => true
  | _ => x.perm == .none

/-- Value sources of chapter 13 at 32 or 64 bits; a class-U instruction takes no operand that varies by lane
(R348, R356, R366). -/
def val (wide uniform : Bool) (x : Src) : Bool :=
  permOk x &&
  match x.op with
  | .v n => !uniform && (!wide || vAligned n 2)
  | .s _ => true
  | .a _ => !uniform
  | .sp k => !(uniform && k == .laneId)
  | .l _ => !uniform
  | .w _ => !uniform && !wide
  | .imm _ => true
  | _ => false

/-- The field is unused: it holds zero (R345). -/
def no (x : Src) : Bool := x == Src.zero
/-- The destination field is unused. -/
def noD (d : Operand) : Bool := d == Operand.zero

/-- A predicate source P0 to P7. -/
def pred (x : Src) : Bool :=
  match x with
  | ⟨.p _, .none⟩ => true
  | _ => false

/-- A predicate destination P0 to P6 (R352). -/
def dP : Operand → Bool
  | .p n => n.val < 7
  | _ => false

/-- A V destination of the given number of registers. -/
def dV (regs : Nat) : Operand → Bool
  | .v n => vAligned n regs
  | _ => false

/-- An S destination. -/
def dS : Operand → Bool
  | .s _ => true
  | _ => false

/-- A V or S destination. -/
def dVS (wide : Bool) (d : Operand) : Bool := dV (if wide then 2 else 1) d || dS d

/-- Whether the destination makes a V/U instruction class U (R356). -/
def uni (d : Operand) : Bool := dS d

/-- A plain S source. -/
def s (x : Src) : Bool :=
  match x with
  | ⟨.s _, .none⟩ => true
  | _ => false

/-- A plain S source or small immediate. -/
def sImm (x : Src) : Bool :=
  match x with
  | ⟨.s _, .none⟩ | ⟨.imm _, .none⟩ => true
  | _ => false

/-- A plain S source or a small immediate from 0 to 127 (R445, R446, R449). -/
def sImm127 (x : Src) : Bool :=
  match x with
  | ⟨.s _, .none⟩ => true
  | ⟨.imm i, .none⟩ => i.toNat < 128
  | _ => false

/-- An affine register as a register (R381). -/
def aReg (x : Src) : Bool :=
  match x with
  | ⟨.a _, .none⟩ => true
  | _ => false
/-- An affine destination. -/
def dA : Operand → Bool
  | .a _ => true
  | _ => false

/-- A 64-bit V pair, S or A operand (R391, R395, R441). -/
def vsa64 (x : Src) : Bool :=
  permOk x &&
  match x.op with
  | .v n => vAligned n 2
  | .s _ | .a _ => true
  | _ => false

/-- A base operand: V pair, S or A; in the local space also one V register (R400). -/
def base (isLocal : Bool) (x : Src) : Bool :=
  permOk x &&
  match x.op with
  | .v n => isLocal || vAligned n 2
  | .s _ | .a _ => true
  | _ => false

/-- A tile source. -/
def tile (x : Src) : Bool :=
  match x with
  | ⟨.t _, .none⟩ => true
  | _ => false
/-- A tile destination. -/
def dT : Operand → Bool
  | .t _ => true
  | _ => false

/-- A barrier source. -/
def bar (x : Src) : Bool :=
  match x with
  | ⟨.b _, .none⟩ => true
  | _ => false
/-- A counter handle source. -/
def ctr (x : Src) : Bool :=
  match x with
  | ⟨.c _, .none⟩ => true
  | _ => false
/-- A window source. -/
def win (x : Src) : Bool :=
  match x.op with
  | .w _ => true
  | _ => false

/-- A barrier, a counter handle or zero (R422, R437). -/
def sig (x : Src) : Bool := bar x || ctr x || no x
/-- The same as a destination field (R438). -/
def dSig : Operand → Bool
  | .b _ | .c _ => true
  | d => noD d

/-- Registers an access of this size names. -/
def regs : MSize → Nat
  | .b | .h | .w => 1
  | .d => 2
  | .q => 4

/-- Store data (R403). -/
def stData (m : MSize) (x : Src) : Bool :=
  permOk x &&
  match x.op with
  | .v n => vAligned n (regs m)
  | .s _ => m != .q
  | .w _ => m == .b || m == .h || m == .w
  | .imm _ => m != .q
  | _ => false

/-- Data of an atomic, with the register rules of CAS (R406). -/
def atomData (m : ModAtom) (x : Src) : Bool :=
  permOk x &&
  match x.op with
  | .v n => if m.op == .cas then vAligned n (if m.d then 4 else 2) else vAligned n (if m.d then 2 else 1)
  | .s n => !(m.op == .cas) || n.val % 2 == 0
  | .imm _ => !(m.op == .cas)
  | _ => false

/-- Data of FACC (R408). -/
def faccData (t : AccTy) (x : Src) : Bool :=
  permOk x &&
  match x.op with
  | .v n => !(t == .f64) || vAligned n 2
  | .s _ | .imm _ => true
  | _ => false

/-- G-form with V/U result and one to three value sources. -/
def arith (wide : Bool) (n : Nat) (o : GOps) : Bool :=
  dVS wide o.d && val wide (uni o.d) o.a &&
  (if 2 ≤ n then val wide (uni o.d) o.b else no o.b) &&
  (if 3 ≤ n then val wide (uni o.d) o.c else no o.c)

/-- All operand fields zero. -/
def gZero (o : GOps) : Bool := noD o.d && no o.a && no o.b && no o.c

/-- Sub-word qualifiers of a load (R402). -/
def ldMod (m : ModM) : Bool :=
  (!m.sx || m.size == .b || m.size == .h) && m.qual != .rel && (m.qual != .none || m.scope == .lane)
/-- Qualifiers of a store (R403). -/
def stMod (m : ModM) : Bool :=
  !m.sx && m.qual != .acq && (m.qual != .none || m.scope == .lane)
/-- No qualifier at all (R402, R403, R405). -/
def plainMod (m : ModM) : Bool := m.qual == .none && m.scope == .lane

/-- Registers RDSYS reads, with whether they hold 64 bits (R451). -/
def sysReg (n : Nat) : Option Bool :=
  if n == 0 then some false else if n == 1 then some true else if n == 2 then some false
  else if n == 3 then some true else if n == 4 then some true else if n == 16 then some false
  else if n == 17 then some false else none
/-- Counters RDPERF reads (R452). -/
def perfReg (n : Nat) : Bool := n < 8 || n == 0x100 || n == 0x101 || n == 0x102

/-- Integer arithmetic (R370). -/
def intOp (n : Nat) (sat : Bool) (o : GOps) (m : ModN) : Bool := arith m.ty.wide n o && (sat || !m.sat)

/-- Floating-point arithmetic (R382). -/
def fpOp (n : Nat) (pk rmSat : Bool) (o : GOps) (m : ModF) : Bool :=
  arith m.ty.wide n o && (!m.pk || (pk && (m.ty == .f16 || m.ty == .bf16))) && (rmSat || (m.rm == .rne && !m.sat))

/-- Approximations (R386) (DESIGN CHOICE, log entry 7). -/
def approx (f64 : Bool) (o : GOps) (m : ModF) : Bool :=
  arith m.ty.wide 1 o && !m.pk && m.rm == .rne && (f64 || !(m.ty == .f64))

/-- Memory transfers of tiles (R422). -/
def tileMove (o : XOps) : Bool :=
  dT o.d && s o.a && s o.b && sig o.c && o.fsa.val == 0 && o.fsb.val == 0

end WF

/-- NWB stands only on instructions with a fixed latency and a register result (R354, R368, R400, R429, R441 to R453). -/
def Instr.nwbOk : Instr → Bool
  | .fdiv .. | .fsqrt .. | .bra .. | .brx .. | .ret .. | .exit .. | .waypt .. | .nop .. => false
  | .ld .. | .st .. | .lds .. | .ldL .. | .stL .. | .cpf .. | .cwb .. | .cinv .. | .atom .. | .atomL .. => false
  | .facc .. | .faccrd .. | .faccclr .. | .fence .. | .qfence .. | .barInit .. | .barArv .. | .barWait .. => false
  | .barSync .. | .fbar .. | .wput .. | .wclr .. | .acp .. | .tld .. | .tldSlide .. | .tst .. | .stb .. => false
  | .tcfg .. | .tzero .. | .txp .. | .mma .. | .maccld .. | .mdrain .. => false
  | .tmov _ _ m => m == .vt
  | .npost .. | .ntrig .. | .nwait .. | .nrd .. | .ncoll .. | .ncan .. | .trap .. | .bkpt .. => false
  | .wrsys .. | .rolesw .. | .halt .. => false
  | _ => true

/-- The scheduling fields of an Aelax instruction; the hardware events have none. -/
def Instr.sched : Instr → Option Sched
  | .iadd h _ _ | .isub h _ _ | .imul h _ _ | .imulh h _ _ | .imad h _ _ | .imin h _ _ | .imax h _ _ | .iabs h _ _
  | .ineg h _ _ | .and h _ _ | .or h _ _ | .xor h _ _ | .andn h _ _ | .not h _ _ | .shl h _ _ | .shr h _ _
  | .sar h _ _ | .rol h _ _ | .ror h _ _ | .popc h _ _ | .clz h _ _ | .ctz h _ _ | .brev h _ _ | .bfx h _ _
  | .bfi h _ _ | .prmb h _ _ | .icmp h _ _ | .fcmp h _ _ | .sel h _ _ | .mov h _ _ | .movi h _ _ | .rdsp h _ _
  | .lperm h _ _ | .vote h _ _ | .iscan h _ _ | .lred h _ _ | .aset h _ | .aadd h _ | .ascl h _ | .aoff h _
  | .aexp h _ _ | .pset h _ _ | .plog h _ _ | .pcnt h _ | .fadd h _ _ | .fsub h _ _ | .fmul h _ _ | .ffma h _ _
  | .fmin h _ _ | .fmax h _ _ | .fdiv h _ _ | .fsqrt h _ _ | .frcp h _ _ | .frsq h _ _ | .fexp2 h _ _ | .flog2 h _ _
  | .fsin h _ _ | .fcos h _ _ | .ftanh h _ _ | .ffrc h _ _ | .frnd h _ _ | .fclass h _ _ | .cvt h _ _
  | .cvtNarrow h _ _ | .qnt h _ _ | .dqnt h _ _ | .bra h _ | .brx h _ | .call h _ | .callx h _ | .ret h _ | .exit h _
  | .waypt h _ | .nop h _ | .ld h _ _ | .st h _ _ | .lds h _ _ | .ldL h _ _ | .stL h _ _ | .cpf h _ _ | .cwb h _ _
  | .cinv h _ _ | .atom h _ _ | .atomL h _ _ | .facc h _ _ | .faccrd h _ _ | .faccclr h _ _ | .fence h _ _
  | .qfence h _ _ | .barInit h _ | .barArv h _ _ | .barWait h _ _ | .barSync h _ _ | .fbar h _ _ | .wput h _
  | .wtake h _ | .wpeek h _ | .wclr h _ | .acp h _ _ | .tld h _ _ | .tldSlide h _ _ | .tst h _ _ | .stb h _ _
  | .tcfg h _ _ | .tzero h _ | .tmov h _ _ | .txp h _ _ | .mma h _ _ | .maccld h _ _ | .mdrain h _ _ | .kind h _ _
  | .kmask h _ _ | .npost h _ _ | .ntrig h _ _ | .nwait h _ | .nrd h _ | .ncoll h _ _ | .ncan h _ | .trap h _
  | .bkpt h _ | .rdsys h _ | .wrsys h _ | .rdperf h _ | .clock h _ _ | .rolesw h _ | .halt h _ => some h
  | _ => none

/-- The operand rules of each Aelax instruction that its word alone decides; the hardware events carry no word and have
none. -/
def Instr.operandsOk : Instr → Bool
  | .iadd _ o m | .isub _ o m | .imul _ o m => WF.intOp 2 true o m
  | .imulh _ o m | .imin _ o m | .imax _ o m => WF.intOp 2 false o m
  | .imad _ o m => WF.intOp 3 true o m
  | .iabs _ o m | .ineg _ o m => WF.intOp 1 true o m
  | .and _ o m | .or _ o m | .xor _ o m | .andn _ o m | .shl _ o m | .shr _ o m | .sar _ o m | .rol _ o m | .ror _ o m
  | .bfx _ o m => WF.intOp 2 false o m
  | .not _ o m | .popc _ o m | .clz _ o m | .ctz _ o m | .brev _ o m => WF.intOp 1 false o m
  | .bfi _ o m | .prmb _ o m => WF.intOp 3 false o m
  | .icmp _ o m =>
      (WF.dP o.d || WF.dV 1 o.d) && WF.val m.ty.wide false o.a && WF.val m.ty.wide false o.b &&
      (if m.comb == .none then WF.no o.c else WF.pred o.c) && m.cc != .ord && m.cc != .uno
  | .fcmp _ o m =>
      (WF.dP o.d || WF.dV 1 o.d) && WF.val m.ty.wide false o.a && WF.val m.ty.wide false o.b &&
      (if m.comb == .none then WF.no o.c else WF.pred o.c)
  | .sel _ o dw =>
      WF.dV (if dw then 2 else 1) o.d && WF.val dw false o.a && WF.val dw false o.b && WF.pred o.c
  | .mov _ o dw => WF.arith dw 1 o
  | .movi _ o m => WF.no o.a && WF.dVS (m != .zx) o.d
  | .rdsp _ o _ => WF.dVS false o.d && WF.no o.a && WF.no o.b && WF.no o.c
  | .lperm _ o dw =>
      WF.dV (if dw then 2 else 1) o.d && WF.val false false o.b && WF.no o.c && o.a.perm == .none &&
      WF.dV (if dw then 2 else 1) o.a.op
  | .vote _ o m =>
      WF.no o.b && WF.no o.c && (m.mode == .uni || !m.d) &&
      (match m.mode with
       | .any | .all => (WF.dP o.d || WF.dVS false o.d) && WF.pred o.a
       | .ballot => WF.dVS false o.d && WF.pred o.a
       | .uni => (WF.dP o.d || WF.dVS false o.d) && WF.val m.d false o.a &&
           (match o.a.op with | .v _ | .a _ | .s _ | .w _ => true | _ => false))
  | .iscan _ o m => WF.dV (if m.ty.wide then 2 else 1) o.d && WF.val m.ty.wide false o.a && WF.no o.b && WF.no o.c
  | .lred _ o m =>
      (if m.bc then WF.dV (if m.ty.wide then 2 else 1) o.d else WF.dS o.d) && WF.val m.ty.wide false o.a && WF.no o.b &&
      WF.no o.c &&
      (if m.ty == .f32 then (m.op == .add || ((m.op == .min || m.op == .max) && m.rm == .rne)) else m.rm == .rne)
  | .aset _ o => WF.dA o.d && WF.val true true o.a
  | .aadd _ o => WF.dA o.d && WF.aReg o.a && WF.aReg o.b && WF.no o.c
  | .ascl _ o => WF.dA o.d && WF.aReg o.a
  | .aoff _ o => WF.dA o.d && WF.aReg o.a && WF.val true true o.b && WF.no o.c
  | .aexp _ o dw => WF.dV (if dw then 2 else 1) o.d && WF.aReg o.a && WF.no o.b && WF.no o.c
  | .pset _ o m => WF.dP o.d && WF.no o.b && WF.no o.c &&
      (if m.mask then !m.d && WF.val false true o.a else WF.val m.d false o.a)
  | .plog _ o m => WF.dP o.d && WF.pred o.a && WF.no o.c && (if m == .not || m == .mov then WF.no o.b else WF.pred o.b)
  | .pcnt _ o => WF.dVS false o.d && WF.pred o.a && WF.no o.b && WF.no o.c
  | .fadd _ o m | .fsub _ o m | .fmul _ o m => WF.fpOp 2 true true o m
  | .ffma _ o m => WF.fpOp 3 true true o m
  | .fmin _ o m | .fmax _ o m => WF.fpOp 2 true false o m
  | .fdiv _ o m => WF.fpOp 2 false true o m
  | .fsqrt _ o m => WF.fpOp 1 false true o m
  | .frcp _ o m | .frsq _ o m => WF.approx true o m
  | .fexp2 _ o m | .flog2 _ o m | .fsin _ o m | .fcos _ o m | .ftanh _ o m => WF.approx false o m
  | .ffrc _ o m => WF.fpOp 1 false true o m
  | .frnd _ o m => WF.fpOp 1 false true o m && !m.sat && !m.ftzo
  | .fclass _ o m =>
      WF.dVS false o.d && WF.val m.ty.wide (WF.uni o.d) o.a && WF.no o.b && WF.no o.c && m.rm == .rne && !m.sat &&
      !m.ftzo && !m.pk
  | .cvt _ o m => WF.dVS m.dty.wide o.d && WF.val m.sty.wide (WF.uni o.d) o.a && WF.no o.b && WF.no o.c
  | .cvtNarrow _ o m =>
      WF.dVS m.dty.wide o.d && WF.val false (WF.uni o.d) o.a && WF.val false (WF.uni o.d) o.c && !m.dty.isInt &&
      m.sty == .i32 &&
      (match o.b with | ⟨.imm k, .none⟩ => 1 ≤ k.toNat && k.toNat ≤ 8 | _ => false)
  | .qnt _ o m => WF.dV 1 o.d && WF.val m.ty.wide false o.a && WF.vsa64 o.b && WF.val false false o.c && !m.fb
  | .dqnt _ o m => WF.dV (if m.ty.wide then 2 else 1) o.d && WF.val false false o.a && WF.vsa64 o.b && WF.val false false o.c
  | .bra _ o => WF.noD o.d && o.off.toNat % 8 < 5
  | .call _ o => WF.dVS true o.d && o.off.toNat % 8 < 5
  | .brx _ o | .ret _ o => WF.noD o.d && WF.vsa64 o.a && WF.no o.b && WF.no o.c
  | .callx _ o => WF.dVS true o.d && WF.vsa64 o.a && WF.no o.b && WF.no o.c
  | .exit _ o | .nop _ o | .bkpt _ o | .halt _ o => WF.gZero o
  | .waypt _ o | .trap _ o => WF.noD o.d && WF.no o.a
  | .ld _ o m => WF.dV (WF.regs m.size) o.d && WF.base false o.a && WF.no o.b && WF.ldMod m
  | .st _ o m => WF.noD o.d && WF.base false o.a && WF.stData m.size o.b && WF.stMod m
  | .lds _ o m => WF.dS o.d && WF.s o.a && WF.no o.b && WF.ldMod m && m.size != .q
  | .ldL _ o m => WF.dV (WF.regs m.size) o.d && WF.base true o.a && WF.no o.b && WF.ldMod m && WF.plainMod m
  | .stL _ o m => WF.noD o.d && WF.base true o.a && WF.stData m.size o.b && WF.stMod m && WF.plainMod m
  | .cpf _ o m | .cwb _ o m | .cinv _ o m => WF.noD o.d && WF.base false o.a && WF.no o.b && WF.plainMod m && !m.sx
  | .atom _ o m =>
      (if m.nr then WF.noD o.d else WF.dV (if m.d then 2 else 1) o.d) && WF.base false o.a && WF.atomData m o.b &&
      (!m.s || m.op == .min || m.op == .max)
  | .atomL _ o m =>
      (if m.nr then WF.noD o.d else WF.dV (if m.d then 2 else 1) o.d) && WF.base true o.a && WF.atomData m o.b &&
      (!m.s || m.op == .min || m.op == .max)
  | .facc _ o m => WF.noD o.d && WF.base false o.a && WF.faccData m.ty o.b
  | .faccrd _ o m => WF.dV 1 o.d && WF.s o.a && WF.no o.b &&
      (match m.ty with
       | .f64 => m.ent.val < 7
       | .bf16x2 | .f16x2 => m.ent.val < 2
       | _ => m.ent.val == 0)
  | .faccclr _ o _ => WF.noD o.d && WF.base false o.a && WF.no o.b
  | .fence _ o _ => WF.gZero o
  | .qfence _ o m => WF.gZero o && m != 0
  | .barInit _ o => WF.noD o.d && WF.bar o.a && WF.sImm o.b && WF.no o.c
  | .barArv _ o _ | .barWait _ o _ | .barSync _ o _ => WF.noD o.d && WF.bar o.a && WF.no o.b && WF.no o.c
  | .fbar _ o _ => WF.gZero o
  | .wput _ o =>
      (match o.d with | .w _ => true | _ => false) && WF.no o.b && WF.no o.c && WF.val false false o.a &&
      (match o.a.op with | .a _ | .w _ => false | _ => true)
  | .wtake _ o | .wpeek _ o => WF.dV 1 o.d && WF.win o.a && WF.no o.b && WF.no o.c
  | .wclr _ o => WF.noD o.d && WF.win o.a && o.a.perm == .none && WF.no o.b && WF.no o.c
  | .acp _ o m => WF.noD o.d && WF.base m.ld o.a && WF.base m.ls o.b
  | .tld _ o _ => WF.tileMove o
  | .tldSlide _ o _ => WF.tileMove o && (match o.b.op with | .s n => n.val % 2 == 0 | _ => false)
  | .tst _ o m => WF.tileMove o && !m.fm
  | .stb _ o m => WF.noD o.d && WF.base false o.a && WF.stData m o.b
  | .tcfg _ o m =>
      WF.dT o.d && (if m.noorg then WF.no o.a else WF.s o.a) && WF.no o.b && WF.no o.c && o.fsa.val == 0 &&
      o.fsb.val == 0 && (!m.kt || !m.t)
  | .tzero _ o => WF.dT o.d && WF.no o.a && WF.no o.b && WF.no o.c && o.fsa.val == 0 && o.fsb.val == 0
  | .tmov _ o m =>
      WF.no o.c && o.fsa.val == 0 && o.fsb.val == 0 &&
      (match m with
       | .tt => WF.dT o.d && WF.tile o.a && WF.no o.b
       | .tv => WF.dT o.d && o.a.perm == .none && WF.dV 1 o.a.op && WF.sImm o.b
       | .vt => WF.dV 1 o.d && WF.tile o.a && WF.sImm o.b)
  | .txp _ o _ => WF.dT o.d && WF.tile o.a && WF.no o.b && WF.no o.c && o.fsa.val < 2 && o.fsb.val == 0
  | .mma _ o _ => (match o.d with | .acc _ => true | _ => false) && WF.tile o.a && WF.tile o.b && (WF.tile o.c || WF.no o.c)
  | .maccld _ o m =>
      (match o.d with | .acc n => !(m.ty == .f64) || n.val % 2 == 0 | _ => false) && WF.sig o.c && o.fsa.val == 0 &&
      o.fsb.val == 0 &&
      (if m.ty == .zero then WF.no o.a && WF.no o.b && !m.ls else WF.s o.a && WF.s o.b)
  | .mdrain _ o m =>
      WF.dSig o.d && WF.s o.a && o.fsb.val == 0 &&
      (match o.b with | ⟨.s k, .none⟩ => k.val ≤ 125 | _ => false) &&
      (match o.c with | ⟨.acc n, .none⟩ => !(m == .f64 || m == .f64q) || n.val % 2 == 0 | _ => false) &&
      (m == .q || m == .f64q || o.fsa.val == 0)
  | .kind _ o m =>
      WF.dV 1 o.d && (if m.sl then WF.no o.a else WF.s o.a && m.fs.val == 0) && WF.vsa64 o.b && WF.no o.c
  | .kmask _ o m =>
      (WF.dP o.d || WF.dV 1 o.d) && (if m.sl then WF.no o.a else WF.s o.a && m.fs.val == 0) && WF.vsa64 o.b &&
      WF.permOk o.c && (match o.c.op with | .v _ | .s _ | .imm _ => true | _ => false)
  | .npost _ o m =>
      WF.dVS false o.d &&
      (if m.reg then WF.no o.a && o.b.perm == .none && WF.dV 1 o.b.op && o.off == 0 else WF.s o.a && WF.no o.b)
  | .ntrig _ o _ => WF.noD o.d && WF.ctr o.a && WF.sImm127 o.b && WF.no o.c
  | .nwait _ o => (WF.dS o.d || WF.noD o.d) && WF.ctr o.a && WF.sImm127 o.b && WF.no o.c
  | .nrd _ o => WF.dVS true o.d && WF.ctr o.a && WF.no o.b && WF.no o.c
  | .ncoll _ o _ => WF.dVS false o.d && WF.s o.a && WF.no o.b
  | .ncan _ o => WF.dVS false o.d && WF.sImm127 o.a && WF.no o.b && WF.no o.c
  | .rdsys _ o => WF.no o.a &&
      (match WF.sysReg o.sysn.toNat with | some wide => WF.dVS wide o.d | none => false)
  | .wrsys _ o => WF.noD o.d && WF.sImm o.a && o.sysn == 0
  | .rdperf _ o => WF.dVS true o.d && WF.no o.a && WF.perfReg o.sysn.toNat
  | .clock _ o _ => WF.dVS true o.d && WF.no o.a && WF.no o.b && WF.no o.c
  | .rolesw _ o => WF.noD o.d && WF.sImm o.a && WF.no o.b && WF.no o.c
  | _ => true

/-- A legal Aelax word: operands, unused fields and NWB (R345, R352 to R356); a hardware event is no word. -/
def Instr.wellFormed (i : Instr) : Bool :=
  match i.sched with
  | some h => i.operandsOk && (!h.nwb || i.nwbOk)
  | none => false

end Sys2Proof
end

