-- ==== Sys2Proof/Decode.lean ====
section
/-! DEFINITION. Decoding of 96-bit Aelax words (R339, R343 to R356, R363, R364), total on any bytes and rejecting by name,
and after it the encoder of a legal word, written from the same tables. -/

namespace Sys2Proof

/-- Why a word is no legal instruction (R345, R364); each is ILLEGAL_OP at step 2 of R326. -/
inductive DecodeError where
  | shortWord
  | unassignedOpcode (opc : Nat)
  | reservedSetf
  | reservedOperand
  | reservedPermutation
  | reservedMod
  | unusedField
  | illegalOperands
  deriving DecidableEq, Repr

/-- Cut a number into fields of the given widths, lowest field first. -/
def unpackFields : List Nat → Nat → List Nat
  | [], _ => []
  | w :: ws, x => (x % 2 ^ w) :: unpackFields ws (x / 2 ^ w)

/-- A little-endian number from bytes (R7, R339). -/
def leNat : List Byte → Nat
  | [] => 0
  | b :: bs => b.toNat + 256 * leNat bs

/-- The low `n` bytes of a number, little-endian. -/
def leBytes : Nat → Nat → List Byte
  | 0, _ => []
  | n + 1, x => BitVec.ofNat 8 x :: leBytes n (x / 256)

namespace Dec

/-- One bit. -/
def bit (n : Nat) : Bool := n % 2 == 1

/-- Specials (R349). -/
def special : Nat → Option Special
  | 0 => some .laneId | 1 => some .fibreId | 2 => some .slotId | 3 => some .coreId | 4 => some .quadId
  | 5 => some .dieId | 6 => some .partId | 7 => some .clockLo | 8 => some .liveMask | 9 => some .actMask
  | 10 => some .roleId
  | _ => none

/-- A 10-bit operand: class in [9:8], index in [7:0] (R348, R350, R351). -/
def operand (n : Nat) : Option Operand :=
  if n < 256 then some (.v (Fin.ofNat 256 n))
  else if n < 384 then some (.s (Fin.ofNat 128 (n - 256)))
  else if n < 400 then some (.a (Fin.ofNat 16 (n - 384)))
  else if n < 512 then (special (n - 400)).map .sp
  else if n < 516 then some (.l (Fin.ofNat 4 (n - 512)))
  else if n < 520 then none
  else if n < 528 then some (.p (Fin.ofNat 8 (n - 520)))
  else if n < 544 then some (.t (Fin.ofNat 16 (n - 528)))
  else if n < 548 then some (.acc (Fin.ofNat 4 (n - 544)))
  else if n < 560 then none
  else if n < 576 then some (.b (Fin.ofNat 16 (n - 560)))
  else if n < 640 then some (.w (Fin.ofNat 64 (n - 576)))
  else if n < 704 then some (.c (Fin.ofNat 64 (n - 640)))
  else if n < 768 then none
  else some (.imm (BitVec.ofNat 8 (n - 768)))

/-- Permutation codes (R353); 15 is reserved. -/
def perm : Nat → Option Perm
  | 0 => some .none | 1 => some .bfly1 | 2 => some .bfly2 | 3 => some .bfly4 | 4 => some .bfly8
  | 5 => some .rot1 | 6 => some .rot2 | 7 => some .rot4 | 8 => some .rot8 | 9 => some .mir
  | 10 => some .bc0 | 11 => some .bc4 | 12 => some .bc8 | 13 => some .bc15 | 14 => some .rev4
  | _ => none

/-- A source: operand and permutation fields. -/
def src (o p : Nat) : Except DecodeError Src :=
  match operand o, perm p with
  | some x, some q => .ok ⟨x, q⟩
  | none, _ => .error .reservedOperand
  | _, none => .error .reservedPermutation

/-- SETF: 0 none, n + 1 names Fn, 13 to 15 reserved (R343). -/
def setf (n : Nat) : Except DecodeError (Option (Fin 12)) :=
  if n == 0 then .ok none else if n ≤ 12 then .ok (some (Fin.ofNat 12 (n - 1))) else .error .reservedSetf

/-- A small enumeration given as the list of its values in code order. -/
def pick {α : Type} (xs : List α) (n : Nat) : Option α := xs[n]?

/-- The layout has no MOD field left: it must be zero. -/
def nil (n : Nat) : Option Unit := if n == 0 then some () else none

/-- MOD [0] is a flag and the rest is zero (R374, R375, R377, R381, R445, R453). -/
def flag (n : Nat) : Option Bool := if n < 2 then some (n == 1) else none
/-- MOD [1] is HND and the rest is zero (R448). -/
def ncollHnd (n : Nat) : Option Bool := if n == 0 then some false else if n == 2 then some true else none
/-- MOD [3:0] is a mask and the rest is zero (R413, R418). -/
def nib (n : Nat) : Option (BitVec 4) := if n < 16 then some (BitVec.ofNat 4 n) else none

/-- TYPE of layout F (R355). -/
def ftype : Nat → Option FType := pick [.f32, .f64, .f16, .bf16]
/-- TYPE of layout N (R355). -/
def ntype : Nat → Option NType := pick [.i32, .ui32, .i64, .ui64]
/-- Rounding modes (R303). -/
def rm : Nat → Option Rm := pick [.rne, .rtz, .rdn, .rup]
/-- SIZE of layout M (R355). -/
def msize : Nat → Option MSize := pick [.b, .h, .w, .d, .q]
/-- QUAL (R266). -/
def qual : Nat → Option Qual := pick [.none, .acq, .rel]
/-- SCOPE (R260). -/
def scope : Nat → Option Scope := pick [.lane, .core, .quad, .die, .pkg, .pod, .sys]
/-- CC (R373). -/
def cc : Nat → Option Cc := pick [.eq, .ne, .lt, .le, .gt, .ge, .ord, .uno]
/-- COMB (R373). -/
def comb : Nat → Option Comb := pick [.none, .and, .or]
/-- OP of the scans (R379). -/
def scanOp : Nat → Option ScanOp := pick [.add, .min, .max, .and, .or, .xor]
/-- TYPE of LRED (R380). -/
def lredTy : Nat → Option LredTy := pick [.i32, .ui32, .i64, .ui64, .f32]
/-- DTYPE and STYPE of CVT (R389). -/
def cvtTy : Nat → Option CvtTy := pick [.i32, .ui32, .i64, .ui64, .f32, .f64, .f16, .bf16]
/-- TYPE of the accumulator instructions (R408). -/
def accType : Nat → Option AccTy := pick [.f32, .bf16, .f16, .f64, .bf16x2, .f16x2]
/-- OP of the atomics (R406). -/
def atomOp : Nat → Option AtomOp := pick [.add, .sub, .min, .max, .and, .or, .xor, .exch, .cas]
/-- KIND of a fence; 0 is reserved (R268). -/
def fenceKind (n : Nat) : Option FenceKind := if n == 0 then none else pick [.acq, .rel, .full] (n - 1)

/-- Layout F (R355, R382). -/
def modF (n : Nat) : Option ModF :=
  match unpackFields [1, 1, 1, 1, 2, 3] n with
  | [pk, fo, fi, sat, r, t] =>
    match ftype t, rm r with
    | some t, some r => some ⟨t, r, bit sat, bit fi, bit fo, bit pk⟩
    | _, _ => none
  | _ => none

/-- Layout N with [4:0] zero (R355, R370 to R372). -/
def modN (n : Nat) : Option ModN :=
  match unpackFields [5, 1, 3] n with
  | [0, sat, t] => (ntype t).map fun t => ⟨t, bit sat⟩
  | _ => none

/-- Layout M (R355). -/
def modM (n : Nat) : Option ModM :=
  match unpackFields [3, 2, 1, 3] n with
  | [sc, q, sx, z] =>
    match msize z, qual q, scope sc with
    | some z, some q, some sc => some ⟨z, bit sx, q, sc⟩
    | _, _, _ => none
  | _ => none

/-- MOD of ICMP (R373). -/
def modIcmp (n : Nat) : Option ModIcmp :=
  match unpackFields [1, 2, 3, 3] n with
  | [0, k, c, t] =>
    match ntype t, cc c, comb k with
    | some t, some c, some k => some ⟨t, c, k⟩
    | _, _, _ => none
  | _ => none

/-- MOD of FCMP (R373). -/
def modFcmp (n : Nat) : Option ModFcmp :=
  match unpackFields [1, 2, 3, 3] n with
  | [fi, k, c, t] =>
    match ftype t, cc c, comb k with
    | some t, some c, some k => some ⟨t, c, k, bit fi⟩
    | _, _, _ => none
  | _ => none

/-- MOD5 of MOVI (R375). -/
def moviMode (n : Nat) : Option MoviMode :=
  match unpackFields [3, 2] n with
  | [0, m] => pick [.zx, .sx, .hi] m
  | _ => none

/-- Items of RDSP (R376). -/
def rdspItem : Nat → Option RdspItem :=
  pick [.wgidx, .gx, .gy, .gz, .localsz, .vregn, .wregn, .ntiles, .naccs, .nctrs, .runseq, .handle, .cfeat]

/-- MOD of VOTE (R378). -/
def modVote (n : Nat) : Option ModVote :=
  match unpackFields [2, 1, 6] n with
  | [m, d, 0] => (pick [.any, .all, .ballot, .uni] m).map fun m => ⟨m, bit d⟩
  | _ => none

/-- MOD of ISCAN (R379). -/
def modScan (n : Nat) : Option ModScan :=
  match unpackFields [2, 1, 3, 3] n with
  | [0, x, p, t] =>
    match ntype t, scanOp p with
    | some t, some p => some ⟨t, p, bit x⟩
    | _, _ => none
  | _ => none

/-- MOD of LRED (R380). -/
def modLred (n : Nat) : Option ModLred :=
  match unpackFields [2, 1, 3, 3] n with
  | [r, b, p, t] =>
    match lredTy t, scanOp p, rm r with
    | some t, some p, some r => some ⟨t, p, bit b, r⟩
    | _, _, _ => none
  | _ => none

/-- MOD of PSET (R393). -/
def modPset (n : Nat) : Option ModPset :=
  match unpackFields [1, 1, 7] n with
  | [m, d, 0] => some ⟨bit m, bit d⟩
  | _ => none

/-- MOD of PLOG (R393). -/
def plogOp : Nat → Option PlogOp := pick [.and, .or, .xor, .andn, .not, .mov]

/-- MOD of CVT (R389). -/
def modCvt (n : Nat) : Option ModCvt :=
  match unpackFields [1, 2, 3, 3] n with
  | [sat, r, s, d] =>
    match cvtTy d, cvtTy s, rm r with
    | some d, some s, some r => some ⟨d, s, r, bit sat⟩
    | _, _, _ => none
  | _ => none

/-- MOD of QNT and DQNT (R391, R392). -/
def modQnt (n : Nat) : Option ModQnt :=
  match unpackFields [1, 1, 2, 2, 3] n with
  | [b, a, r, t, f] =>
    match ftype t, rm r with
    | some t, some r => some ⟨Fin.ofNat 8 f, t, r, bit a, bit b⟩
    | _, _ => none
  | _ => none

/-- MOD of ATOM (R406). -/
def modAtom (n : Nat) : Option ModAtom :=
  match unpackFields [2, 1, 1, 1, 4] n with
  | [0, nr, s, d, p] => (atomOp p).map fun p => ⟨p, bit d, bit s, bit nr⟩
  | _ => none

/-- MOD of FACC (R408). -/
def modFacc (n : Nat) : Option ModFacc :=
  match unpackFields [5, 1, 3] n with
  | [0, fi, t] => (accType t).map fun t => ⟨t, bit fi⟩
  | _ => none

/-- MOD of FACCRD (R410). -/
def modFaccrd (n : Nat) : Option ModFaccrd :=
  match unpackFields [3, 3, 3] n with
  | [0, e, t] => (accType t).map fun t => ⟨t, Fin.ofNat 8 e⟩
  | _ => none

/-- MOD of FACCCLR (R411). -/
def accTy (n : Nat) : Option AccTy :=
  match unpackFields [6, 3] n with
  | [0, t] => accType t
  | _ => none

/-- MOD of FENCE (R412). -/
def modFence (n : Nat) : Option ModFence :=
  match unpackFields [3, 2, 4] n with
  | [s, k, 0] =>
    match fenceKind k, scope s with
    | some k, some s => some ⟨k, s⟩
    | _, _ => none
  | _ => none

/-- MOD of ACP (R421). -/
def modAcp (n : Nat) : Option ModAcp :=
  match unpackFields [4, 1, 1, 1, 2] n with
  | [i, nb, ls, ld, z] =>
    if nb == 0 && i != 0 then none
    else (pick [.w, .d, .q] z).map fun z => ⟨z, bit ld, bit ls, if nb == 0 then none else some (Fin.ofNat 16 i)⟩
  | _ => none

/-- XMOD of TLD, TLD.SLIDE and TST (R422). -/
def modTld (n : Nat) : Option ModTld :=
  match unpackFields [1, 1, 1] n with
  | [fm, ls, 0] => some ⟨bit fm, bit ls⟩
  | _ => none

/-- MOD of STB (R425). -/
def stbSize (n : Nat) : Option MSize :=
  match unpackFields [6, 3] n with
  | [0, z] => msize z
  | _ => none

/-- XMOD of TCFG (R430). -/
def modTcfg (n : Nat) : Option ModTcfg :=
  match unpackFields [1, 1, 1] n with
  | [t, no, kt] => some ⟨bit t, bit no, bit kt⟩
  | _ => none

/-- XMOD of TMOV (R432). -/
def tmovMode : Nat → Option TmovMode := pick [.tt, .tv, .vt]
/-- XMOD of TXP (R433). -/
def txpEsz : Nat → Option TxpEsz := pick [.n, .b, .h, .w, .d]

/-- XMOD of MMA (R434). -/
def modMma (n : Nat) : Option ModMma :=
  match unpackFields [1, 1, 1] n with
  | [fi, fo, z] => some ⟨bit fi, bit fo, bit z⟩
  | _ => none

/-- XMOD of MACCLD (R437). -/
def modMaccld (n : Nat) : Option ModMaccld :=
  match unpackFields [2, 1] n with
  | [t, ls] => (pick [.f32, .bf16, .f64, .zero] t).map fun t => ⟨t, bit ls⟩
  | _ => none

/-- XMOD of MDRAIN (R438). -/
def mdrainMode : Nat → Option MdrainMode := pick [.f32, .bf16, .q, .f64, .f64q]

/-- MOD of KIND and KMASK (R441). -/
def modKind (n : Nat) : Option ModKind :=
  match unpackFields [5, 1, 3] n with
  | [0, sl, f] => some ⟨Fin.ofNat 8 f, bit sl⟩
  | _ => none

/-- MOD of NPOST (R444). -/
def modNpost (n : Nat) : Option ModNpost :=
  match unpackFields [1, 1, 7] n with
  | [r, h, 0] => some ⟨bit h, bit r⟩
  | _ => none

/-- A destination field. -/
def dst (n : Nat) : Except DecodeError Operand :=
  match operand n with
  | some x => .ok x
  | none => .error .reservedOperand

/-- A MOD field. -/
def mod {α : Type} (f : Nat → Option α) (n : Nat) : Except DecodeError α :=
  match f n with
  | some m => .ok m
  | none => .error .reservedMod

/-- Bits [60:0] of the G-form (R343). -/
def gForm {α : Type} (dm : Nat → Option α) (k : GOps → α → Instr) (b : Nat) : Except DecodeError Instr :=
  match unpackFields [9, 4, 10, 4, 10, 4, 10, 10] b with
  | [m, pc, c, pb, b, pa, a, d] => do
    let d ← dst d
    let a ← src a pa
    let b ← src b pb
    let c ← src c pc
    let m ← mod dm m
    .ok (k ⟨d, a, b, c⟩ m)
  | _ => .error .shortWord

/-- Bits [60:0] of the I-form (R344). -/
def iForm {α : Type} (dm : Nat → Option α) (k : IOps → α → Instr) (b : Nat) : Except DecodeError Instr :=
  match unpackFields [5, 32, 4, 10, 10] b with
  | [m, i, pa, a, d] => do
    let d ← dst d
    let a ← src a pa
    let m ← mod dm m
    .ok (k ⟨d, a, BitVec.ofNat 32 i⟩ m)
  | _ => .error .shortWord

/-- Bits [60:0] of the M-form (R344). -/
def mForm {α : Type} (dm : Nat → Option α) (k : MOps → α → Instr) (b : Nat) : Except DecodeError Instr :=
  match unpackFields [9, 14, 4, 10, 4, 10, 10] b with
  | [m, off, pb, b, pa, a, d] => do
    let d ← dst d
    let a ← src a pa
    let b ← src b pb
    let m ← mod dm m
    .ok (k ⟨d, a, b, BitVec.ofNat 14 off⟩ m)
  | _ => .error .shortWord

/-- Bits [60:0] of the X-form (R344). -/
def xForm {α : Type} (dm : Nat → Option α) (k : XOps → α → Instr) (b : Nat) : Except DecodeError Instr :=
  match unpackFields [3, 3, 3, 4, 10, 4, 10, 4, 10, 10] b with
  | [m, fb, fa, pc, c, pb, b, pa, a, d] => do
    let d ← dst d
    let a ← src a pa
    let b ← src b pb
    let c ← src c pc
    let m ← mod dm m
    .ok (k ⟨d, a, b, c, Fin.ofNat 8 fa, Fin.ofNat 8 fb⟩ m)
  | _ => .error .shortWord

/-- Bits [60:0] of the B-form; every MOD bit must be zero (R344, R395). -/
def bForm (k : BOps → Instr) (b : Nat) : Except DecodeError Instr :=
  match unpackFields [9, 42, 10] b with
  | [0, off, d] => do
    let d ← dst d
    .ok (k ⟨d, BitVec.ofNat 42 off⟩)
  | _ => .error .unusedField

/-- Bits [60:0] of the Y-form; bits [22:0] must be zero (R344). -/
def yForm (k : YOps → Instr) (b : Nat) : Except DecodeError Instr :=
  match unpackFields [23, 14, 4, 10, 10] b with
  | [0, n, pa, a, d] => do
    let d ← dst d
    let a ← src a pa
    .ok (k ⟨d, a, BitVec.ofNat 14 n⟩)
  | _ => .error .unusedField

/-- CVT: the narrow form is the one whose SRCB is a small immediate (R390). -/
def cvtForm (h : Sched) (o : GOps) (m : ModCvt) : Instr :=
  match o.b.op with
  | .imm _ => .cvtNarrow h o m
  | _ => .cvt h o m

/-- Scheduling fields, bits [85:61] (R343, R354). -/
def sched (x : Nat) : Except DecodeError Sched :=
  match unpackFields [1, 4, 3, 12, 1, 3, 1] x with
  | [nwb, sf, dist, wait, pneg, pred, pass] => do
    let sf ← setf sf
    .ok ⟨bit pass, Fin.ofNat 8 pred, bit pneg, BitVec.ofNat 12 wait, Fin.ofNat 8 dist, sf, bit nwb⟩
  | _ => .error .shortWord

end Dec

/-- The opcode map: how each assigned opcode reads bits [60:0] (R363, R364). -/
def decodeBody (opc : Nat) (h : Sched) (b : Nat) : Except DecodeError Instr :=
  match opc with
  | 0x001 => Dec.gForm Dec.modN (.iadd h) b
  | 0x002 => Dec.gForm Dec.modN (.isub h) b
  | 0x003 => Dec.gForm Dec.modN (.imul h) b
  | 0x004 => Dec.gForm Dec.modN (.imulh h) b
  | 0x005 => Dec.gForm Dec.modN (.imad h) b
  | 0x006 => Dec.gForm Dec.modN (.imin h) b
  | 0x007 => Dec.gForm Dec.modN (.imax h) b
  | 0x008 => Dec.gForm Dec.modN (.iabs h) b
  | 0x009 => Dec.gForm Dec.modN (.ineg h) b
  | 0x010 => Dec.gForm Dec.modN (.and h) b
  | 0x011 => Dec.gForm Dec.modN (.or h) b
  | 0x012 => Dec.gForm Dec.modN (.xor h) b
  | 0x013 => Dec.gForm Dec.modN (.andn h) b
  | 0x014 => Dec.gForm Dec.modN (.not h) b
  | 0x015 => Dec.gForm Dec.modN (.shl h) b
  | 0x016 => Dec.gForm Dec.modN (.shr h) b
  | 0x017 => Dec.gForm Dec.modN (.sar h) b
  | 0x018 => Dec.gForm Dec.modN (.rol h) b
  | 0x019 => Dec.gForm Dec.modN (.ror h) b
  | 0x020 => Dec.gForm Dec.modN (.popc h) b
  | 0x021 => Dec.gForm Dec.modN (.clz h) b
  | 0x022 => Dec.gForm Dec.modN (.ctz h) b
  | 0x023 => Dec.gForm Dec.modN (.brev h) b
  | 0x024 => Dec.gForm Dec.modN (.bfx h) b
  | 0x025 => Dec.gForm Dec.modN (.bfi h) b
  | 0x026 => Dec.gForm Dec.modN (.prmb h) b
  | 0x040 => Dec.gForm Dec.modIcmp (.icmp h) b
  | 0x041 => Dec.gForm Dec.modFcmp (.fcmp h) b
  | 0x042 => Dec.gForm Dec.flag (.sel h) b
  | 0x048 => Dec.gForm Dec.flag (.mov h) b
  | 0x049 => Dec.iForm Dec.moviMode (.movi h) b
  | 0x04A => Dec.gForm Dec.rdspItem (.rdsp h) b
  | 0x050 => Dec.gForm Dec.flag (.lperm h) b
  | 0x051 => Dec.gForm Dec.modVote (.vote h) b
  | 0x052 => Dec.gForm Dec.modScan (.iscan h) b
  | 0x053 => Dec.gForm Dec.modLred (.lred h) b
  | 0x058 => Dec.iForm Dec.nil (fun o _ => .aset h o) b
  | 0x059 => Dec.gForm Dec.nil (fun o _ => .aadd h o) b
  | 0x05A => Dec.iForm Dec.nil (fun o _ => .ascl h o) b
  | 0x05B => Dec.gForm Dec.nil (fun o _ => .aoff h o) b
  | 0x05C => Dec.gForm Dec.flag (.aexp h) b
  | 0x060 => Dec.gForm Dec.modPset (.pset h) b
  | 0x061 => Dec.gForm Dec.plogOp (.plog h) b
  | 0x062 => Dec.gForm Dec.nil (fun o _ => .pcnt h o) b
  | 0x080 => Dec.gForm Dec.modF (.fadd h) b
  | 0x081 => Dec.gForm Dec.modF (.fsub h) b
  | 0x082 => Dec.gForm Dec.modF (.fmul h) b
  | 0x083 => Dec.gForm Dec.modF (.ffma h) b
  | 0x084 => Dec.gForm Dec.modF (.fmin h) b
  | 0x085 => Dec.gForm Dec.modF (.fmax h) b
  | 0x086 => Dec.gForm Dec.modF (.fdiv h) b
  | 0x087 => Dec.gForm Dec.modF (.fsqrt h) b
  | 0x090 => Dec.gForm Dec.modF (.frcp h) b
  | 0x091 => Dec.gForm Dec.modF (.frsq h) b
  | 0x092 => Dec.gForm Dec.modF (.fexp2 h) b
  | 0x093 => Dec.gForm Dec.modF (.flog2 h) b
  | 0x094 => Dec.gForm Dec.modF (.fsin h) b
  | 0x095 => Dec.gForm Dec.modF (.fcos h) b
  | 0x096 => Dec.gForm Dec.modF (.ftanh h) b
  | 0x098 => Dec.gForm Dec.modF (.ffrc h) b
  | 0x099 => Dec.gForm Dec.modF (.frnd h) b
  | 0x09A => Dec.gForm Dec.modF (.fclass h) b
  | 0x0A0 => Dec.gForm Dec.modCvt (Dec.cvtForm h) b
  | 0x0A1 => Dec.gForm Dec.modQnt (.qnt h) b
  | 0x0A2 => Dec.gForm Dec.modQnt (.dqnt h) b
  | 0x0C0 => Dec.bForm (.bra h) b
  | 0x0C1 => Dec.gForm Dec.nil (fun o _ => .brx h o) b
  | 0x0C2 => Dec.bForm (.call h) b
  | 0x0C3 => Dec.gForm Dec.nil (fun o _ => .callx h o) b
  | 0x0C4 => Dec.gForm Dec.nil (fun o _ => .ret h o) b
  | 0x0C5 => Dec.gForm Dec.nil (fun o _ => .exit h o) b
  | 0x0C6 => Dec.iForm Dec.nil (fun o _ => .waypt h o) b
  | 0x0C7 => Dec.gForm Dec.nil (fun o _ => .nop h o) b
  | 0x100 => Dec.mForm Dec.modM (.ld h) b
  | 0x101 => Dec.mForm Dec.modM (.st h) b
  | 0x102 => Dec.mForm Dec.modM (.lds h) b
  | 0x103 => Dec.mForm Dec.modM (.ldL h) b
  | 0x104 => Dec.mForm Dec.modM (.stL h) b
  | 0x108 => Dec.mForm Dec.modM (.cpf h) b
  | 0x109 => Dec.mForm Dec.modM (.cwb h) b
  | 0x10A => Dec.mForm Dec.modM (.cinv h) b
  | 0x110 => Dec.mForm Dec.modAtom (.atom h) b
  | 0x111 => Dec.mForm Dec.modAtom (.atomL h) b
  | 0x140 => Dec.mForm Dec.modFacc (.facc h) b
  | 0x141 => Dec.mForm Dec.modFaccrd (.faccrd h) b
  | 0x142 => Dec.mForm Dec.accTy (.faccclr h) b
  | 0x148 => Dec.gForm Dec.modFence (.fence h) b
  | 0x149 => Dec.gForm Dec.nib (.qfence h) b
  | 0x150 => Dec.gForm Dec.nil (fun o _ => .barInit h o) b
  | 0x151 => Dec.gForm Dec.scope (.barArv h) b
  | 0x152 => Dec.gForm Dec.scope (.barWait h) b
  | 0x153 => Dec.gForm Dec.scope (.barSync h) b
  | 0x154 => Dec.gForm Dec.nib (.fbar h) b
  | 0x158 => Dec.gForm Dec.nil (fun o _ => .wput h o) b
  | 0x159 => Dec.gForm Dec.nil (fun o _ => .wtake h o) b
  | 0x15A => Dec.gForm Dec.nil (fun o _ => .wpeek h o) b
  | 0x15B => Dec.gForm Dec.nil (fun o _ => .wclr h o) b
  | 0x160 => Dec.mForm Dec.modAcp (.acp h) b
  | 0x161 => Dec.xForm Dec.modTld (.tld h) b
  | 0x162 => Dec.xForm Dec.modTld (.tldSlide h) b
  | 0x163 => Dec.xForm Dec.modTld (.tst h) b
  | 0x168 => Dec.mForm Dec.stbSize (.stb h) b
  | 0x180 => Dec.xForm Dec.modTcfg (.tcfg h) b
  | 0x181 => Dec.xForm Dec.nil (fun o _ => .tzero h o) b
  | 0x182 => Dec.xForm Dec.tmovMode (.tmov h) b
  | 0x183 => Dec.xForm Dec.txpEsz (.txp h) b
  | 0x188 => Dec.xForm Dec.modMma (.mma h) b
  | 0x189 => Dec.xForm Dec.modMaccld (.maccld h) b
  | 0x18A => Dec.xForm Dec.mdrainMode (.mdrain h) b
  | 0x190 => Dec.gForm Dec.modKind (.kind h) b
  | 0x191 => Dec.gForm Dec.modKind (.kmask h) b
  | 0x1C0 => Dec.mForm Dec.modNpost (.npost h) b
  | 0x1C1 => Dec.gForm Dec.flag (.ntrig h) b
  | 0x1C2 => Dec.gForm Dec.nil (fun o _ => .nwait h o) b
  | 0x1C3 => Dec.gForm Dec.nil (fun o _ => .nrd h o) b
  | 0x1C4 => Dec.mForm Dec.ncollHnd (.ncoll h) b
  | 0x1C5 => Dec.gForm Dec.nil (fun o _ => .ncan h o) b
  | 0x1D0 => Dec.iForm Dec.nil (fun o _ => .trap h o) b
  | 0x1D1 => Dec.gForm Dec.nil (fun o _ => .bkpt h o) b
  | 0x1D2 => Dec.yForm (.rdsys h) b
  | 0x1D3 => Dec.yForm (.wrsys h) b
  | 0x1D4 => Dec.yForm (.rdperf h) b
  | 0x1D5 => Dec.gForm Dec.flag (.clock h) b
  | 0x1D6 => Dec.gForm Dec.nil (fun o _ => .rolesw h o) b
  | 0x1D7 => Dec.gForm Dec.nil (fun o _ => .halt h o) b
  | n => .error (.unassignedOpcode n)

/-- Opcode, scheduling and body of a 96-bit word (R343). -/
def wordOpcode (w : Nat) : Nat := w / 2 ^ 86 % 2 ^ 10

/-- Decode a 96-bit word (R343 to R364); bits above 95 do not belong to it (DESIGN CHOICE, log entry 101). -/
def decodeWord (w : Nat) : Except DecodeError Instr := do
  let h ← Dec.sched (w / 2 ^ 61 % 2 ^ 25)
  let i ← decodeBody (wordOpcode w) h (w % 2 ^ 61)
  if i.wellFormed then .ok i else .error .illegalOperands

/-- Decode the twelve bytes of a slot (R339). -/
def decodeBytes (bs : List Byte) : Except DecodeError Instr :=
  if bs.length < 12 then .error .shortWord else decodeWord (leNat (bs.take 12))

/-- The host's question: the instruction this decoder reads from a word's bits, laid out as the hardware stores them. -/
def decodeTableWord (_nbits w : Nat) : Option Instr :=
  match decodeBytes (leBytes 12 w) with
  | .ok i => some i
  | .error _ => none

/-- Lay fields (width, value) side by side, lowest field first. -/
def packFields : List (Nat × Nat) → Nat
  | [] => 0
  | (w, v) :: r => v % 2 ^ w + 2 ^ w * packFields r

namespace Enc

/-- One bit. -/
def bit (b : Bool) : Nat := if b then 1 else 0

/-- Specials (R349). -/
def special : Special → Nat
  | .laneId => 0 | .fibreId => 1 | .slotId => 2 | .coreId => 3 | .quadId => 4 | .dieId => 5 | .partId => 6
  | .clockLo => 7 | .liveMask => 8 | .actMask => 9 | .roleId => 10

/-- Operand codes (R348, R350, R351). -/
def operand : Operand → Nat
  | .v n => n.val
  | .s n => 256 + n.val
  | .a n => 384 + n.val
  | .sp k => 400 + special k
  | .l n => 512 + n.val
  | .p n => 520 + n.val
  | .t n => 528 + n.val
  | .acc n => 544 + n.val
  | .b n => 560 + n.val
  | .w n => 576 + n.val
  | .c n => 640 + n.val
  | .imm i => 768 + i.toNat

/-- Permutation codes (R353). -/
def perm : Perm → Nat
  | .none => 0 | .bfly1 => 1 | .bfly2 => 2 | .bfly4 => 3 | .bfly8 => 4 | .rot1 => 5 | .rot2 => 6 | .rot4 => 7
  | .rot8 => 8 | .mir => 9 | .bc0 => 10 | .bc4 => 11 | .bc8 => 12 | .bc15 => 13 | .rev4 => 14

/-- SETF (R343). -/
def setf : Option (Fin 12) → Nat
  | none => 0
  | some n => n.val + 1

/-- TYPE of layout F (R355). -/
def ftype : FType → Nat
  | .f32 => 0 | .f64 => 1 | .f16 => 2 | .bf16 => 3
/-- TYPE of layout N (R355). -/
def ntype : NType → Nat
  | .i32 => 0 | .ui32 => 1 | .i64 => 2 | .ui64 => 3
/-- Rounding modes (R303). -/
def rm : Rm → Nat
  | .rne => 0 | .rtz => 1 | .rdn => 2 | .rup => 3
/-- SIZE of layout M (R355). -/
def msize : MSize → Nat
  | .b => 0 | .h => 1 | .w => 2 | .d => 3 | .q => 4
/-- QUAL (R266). -/
def qual : Qual → Nat
  | .none => 0 | .acq => 1 | .rel => 2
/-- SCOPE (R260). -/
def scope : Scope → Nat
  | .lane => 0 | .core => 1 | .quad => 2 | .die => 3 | .pkg => 4 | .pod => 5 | .sys => 6
/-- CC (R373). -/
def cc : Cc → Nat
  | .eq => 0 | .ne => 1 | .lt => 2 | .le => 3 | .gt => 4 | .ge => 5 | .ord => 6 | .uno => 7
/-- COMB (R373). -/
def comb : Comb → Nat
  | .none => 0 | .and => 1 | .or => 2
/-- OP of the scans (R379). -/
def scanOp : ScanOp → Nat
  | .add => 0 | .min => 1 | .max => 2 | .and => 3 | .or => 4 | .xor => 5
/-- TYPE of LRED (R380). -/
def lredTy : LredTy → Nat
  | .i32 => 0 | .ui32 => 1 | .i64 => 2 | .ui64 => 3 | .f32 => 4
/-- Types of CVT (R389). -/
def cvtTy : CvtTy → Nat
  | .i32 => 0 | .ui32 => 1 | .i64 => 2 | .ui64 => 3 | .f32 => 4 | .f64 => 5 | .f16 => 6 | .bf16 => 7
/-- TYPE of the accumulator instructions (R408). -/
def accType : AccTy → Nat
  | .f32 => 0 | .bf16 => 1 | .f16 => 2 | .f64 => 3 | .bf16x2 => 4 | .f16x2 => 5
/-- OP of the atomics (R406). -/
def atomOp : AtomOp → Nat
  | .add => 0 | .sub => 1 | .min => 2 | .max => 3 | .and => 4 | .or => 5 | .xor => 6 | .exch => 7 | .cas => 8
/-- KIND of a fence (R268). -/
def fenceKind : FenceKind → Nat
  | .acq => 1 | .rel => 2 | .full => 3

/-- A flag in MOD [0]. -/
def flag (b : Bool) : Nat := bit b
/-- HND in MOD [1] (R448). -/
def ncollHnd (b : Bool) : Nat := 2 * bit b
/-- A mask in MOD [3:0] (R413, R418). -/
def nib (m : BitVec 4) : Nat := m.toNat
/-- Layout F (R355). -/
def modF (m : ModF) : Nat :=
  packFields [(1, bit m.pk), (1, bit m.ftzo), (1, bit m.ftzi), (1, bit m.sat), (2, rm m.rm), (3, ftype m.ty)]
/-- Layout N (R355). -/
def modN (m : ModN) : Nat := packFields [(5, 0), (1, bit m.sat), (3, ntype m.ty)]
/-- Layout M (R355). -/
def modM (m : ModM) : Nat := packFields [(3, scope m.scope), (2, qual m.qual), (1, bit m.sx), (3, msize m.size)]
/-- MOD of ICMP (R373). -/
def modIcmp (m : ModIcmp) : Nat := packFields [(1, 0), (2, comb m.comb), (3, cc m.cc), (3, ntype m.ty)]
/-- MOD of FCMP (R373). -/
def modFcmp (m : ModFcmp) : Nat := packFields [(1, bit m.ftzi), (2, comb m.comb), (3, cc m.cc), (3, ftype m.ty)]
/-- MOD5 of MOVI (R375). -/
def moviMode : MoviMode → Nat
  | .zx => 0 | .sx => 8 | .hi => 16
/-- Items of RDSP (R376). -/
def rdspItem : RdspItem → Nat
  | .wgidx => 0 | .gx => 1 | .gy => 2 | .gz => 3 | .localsz => 4 | .vregn => 5 | .wregn => 6 | .ntiles => 7
  | .naccs => 8 | .nctrs => 9 | .runseq => 10 | .handle => 11 | .cfeat => 12
/-- Modes of VOTE (R378). -/
def voteMode : VoteMode → Nat
  | .any => 0 | .all => 1 | .ballot => 2 | .uni => 3
/-- MOD of VOTE (R378). -/
def modVote (m : ModVote) : Nat := packFields [(2, voteMode m.mode), (1, bit m.d), (6, 0)]
/-- MOD of ISCAN (R379). -/
def modScan (m : ModScan) : Nat := packFields [(2, 0), (1, bit m.excl), (3, scanOp m.op), (3, ntype m.ty)]
/-- MOD of LRED (R380). -/
def modLred (m : ModLred) : Nat := packFields [(2, rm m.rm), (1, bit m.bc), (3, scanOp m.op), (3, lredTy m.ty)]
/-- MOD of PSET (R393). -/
def modPset (m : ModPset) : Nat := packFields [(1, bit m.mask), (1, bit m.d), (7, 0)]
/-- MOD of PLOG (R393). -/
def plogOp : PlogOp → Nat
  | .and => 0 | .or => 1 | .xor => 2 | .andn => 3 | .not => 4 | .mov => 5
/-- MOD of CVT (R389). -/
def modCvt (m : ModCvt) : Nat := packFields [(1, bit m.sat), (2, rm m.rm), (3, cvtTy m.sty), (3, cvtTy m.dty)]
/-- MOD of QNT and DQNT (R391, R392). -/
def modQnt (m : ModQnt) : Nat :=
  packFields [(1, bit m.fb), (1, bit m.fa), (2, rm m.rm), (2, ftype m.ty), (3, m.fs.val)]
/-- MOD of ATOM (R406). -/
def modAtom (m : ModAtom) : Nat :=
  packFields [(2, 0), (1, bit m.nr), (1, bit m.s), (1, bit m.d), (4, atomOp m.op)]
/-- MOD of FACC (R408). -/
def modFacc (m : ModFacc) : Nat := packFields [(5, 0), (1, bit m.ftzi), (3, accType m.ty)]
/-- MOD of FACCRD (R410). -/
def modFaccrd (m : ModFaccrd) : Nat := packFields [(3, 0), (3, m.ent.val), (3, accType m.ty)]
/-- MOD of FACCCLR (R411). -/
def accTy (t : AccTy) : Nat := packFields [(6, 0), (3, accType t)]
/-- MOD of FENCE (R412). -/
def modFence (m : ModFence) : Nat := packFields [(3, scope m.scope), (2, fenceKind m.kind), (4, 0)]
/-- SZ of ACP (R421). -/
def acpSize : AcpSize → Nat
  | .w => 0 | .d => 1 | .q => 2
/-- MOD of ACP (R421). -/
def modAcp (m : ModAcp) : Nat :=
  packFields [(4, match m.bar with | none => 0 | some i => i.val), (1, bit m.bar.isSome), (1, bit m.ls), (1, bit m.ld),
    (2, acpSize m.sz)]
/-- XMOD of TLD, TLD.SLIDE and TST (R422). -/
def modTld (m : ModTld) : Nat := packFields [(1, bit m.fm), (1, bit m.ls), (1, 0)]
/-- MOD of STB (R425). -/
def stbSize (z : MSize) : Nat := packFields [(6, 0), (3, msize z)]
/-- XMOD of TCFG (R430). -/
def modTcfg (m : ModTcfg) : Nat := packFields [(1, bit m.t), (1, bit m.noorg), (1, bit m.kt)]
/-- XMOD of TMOV (R432). -/
def tmovMode : TmovMode → Nat
  | .tt => 0 | .tv => 1 | .vt => 2
/-- XMOD of TXP (R433). -/
def txpEsz : TxpEsz → Nat
  | .n => 0 | .b => 1 | .h => 2 | .w => 3 | .d => 4
/-- XMOD of MMA (R434). -/
def modMma (m : ModMma) : Nat := packFields [(1, bit m.ftzi), (1, bit m.ftzo), (1, bit m.z)]
/-- Types of MACCLD (R437). -/
def maccldTy : MaccldTy → Nat
  | .f32 => 0 | .bf16 => 1 | .f64 => 2 | .zero => 3
/-- XMOD of MACCLD (R437). -/
def modMaccld (m : ModMaccld) : Nat := packFields [(2, maccldTy m.ty), (1, bit m.ls)]
/-- XMOD of MDRAIN (R438). -/
def mdrainMode : MdrainMode → Nat
  | .f32 => 0 | .bf16 => 1 | .q => 2 | .f64 => 3 | .f64q => 4
/-- MOD of KIND and KMASK (R441). -/
def modKind (m : ModKind) : Nat := packFields [(5, 0), (1, bit m.sl), (3, m.fs.val)]
/-- MOD of NPOST (R444). -/
def modNpost (m : ModNpost) : Nat := packFields [(1, bit m.reg), (1, bit m.hnd), (7, 0)]

/-- Bits [60:0] of the G-form. -/
def gBody (o : GOps) (m : Nat) : Nat :=
  packFields [(9, m), (4, perm o.c.perm), (10, operand o.c.op), (4, perm o.b.perm), (10, operand o.b.op),
    (4, perm o.a.perm), (10, operand o.a.op), (10, operand o.d)]
/-- Bits [60:0] of the I-form. -/
def iBody (o : IOps) (m : Nat) : Nat :=
  packFields [(5, m), (32, o.imm.toNat), (4, perm o.a.perm), (10, operand o.a.op), (10, operand o.d)]
/-- Bits [60:0] of the M-form. -/
def mBody (o : MOps) (m : Nat) : Nat :=
  packFields [(9, m), (14, o.off.toNat), (4, perm o.b.perm), (10, operand o.b.op), (4, perm o.a.perm),
    (10, operand o.a.op), (10, operand o.d)]
/-- Bits [60:0] of the X-form. -/
def xBody (o : XOps) (m : Nat) : Nat :=
  packFields [(3, m), (3, o.fsb.val), (3, o.fsa.val), (4, perm o.c.perm), (10, operand o.c.op), (4, perm o.b.perm),
    (10, operand o.b.op), (4, perm o.a.perm), (10, operand o.a.op), (10, operand o.d)]
/-- Bits [60:0] of the B-form. -/
def bBody (o : BOps) : Nat := packFields [(9, 0), (42, o.off.toNat), (10, operand o.d)]
/-- Bits [60:0] of the Y-form. -/
def yBody (o : YOps) : Nat :=
  packFields [(23, 0), (14, o.sysn.toNat), (4, perm o.a.perm), (10, operand o.a.op), (10, operand o.d)]

/-- Scheduling fields, bits [85:61]. -/
def sched (h : Sched) : Nat :=
  packFields [(1, bit h.nwb), (4, setf h.setf), (3, h.dist.val), (12, h.wait.toNat), (1, bit h.pneg), (3, h.pred.val),
    (1, bit h.pass)]

/-- A whole 96-bit word. -/
def word (opc : Nat) (h : Sched) (body : Nat) : Nat := packFields [(61, body), (25, sched h), (10, opc)]

end Enc

/-- The word of an Aelax instruction (R343, R344, R363); a hardware event has none (DESIGN CHOICE, log entry 101). -/
def encode : Instr → Option Nat
  | .iadd h o m => some (Enc.word 0x001 h (Enc.gBody o (Enc.modN m)))
  | .isub h o m => some (Enc.word 0x002 h (Enc.gBody o (Enc.modN m)))
  | .imul h o m => some (Enc.word 0x003 h (Enc.gBody o (Enc.modN m)))
  | .imulh h o m => some (Enc.word 0x004 h (Enc.gBody o (Enc.modN m)))
  | .imad h o m => some (Enc.word 0x005 h (Enc.gBody o (Enc.modN m)))
  | .imin h o m => some (Enc.word 0x006 h (Enc.gBody o (Enc.modN m)))
  | .imax h o m => some (Enc.word 0x007 h (Enc.gBody o (Enc.modN m)))
  | .iabs h o m => some (Enc.word 0x008 h (Enc.gBody o (Enc.modN m)))
  | .ineg h o m => some (Enc.word 0x009 h (Enc.gBody o (Enc.modN m)))
  | .and h o m => some (Enc.word 0x010 h (Enc.gBody o (Enc.modN m)))
  | .or h o m => some (Enc.word 0x011 h (Enc.gBody o (Enc.modN m)))
  | .xor h o m => some (Enc.word 0x012 h (Enc.gBody o (Enc.modN m)))
  | .andn h o m => some (Enc.word 0x013 h (Enc.gBody o (Enc.modN m)))
  | .not h o m => some (Enc.word 0x014 h (Enc.gBody o (Enc.modN m)))
  | .shl h o m => some (Enc.word 0x015 h (Enc.gBody o (Enc.modN m)))
  | .shr h o m => some (Enc.word 0x016 h (Enc.gBody o (Enc.modN m)))
  | .sar h o m => some (Enc.word 0x017 h (Enc.gBody o (Enc.modN m)))
  | .rol h o m => some (Enc.word 0x018 h (Enc.gBody o (Enc.modN m)))
  | .ror h o m => some (Enc.word 0x019 h (Enc.gBody o (Enc.modN m)))
  | .popc h o m => some (Enc.word 0x020 h (Enc.gBody o (Enc.modN m)))
  | .clz h o m => some (Enc.word 0x021 h (Enc.gBody o (Enc.modN m)))
  | .ctz h o m => some (Enc.word 0x022 h (Enc.gBody o (Enc.modN m)))
  | .brev h o m => some (Enc.word 0x023 h (Enc.gBody o (Enc.modN m)))
  | .bfx h o m => some (Enc.word 0x024 h (Enc.gBody o (Enc.modN m)))
  | .bfi h o m => some (Enc.word 0x025 h (Enc.gBody o (Enc.modN m)))
  | .prmb h o m => some (Enc.word 0x026 h (Enc.gBody o (Enc.modN m)))
  | .icmp h o m => some (Enc.word 0x040 h (Enc.gBody o (Enc.modIcmp m)))
  | .fcmp h o m => some (Enc.word 0x041 h (Enc.gBody o (Enc.modFcmp m)))
  | .sel h o m => some (Enc.word 0x042 h (Enc.gBody o (Enc.flag m)))
  | .mov h o m => some (Enc.word 0x048 h (Enc.gBody o (Enc.flag m)))
  | .movi h o m => some (Enc.word 0x049 h (Enc.iBody o (Enc.moviMode m)))
  | .rdsp h o m => some (Enc.word 0x04A h (Enc.gBody o (Enc.rdspItem m)))
  | .lperm h o m => some (Enc.word 0x050 h (Enc.gBody o (Enc.flag m)))
  | .vote h o m => some (Enc.word 0x051 h (Enc.gBody o (Enc.modVote m)))
  | .iscan h o m => some (Enc.word 0x052 h (Enc.gBody o (Enc.modScan m)))
  | .lred h o m => some (Enc.word 0x053 h (Enc.gBody o (Enc.modLred m)))
  | .aset h o => some (Enc.word 0x058 h (Enc.iBody o 0))
  | .aadd h o => some (Enc.word 0x059 h (Enc.gBody o 0))
  | .ascl h o => some (Enc.word 0x05A h (Enc.iBody o 0))
  | .aoff h o => some (Enc.word 0x05B h (Enc.gBody o 0))
  | .aexp h o m => some (Enc.word 0x05C h (Enc.gBody o (Enc.flag m)))
  | .pset h o m => some (Enc.word 0x060 h (Enc.gBody o (Enc.modPset m)))
  | .plog h o m => some (Enc.word 0x061 h (Enc.gBody o (Enc.plogOp m)))
  | .pcnt h o => some (Enc.word 0x062 h (Enc.gBody o 0))
  | .fadd h o m => some (Enc.word 0x080 h (Enc.gBody o (Enc.modF m)))
  | .fsub h o m => some (Enc.word 0x081 h (Enc.gBody o (Enc.modF m)))
  | .fmul h o m => some (Enc.word 0x082 h (Enc.gBody o (Enc.modF m)))
  | .ffma h o m => some (Enc.word 0x083 h (Enc.gBody o (Enc.modF m)))
  | .fmin h o m => some (Enc.word 0x084 h (Enc.gBody o (Enc.modF m)))
  | .fmax h o m => some (Enc.word 0x085 h (Enc.gBody o (Enc.modF m)))
  | .fdiv h o m => some (Enc.word 0x086 h (Enc.gBody o (Enc.modF m)))
  | .fsqrt h o m => some (Enc.word 0x087 h (Enc.gBody o (Enc.modF m)))
  | .frcp h o m => some (Enc.word 0x090 h (Enc.gBody o (Enc.modF m)))
  | .frsq h o m => some (Enc.word 0x091 h (Enc.gBody o (Enc.modF m)))
  | .fexp2 h o m => some (Enc.word 0x092 h (Enc.gBody o (Enc.modF m)))
  | .flog2 h o m => some (Enc.word 0x093 h (Enc.gBody o (Enc.modF m)))
  | .fsin h o m => some (Enc.word 0x094 h (Enc.gBody o (Enc.modF m)))
  | .fcos h o m => some (Enc.word 0x095 h (Enc.gBody o (Enc.modF m)))
  | .ftanh h o m => some (Enc.word 0x096 h (Enc.gBody o (Enc.modF m)))
  | .ffrc h o m => some (Enc.word 0x098 h (Enc.gBody o (Enc.modF m)))
  | .frnd h o m => some (Enc.word 0x099 h (Enc.gBody o (Enc.modF m)))
  | .fclass h o m => some (Enc.word 0x09A h (Enc.gBody o (Enc.modF m)))
  | .cvt h o m => some (Enc.word 0x0A0 h (Enc.gBody o (Enc.modCvt m)))
  | .cvtNarrow h o m => some (Enc.word 0x0A0 h (Enc.gBody o (Enc.modCvt m)))
  | .qnt h o m => some (Enc.word 0x0A1 h (Enc.gBody o (Enc.modQnt m)))
  | .dqnt h o m => some (Enc.word 0x0A2 h (Enc.gBody o (Enc.modQnt m)))
  | .bra h o => some (Enc.word 0x0C0 h (Enc.bBody o))
  | .brx h o => some (Enc.word 0x0C1 h (Enc.gBody o 0))
  | .call h o => some (Enc.word 0x0C2 h (Enc.bBody o))
  | .callx h o => some (Enc.word 0x0C3 h (Enc.gBody o 0))
  | .ret h o => some (Enc.word 0x0C4 h (Enc.gBody o 0))
  | .exit h o => some (Enc.word 0x0C5 h (Enc.gBody o 0))
  | .waypt h o => some (Enc.word 0x0C6 h (Enc.iBody o 0))
  | .nop h o => some (Enc.word 0x0C7 h (Enc.gBody o 0))
  | .ld h o m => some (Enc.word 0x100 h (Enc.mBody o (Enc.modM m)))
  | .st h o m => some (Enc.word 0x101 h (Enc.mBody o (Enc.modM m)))
  | .lds h o m => some (Enc.word 0x102 h (Enc.mBody o (Enc.modM m)))
  | .ldL h o m => some (Enc.word 0x103 h (Enc.mBody o (Enc.modM m)))
  | .stL h o m => some (Enc.word 0x104 h (Enc.mBody o (Enc.modM m)))
  | .cpf h o m => some (Enc.word 0x108 h (Enc.mBody o (Enc.modM m)))
  | .cwb h o m => some (Enc.word 0x109 h (Enc.mBody o (Enc.modM m)))
  | .cinv h o m => some (Enc.word 0x10A h (Enc.mBody o (Enc.modM m)))
  | .atom h o m => some (Enc.word 0x110 h (Enc.mBody o (Enc.modAtom m)))
  | .atomL h o m => some (Enc.word 0x111 h (Enc.mBody o (Enc.modAtom m)))
  | .facc h o m => some (Enc.word 0x140 h (Enc.mBody o (Enc.modFacc m)))
  | .faccrd h o m => some (Enc.word 0x141 h (Enc.mBody o (Enc.modFaccrd m)))
  | .faccclr h o m => some (Enc.word 0x142 h (Enc.mBody o (Enc.accTy m)))
  | .fence h o m => some (Enc.word 0x148 h (Enc.gBody o (Enc.modFence m)))
  | .qfence h o m => some (Enc.word 0x149 h (Enc.gBody o (Enc.nib m)))
  | .barInit h o => some (Enc.word 0x150 h (Enc.gBody o 0))
  | .barArv h o m => some (Enc.word 0x151 h (Enc.gBody o (Enc.scope m)))
  | .barWait h o m => some (Enc.word 0x152 h (Enc.gBody o (Enc.scope m)))
  | .barSync h o m => some (Enc.word 0x153 h (Enc.gBody o (Enc.scope m)))
  | .fbar h o m => some (Enc.word 0x154 h (Enc.gBody o (Enc.nib m)))
  | .wput h o => some (Enc.word 0x158 h (Enc.gBody o 0))
  | .wtake h o => some (Enc.word 0x159 h (Enc.gBody o 0))
  | .wpeek h o => some (Enc.word 0x15A h (Enc.gBody o 0))
  | .wclr h o => some (Enc.word 0x15B h (Enc.gBody o 0))
  | .acp h o m => some (Enc.word 0x160 h (Enc.mBody o (Enc.modAcp m)))
  | .tld h o m => some (Enc.word 0x161 h (Enc.xBody o (Enc.modTld m)))
  | .tldSlide h o m => some (Enc.word 0x162 h (Enc.xBody o (Enc.modTld m)))
  | .tst h o m => some (Enc.word 0x163 h (Enc.xBody o (Enc.modTld m)))
  | .stb h o m => some (Enc.word 0x168 h (Enc.mBody o (Enc.stbSize m)))
  | .tcfg h o m => some (Enc.word 0x180 h (Enc.xBody o (Enc.modTcfg m)))
  | .tzero h o => some (Enc.word 0x181 h (Enc.xBody o 0))
  | .tmov h o m => some (Enc.word 0x182 h (Enc.xBody o (Enc.tmovMode m)))
  | .txp h o m => some (Enc.word 0x183 h (Enc.xBody o (Enc.txpEsz m)))
  | .mma h o m => some (Enc.word 0x188 h (Enc.xBody o (Enc.modMma m)))
  | .maccld h o m => some (Enc.word 0x189 h (Enc.xBody o (Enc.modMaccld m)))
  | .mdrain h o m => some (Enc.word 0x18A h (Enc.xBody o (Enc.mdrainMode m)))
  | .kind h o m => some (Enc.word 0x190 h (Enc.gBody o (Enc.modKind m)))
  | .kmask h o m => some (Enc.word 0x191 h (Enc.gBody o (Enc.modKind m)))
  | .npost h o m => some (Enc.word 0x1C0 h (Enc.mBody o (Enc.modNpost m)))
  | .ntrig h o m => some (Enc.word 0x1C1 h (Enc.gBody o (Enc.flag m)))
  | .nwait h o => some (Enc.word 0x1C2 h (Enc.gBody o 0))
  | .nrd h o => some (Enc.word 0x1C3 h (Enc.gBody o 0))
  | .ncoll h o m => some (Enc.word 0x1C4 h (Enc.mBody o (Enc.ncollHnd m)))
  | .ncan h o => some (Enc.word 0x1C5 h (Enc.gBody o 0))
  | .trap h o => some (Enc.word 0x1D0 h (Enc.iBody o 0))
  | .bkpt h o => some (Enc.word 0x1D1 h (Enc.gBody o 0))
  | .rdsys h o => some (Enc.word 0x1D2 h (Enc.yBody o))
  | .wrsys h o => some (Enc.word 0x1D3 h (Enc.yBody o))
  | .rdperf h o => some (Enc.word 0x1D4 h (Enc.yBody o))
  | .clock h o m => some (Enc.word 0x1D5 h (Enc.gBody o (Enc.flag m)))
  | .rolesw h o => some (Enc.word 0x1D6 h (Enc.gBody o 0))
  | .halt h o => some (Enc.word 0x1D7 h (Enc.gBody o 0))
  | _ => none

end Sys2Proof
end

