-- ==== Sys2Proof/Machine/Bits.lean ====
section
/-! DEFINITION. Bit-field, sign-extension, lane and check-value helpers shared by all meanings (R7, R13, R34, R342, R353). -/

namespace Sys2Proof.Machine

/-- Bits [lo + n - 1 : lo] of a number. -/
def field (x lo n : Nat) : Nat := x / 2 ^ lo % 2 ^ n

/-- One bit of a number. -/
def bitAt (x i : Nat) : Bool := x / 2 ^ i % 2 == 1

/-- sext(x, n) as an integer (R13). -/
def sextInt (n x : Nat) : Int :=
  let x := x % 2 ^ n
  if x < 2 ^ (n - 1) then x else (x : Int) - 2 ^ n

/-- An integer modulo 2^n (R13). -/
def wrap (n : Nat) (x : Int) : Nat := (x % 2 ^ n).toNat

/-- The lanes of a mask in ascending order. -/
def lanesOf (m : Lanes) : List Nat := allLanes.filter (laneIn m)

/-- The lowest lane of a mask, or 255 when it has none (R327). -/
def lowestLane (m : Lanes) : Nat := (lanesOf m).headD 255

/-- A lane mask from a list of lanes. -/
def maskOf (ls : List Nat) : Lanes := ls.foldl (fun m l => m ||| (1#16 <<< l)) 0

/-- The lane that lane `l` reads under a permutation (R353). -/
def permLane (p : Perm) (l : Nat) : Nat :=
  match p with
  | .none => l
  | .bfly1 => l ^^^ 1
  | .bfly2 => l ^^^ 2
  | .bfly4 => l ^^^ 4
  | .bfly8 => l ^^^ 8
  | .rot1 => (l + 1) % 16
  | .rot2 => (l + 2) % 16
  | .rot4 => (l + 4) % 16
  | .rot8 => (l + 8) % 16
  | .mir => 15 - l
  | .bc0 => 0
  | .bc4 => 4
  | .bc8 => 8
  | .bc15 => 15
  | .rev4 => 4 * (l / 4) + 3 - l % 4

/-- The permutations under which some lane reads across the halves (R353). -/
def permCrosses (p : Perm) : Bool :=
  match p with
  | .bfly8 | .rot1 | .rot2 | .rot4 | .rot8 | .mir | .bc0 | .bc4 | .bc8 | .bc15 => true
  | .none | .bfly1 | .bfly2 | .bfly4 | .rev4 => false

/-- One CRC step per bit of a byte, most significant first (R34). -/
def crcBits (crc : Nat) : Nat → Nat
  | 0 => crc
  | n + 1 =>
    let c := crc * 2
    crcBits (if c < 65536 then c else (c - 65536) ^^^ 0x1021) n

/-- The CRC of R34 over bytes in ascending order. -/
def crc16 (bs : List Byte) : Nat := bs.foldl (fun c b => crcBits (c ^^^ (b.toNat * 256)) 8) 0xFFFF

/-- The exclusive OR of the low n bits (R342). -/
def parity (x : Nat) : Nat → Bool
  | 0 => false
  | n + 1 => (x % 2 == 1) != parity (x / 2) n

/-- The number of set bits among the low n (R372). -/
def popCount (x : Nat) : Nat → Nat
  | 0 => 0
  | n + 1 => x % 2 + popCount (x / 2) n

/-- The low n bits in reverse order (R372). -/
def revBits (x : Nat) : Nat → Nat
  | 0 => 0
  | n + 1 => x % 2 * 2 ^ n + revBits (x / 2) n

/-- Trailing zeros among the low n bits; n when all are zero (R372). -/
def trailingZeros (x : Nat) : Nat → Nat
  | 0 => 0
  | n + 1 => if x % 2 == 1 then 0 else 1 + trailingZeros (x / 2) n

/-- Leading zeros at width n (R372). -/
def leadingZeros (n x : Nat) : Nat := if x == 0 then n else n - 1 - Nat.log2 x

/-- The bytes [lo, lo + n) of a list, with zeros beyond its end. -/
def byteSlice (bs : List Byte) (lo n : Nat) : List Byte := ((bs.drop lo).take n) ++ List.replicate (n - (bs.length - lo)) 0

/-- A little-endian field of a record. -/
def leAt (bs : List Byte) (lo n : Nat) : Nat := leNat ((bs.drop lo).take n)

/-- The next word of an address in PC form: the next slot, or slot 0 of the next line after slot 4 (R339, R394). -/
def nextPc (pc : Nat) : Nat := if pc % 8 < 4 then pc + 1 else pc - pc % 8 + 64

/-- The fetch line of an address in PC form (R394). -/
def pcLine (pc : Nat) : Nat := pc / 64 * 64

/-- A B-form target from the branch's own address (R346). -/
def branchTarget (pc : Nat) (off : BitVec 42) : Int :=
  let o := off.toInt
  (pcLine pc : Int) + 64 * (o / 8) + o % 8

end Sys2Proof.Machine
end

