-- ==== Sys2Proof/Config.lean ====
section
/-! DEFINITION. What the implementation fixes, and the free values: constants without a body, so that no proof can see a
value that the manual leaves open. -/

namespace Sys2Proof

/-- The approximation instructions (R386). -/
inductive ApproxFn where
  | rcp | rsq | exp2 | log2 | sin | cos | tanh
  deriving DecidableEq, Repr

/-- A fresh value for each draw and part of it (DESIGN CHOICE, log entry 8): timing-dependent reads (R210, R211), mixed old and new bytes
(R429). -/
opaque Config.freeValue : Nat → Nat → BitVec 64

/-- The fixed function of R386, as an F32 or F64 code for each input code; kept within the bounds where it is used (DESIGN CHOICE,
log entry 7). -/
opaque Config.approxCode : ApproxFn → Bool → Nat → Nat

/-- The parts of a firmware image, whose layout the manual does not give (R103, R104; DESIGN CHOICE, log entry 13): root public key,
signature, signed body and security version. -/
opaque Config.imageParts : List Byte → List Byte × List Byte × List Byte × Nat

/-- The digest of Ferique's firmware root public key, held in fuses (R103; DESIGN CHOICE, log entry 14). -/
opaque Config.rootKeyDigest : BitVec 256

/-- Signatures of attestations (R103, R105): what the key store makes of a number that it never uses twice and a message, with keys
that never leave it (DESIGN CHOICE, log entry 13). -/
opaque Config.signature : Nat → List Byte → List Byte

/-- The identity public key (R106; DESIGN CHOICE, log entry 14). -/
opaque Config.identityKey : List Byte

/-- Ferique's certificate over the identity public key (R106; DESIGN CHOICE, log entry 14). -/
opaque Config.identityCertificate : List Byte

/-- Ferique's intermediate public key (R106; DESIGN CHOICE, log entry 14). -/
opaque Config.intermediateKey : List Byte

/-- The signature of the intermediate key (R106; DESIGN CHOICE, log entry 14). -/
opaque Config.intermediateSignature : List Byte

/-- The tag of an authenticated response and of a flit (R51, R88; DESIGN CHOICE, log entry 13). -/
opaque Config.authTag : BitVec 256 → List Byte → List Byte

/-- The module's 64-bit identity and serial number, set at manufacture (R50, R105; DESIGN CHOICE, log entry 14). -/
opaque Config.moduleIdentity : BitVec 64

/-- The base MAC address of the Ethernet port (R78; DESIGN CHOICE, log entry 14). -/
opaque Config.baseMac : BitVec 48

/-- The physical die that carries a Yilbel port (R253; DESIGN CHOICE, log entry 91). -/
opaque Config.portDie : Nat → Nat

/-- This module's number in the pod and in the route tables (R61, R94, R231): set outside the module (DEDUCED, log entry 21). -/
opaque Config.moduleNumber : Nat

/-- The contents of a section of a read-out image whose layout the manual does not give: a function of the section's kind and of
the state that it shows (R338; DESIGN CHOICE, log entry 23). -/
opaque Config.dumpSection : Nat → List Nat → List Byte

end Sys2Proof
end

