-- ==== Sys2Proof/Machine/Float.lean ====
section
/-! DEFINITION. Exact values, rounding, saturation and flushing (R297, R298, R303 to R306) and the floating-point functions of
the arithmetic instructions (R373, R380, R383 to R389). -/

namespace Sys2Proof.Machine

/-- A NaN, an infinity, or the exact number (-1)^neg * m * 2^e; m = 0 is a signed zero. -/
inductive FVal where
  | nan
  | inf (neg : Bool)
  | fin (neg : Bool) (m : Nat) (e : Int)
  deriving DecidableEq, Repr

/-- Bits of FPSTAT to set (R306). -/
abbrev FpFlags := BitVec 32
/-- A NaN was made from non-NaN operands. -/
def fpNV : FpFlags := 1
/-- A finite non-zero value was divided by zero. -/
def fpDZ : FpFlags := 2
/-- A result was flushed by FTZO. -/
def fpUF : FpFlags := 4
/-- A result overflowed. -/
def fpOF : FpFlags := 8
/-- A NaN was quantised to a format without NaN. -/
def fpNANQ : FpFlags := 16
/-- A reserved TERN code was read without STRICT. -/
def fpFCODE : FpFlags := 32

/-- The element formats (R297, R298); `int8x` is INT8 under a block scale, whose step is 2^-6 (R301). -/
inductive Fmt where
  | bf16 | fp16 | fp32 | fp64 | e4m3 | e5m2 | e3m2 | e2m3 | e2m1 | int8 | int8x | int4 | tern
  deriving DecidableEq, Repr

namespace Fmt

/-- Exponent bits; 0 for the integer formats. -/
def eb : Fmt → Nat
  | .bf16 => 8 | .fp16 => 5 | .fp32 => 8 | .fp64 => 11 | .e4m3 => 4 | .e5m2 => 5 | .e3m2 => 3 | .e2m3 => 2 | .e2m1 => 2
  | .int8 | .int8x | .int4 | .tern => 0
/-- Mantissa bits. -/
def mb : Fmt → Nat
  | .bf16 => 7 | .fp16 => 10 | .fp32 => 23 | .fp64 => 52 | .e4m3 => 3 | .e5m2 => 2 | .e3m2 => 2 | .e2m3 => 3 | .e2m1 => 1
  | .int8 | .int8x | .int4 | .tern => 0
/-- Exponent bias. -/
def bias : Fmt → Int
  | .bf16 => 127 | .fp16 => 15 | .fp32 => 127 | .fp64 => 1023 | .e4m3 => 7 | .e5m2 => 15 | .e3m2 => 3 | .e2m3 => 1
  | .e2m1 => 1 | .int8 | .int8x | .int4 | .tern => 0
/-- Bits of a code. -/
def width : Fmt → Nat
  | .bf16 | .fp16 => 16 | .fp32 => 32 | .fp64 => 64 | .e4m3 | .e5m2 | .int8 | .int8x => 8 | .e3m2 | .e2m3 => 6
  | .e2m1 | .int4 => 4 | .tern => 2
/-- An integer grid: INT8, INT4, TERN. -/
def isInt : Fmt → Bool
  | .int8 | .int8x | .int4 | .tern => true
  | _ => false
/-- Formats with infinities. -/
def hasInf : Fmt → Bool
  | .bf16 | .fp16 | .fp32 | .fp64 | .e5m2 => true
  | _ => false
/-- Formats with a NaN. -/
def hasNan (f : Fmt) : Bool := f.hasInf || f == .e4m3
/-- Exponent of the smallest step. -/
def gridMin (f : Fmt) : Int :=
  match f with
  | .int8 | .int4 | .tern => 0
  | .int8x => -6
  | f => 1 - f.bias - f.mb
/-- The canonical NaN (R297, R298). -/
def canonNan : Fmt → Nat
  | .bf16 => 0x7FC0 | .fp16 => 0x7E00 | .fp32 => 0x7FC00000 | .fp64 => 0x7FF8000000000000 | .e4m3 => 0x7F | .e5m2 => 0x7E
  | _ => 0
/-- The sign bit. -/
def signBit (f : Fmt) (neg : Bool) : Nat := if neg && !f.isInt then 2 ^ (f.width - 1) else 0
/-- The code of a zero: digit 1 for TERN. -/
def zeroCode (f : Fmt) (neg : Bool) : Nat := if f == .tern then 1 else f.signBit neg
/-- The code of an infinity. -/
def infCode (f : Fmt) (neg : Bool) : Nat := f.signBit neg + (2 ^ f.eb - 1) * 2 ^ f.mb
/-- The largest code of each sign (R304): for INT8 and INT4 the ends of the code range. -/
def maxCode (f : Fmt) (neg : Bool) : Nat :=
  match f with
  | .int8 | .int8x => if neg then 0x80 else 0x7F
  | .int4 => if neg then 0x8 else 0x7
  | .tern => if neg then 0 else 2
  | .e4m3 => f.signBit neg + 0x7E
  | .e3m2 | .e2m3 | .e2m1 => f.signBit neg + (2 ^ (f.width - 1) - 1)
  | f => f.signBit neg + (2 ^ f.eb - 1) * 2 ^ f.mb - 1
/-- The largest magnitude of a sign, in units of a power of two (R298). -/
def maxMag (f : Fmt) (neg : Bool) : Nat × Int :=
  match f with
  | .int8 => (if neg then 128 else 127, 0)
  | .int8x => (if neg then 128 else 127, -6)
  | .int4 => (if neg then 8 else 7, 0)
  | .tern => (1, 0)
  | .e4m3 => (14, 5)
  | .e3m2 | .e2m3 | .e2m1 => (2 ^ (f.mb + 1) - 1, (2 ^ f.eb : Int) - 1 - f.bias - f.mb)
  | f => (2 ^ (f.mb + 1) - 1, (2 ^ f.eb : Int) - 2 - f.bias - f.mb)

end Fmt

/-- a * 2^e below b * 2^f. -/
def dyLt (a : Nat) (e : Int) (b : Nat) (f : Int) : Bool :=
  if e ≤ f then a < b * 2 ^ (f - e).toNat else a * 2 ^ (e - f).toNat < b

/-- The integer mantissa of a signed dyadic at a lower exponent. -/
def alignTo (neg : Bool) (m : Nat) (e lo : Int) : Int :=
  let x : Int := m * 2 ^ (e - lo).toNat
  if neg then -x else x

/-- m / 2^sh rounded to an integer magnitude under the mode (R303). -/
def shiftRound (mode : Rm) (neg : Bool) (m sh : Nat) : Nat :=
  let hi := m / 2 ^ sh
  let rem := m % 2 ^ sh
  if rem == 0 then hi
  else
    match mode with
    | .rtz => hi
    | .rdn => if neg then hi + 1 else hi
    | .rup => if neg then hi else hi + 1
    | .rne => if 2 * rem > 2 ^ sh || (2 * rem == 2 ^ sh && hi % 2 == 1) then hi + 1 else hi

/-- A non-zero magnitude rounded with an unbounded exponent range and the format's subnormal steps (R303): the result is
k * 2^q. -/
def roundMag (f : Fmt) (mode : Rm) (neg : Bool) (m : Nat) (e : Int) : Nat × Int :=
  let q : Int := if f.isInt then f.gridMin else max ((Nat.log2 m : Int) + e - f.mb) f.gridMin
  if q ≤ e then (m * 2 ^ (e - q).toNat, q) else (shiftRound mode neg m (q - e).toNat, q)

/-- The code of k * 2^q, a value of the format. -/
def encodeMag (f : Fmt) (neg : Bool) (k : Nat) (q : Int) : Nat :=
  match f with
  | .tern => if k == 0 then 1 else if neg then 0 else 2
  | .int8 | .int8x | .int4 => if neg then (2 ^ f.width - k) % 2 ^ f.width else k
  | f =>
    let (k, q) := if k == 2 ^ (f.mb + 1) then (2 ^ f.mb, q + 1) else (k, q)
    let body := if k < 2 ^ f.mb then k else (q + f.mb + f.bias).toNat * 2 ^ f.mb + (k - 2 ^ f.mb)
    f.signBit neg + body

/-- An overflowing element (R304). -/
def overflowCode (f : Fmt) (mode : Rm) (sat neg : Bool) : Nat :=
  if sat then f.maxCode neg
  else if f == .e4m3 then f.canonNan
  else if !f.hasInf then f.maxCode neg
  else
    match mode with
    | .rne => f.infCode neg
    | .rtz => f.maxCode neg
    | .rdn => if neg then f.infCode neg else f.maxCode neg
    | .rup => if neg then f.maxCode neg else f.infCode neg

/-- round(x, fmt, mode) with R304 and R305; an infinite input counts as an overflow in the format
(DEDUCED, log entry 74). -/
def roundVal (f : Fmt) (mode : Rm) (sat ftzo : Bool) (x : FVal) : Nat × FpFlags :=
  match x with
  | .nan => if f.hasNan then (f.canonNan, 0) else (f.zeroCode false, fpNANQ)
  | .inf n => (if f.hasInf && !sat then f.infCode n else f.maxCode n, fpOF)
  | .fin n m e =>
    if m == 0 then (f.zeroCode n, 0)
    else
      let (k, q) := roundMag f mode n m e
      let (bm, be) := f.maxMag n
      if k == 0 then (f.zeroCode n, 0)
      else if dyLt bm be k q then (overflowCode f mode sat n, fpOF)
      else if ftzo && !f.isInt && k < 2 ^ f.mb then (f.zeroCode n, fpUF)
      else (encodeMag f n k q, 0)

/-- The result of an arithmetic instruction (R383): an infinite exact value is no overflow, except under SAT. -/
def finish (f : Fmt) (mode : Rm) (sat ftzo : Bool) (x : FVal) : Nat × FpFlags :=
  match x with
  | .inf n => if sat then (f.maxCode n, fpOF) else (f.infCode n, 0)
  | x => roundVal f mode sat ftzo x

/-- The value of a code (R297, R298, R299, R301). -/
def decodeVal (f : Fmt) (code : Nat) : FVal :=
  match f with
  | .tern => match code with
    | 0 => .fin true 1 0
    | 2 => .fin false 1 0
    | _ => .fin false 0 0
  | .int8 | .int8x | .int4 =>
    let h := 2 ^ (f.width - 1)
    if code < h then .fin false code f.gridMin else .fin (code != 0) (2 * h - code) f.gridMin
  | f =>
    let neg := code / 2 ^ (f.width - 1) % 2 == 1
    let ef := code / 2 ^ f.mb % 2 ^ f.eb
    let man := code % 2 ^ f.mb
    if f == .e4m3 && ef == 15 && man == 7 then .nan
    else if f.hasInf && ef == 2 ^ f.eb - 1 then (if man == 0 then .inf neg else .nan)
    else if ef == 0 then .fin neg man f.gridMin
    else .fin neg (2 ^ f.mb + man) ((ef : Int) - f.bias - f.mb)

/-- The exponent of ulp(c) (R298). -/
def ulpExp (f : Fmt) (code : Nat) : Int :=
  if f.isInt then f.gridMin
  else
    let ef := code / 2 ^ f.mb % 2 ^ f.eb
    if ef == 0 then f.gridMin else (ef : Int) - f.bias - f.mb

/-- A subnormal code of a floating-point format. -/
def isSubnormal (f : Fmt) (code : Nat) : Bool :=
  !f.isInt && code / 2 ^ f.mb % 2 ^ f.eb == 0 && code % 2 ^ f.mb != 0

/-- FTZI: a subnormal input reads as a zero of its sign (R305). -/
def flushIn (f : Fmt) (on : Bool) (code : Nat) : Nat :=
  if on && isSubnormal f code then code - code % 2 ^ f.mb else code

namespace FVal

/-- A NaN. -/
def isNan : FVal → Bool
  | .nan => true
  | _ => false
/-- An infinity. -/
def isInf : FVal → Bool
  | .inf _ => true
  | _ => false
/-- A zero of either sign. -/
def isZero : FVal → Bool
  | .fin _ m _ => m == 0
  | _ => false
/-- The sign; false for NaN. -/
def sign : FVal → Bool
  | .nan => false
  | .inf n => n
  | .fin n _ _ => n
/-- The value with the opposite sign. -/
def negate : FVal → FVal
  | .nan => .nan
  | .inf n => .inf !n
  | .fin n m e => .fin (!n) m e

/-- Order of two non-NaN values, with +0 equal to -0. -/
def lt : FVal → FVal → Bool
  | .nan, _ | _, .nan => false
  | .inf a, .inf b => a && !b
  | .inf a, .fin .. => a
  | .fin .., .inf b => !b
  | .fin a m e, .fin b k g =>
    let lo := min e g
    decide (alignTo a m e lo < alignTo b k g lo)

/-- Equality of values; false on NaN. -/
def eqv (a b : FVal) : Bool := !a.isNan && !b.isNan && !a.lt b && !b.lt a

/-- Multiplication by a power of two. -/
def scale (x : FVal) (k : Int) : FVal :=
  match x with
  | .fin n m e => .fin n m (e + k)
  | x => x

/-- The exact product of two values, neither NaN nor a zero times an infinity. -/
def mul (a b : FVal) : FVal :=
  match a, b with
  | .fin n m e, .fin k p g => .fin (n != k) (m * p) (e + g)
  | a, b => if a.isNan || b.isNan then .nan else .inf (a.sign != b.sign)

end FVal

/-- The exact sum of finite values as a signed integer at the least exponent. -/
def sumAt (lo : Int) : List FVal → Int
  | [] => 0
  | .fin n m e :: xs => alignTo n m e lo + sumAt lo xs
  | _ :: xs => sumAt lo xs

/-- The least exponent of the finite values. -/
def leastExp : Int → List FVal → Int
  | lo, [] => lo
  | lo, .fin _ _ e :: xs => leastExp (min lo e) xs
  | lo, _ :: xs => leastExp lo xs

/-- A signed integer times a power of two. -/
def ofSigned (x : Int) (e : Int) : FVal := .fin (decide (x < 0)) x.natAbs e

/-- A sum of values with the zero signs of R383: NaN and opposed infinities have been excluded. -/
def exactSum (rm : Rm) (xs : List FVal) : FVal :=
  match xs.find? FVal.isInf with
  | some i => i
  | none =>
    let lo := leastExp 0 xs
    let s := sumAt lo xs
    if s != 0 then ofSigned s lo
    else if xs.all (fun x => x.isZero && x.sign) && !xs.isEmpty then .fin true 0 0
    else if xs.all (fun x => x.isZero && !x.sign) then .fin false 0 0
    else .fin (rm == .rdn) 0 0

/-- FADD, and FSUB with the second operand negated (R383). -/
def fpAdd (rm : Rm) (a b : FVal) : FVal × FpFlags :=
  if a.isNan || b.isNan then (.nan, 0)
  else if a.isInf && b.isInf && a.sign != b.sign then (.nan, fpNV)
  else (exactSum rm [a, b], 0)

/-- FMUL (R383). -/
def fpMul (a b : FVal) : FVal × FpFlags :=
  if a.isNan || b.isNan then (.nan, 0)
  else if (a.isZero && b.isInf) || (a.isInf && b.isZero) then (.nan, fpNV)
  else (a.mul b, 0)

/-- FFMA (R383): 0 times an infinity is invalid even when c is NaN. -/
def fpFma (rm : Rm) (a b c : FVal) : FVal × FpFlags :=
  if a.isNan || b.isNan then (.nan, 0)
  else if (a.isZero && b.isInf) || (a.isInf && b.isZero) then (.nan, fpNV)
  else if c.isNan then (.nan, 0)
  else fpAdd rm (a.mul b) c

/-- A quotient with a sticky last bit, precise enough for every format. -/
def quotient (m p : Nat) : Nat × Int :=
  let k := 130 + Nat.log2 p
  let n := m * 2 ^ k
  let q := n / p
  if n % p == 0 then (q, -(k : Int)) else (2 * q + 1, -(k : Int) - 1)

/-- FDIV (R383). -/
def fpDiv (a b : FVal) : FVal × FpFlags :=
  let s := a.sign != b.sign
  if a.isNan || b.isNan then (.nan, 0)
  else if (a.isZero && b.isZero) || (a.isInf && b.isInf) then (.nan, fpNV)
  else
    match a, b with
    | .fin _ m e, .fin _ p g =>
      if m == 0 then (.fin s 0 0, 0)
      else if p == 0 then (.inf s, fpDZ)
      else
        let (q, k) := quotient m p
        (.fin s q (k + e - g), 0)
    | .inf _, _ => (.inf s, 0)
    | _, _ => (.fin s 0 0, 0)

/-- The integer square root, bit by bit from bit `i - 1` down. -/
def isqrtFrom (n : Nat) : Nat → Nat → Nat
  | 0, r => r
  | i + 1, r => isqrtFrom n i (if (r + 2 ^ i) * (r + 2 ^ i) ≤ n then r + 2 ^ i else r)

/-- The integer square root. -/
def isqrt (n : Nat) : Nat := isqrtFrom n (Nat.log2 n / 2 + 1) 0

/-- A square root with a sticky last bit, precise enough for every format. -/
def sqrtMag (m : Nat) (e : Int) : Nat × Int :=
  let (m, e) := if e % 2 == 0 then (m, e) else (2 * m, e - 1)
  let n := m * 2 ^ 256
  let r := isqrt n
  if r * r == n then (r, e / 2 - 128) else (2 * r + 1, e / 2 - 129)

/-- FSQRT (R383). -/
def fpSqrt (a : FVal) : FVal × FpFlags :=
  match a with
  | .nan => (.nan, 0)
  | .inf n => if n then (.nan, fpNV) else (.inf false, 0)
  | .fin n m e =>
    if m == 0 then (a, 0)
    else if n then (.nan, fpNV)
    else
      let (r, k) := sqrtMag m e
      (.fin false r k, 0)

/-- FMIN and FMAX on codes (R384). -/
def fpMinMax (f : Fmt) (wantMax : Bool) (x y : Nat) : Nat :=
  let a := decodeVal f x
  let b := decodeVal f y
  if a.isNan && b.isNan then f.canonNan
  else if a.isNan then y
  else if b.isNan then x
  else
    let aLess := a.lt b || (!b.lt a && a.sign && !b.sign)
    if aLess != wantMax then x else y

/-- FTZO on a code that is returned and not rounded (R384). -/
def flushOut (f : Fmt) (on : Bool) (code : Nat) : Nat := flushIn f on code

/-- A value rounded to an integer under the mode, with its sign kept. -/
def roundInt (mode : Rm) (neg : Bool) (m : Nat) (e : Int) : Nat :=
  if 0 ≤ e then m * 2 ^ e.toNat else shiftRound mode neg m (-e).toNat

/-- FRND (R388). -/
def fpRnd (f : Fmt) (mode : Rm) (a : FVal) : Nat :=
  match a with
  | .nan => f.canonNan
  | .inf n => f.infCode n
  | .fin n m e => (roundVal f mode false false (.fin n (roundInt mode n m e) 0)).1

/-- FFRC (R388). -/
def fpFrc (f : Fmt) (mode : Rm) (ftzo : Bool) (a : FVal) : Nat × FpFlags :=
  match a with
  | .nan => (f.canonNan, 0)
  | .inf _ => (f.canonNan, fpNV)
  | .fin n m e =>
    if 0 ≤ e then (0, 0)
    else
      let d : Int := 2 ^ (-e).toNat
      let x : Int := if n then -(m : Int) else m
      let (c, fl) := roundVal f mode false ftzo (.fin false (x % d).toNat e)
      let one := encodeMag f false (2 ^ f.mb) (-(f.mb : Int))
      if c == one then (one - 1, fl) else (c, fl)

/-- FCLASS (R388). -/
def fpClass (f : Fmt) (code : Nat) : Nat :=
  match decodeVal f code with
  | .nan => 256
  | .inf n => if n then 1 else 128
  | .fin n m _ =>
    if m == 0 then (if n then 8 else 16)
    else if isSubnormal f code then (if n then 4 else 32)
    else if n then 2 else 64

/-- The conditions of FCMP (R373). -/
def fpCmp (c : Cc) (a b : FVal) : Bool :=
  let ord := !a.isNan && !b.isNan
  match c with
  | .eq => a.eqv b
  | .ne => !(a.eqv b)
  | .lt => ord && a.lt b
  | .le => ord && !b.lt a
  | .gt => ord && b.lt a
  | .ge => ord && !a.lt b
  | .ord => ord
  | .uno => !ord

/-- FP to integer of the given width and signedness (R389). -/
def fpToInt (width : Nat) (signed : Bool) (mode : Rm) (a : FVal) : Int × FpFlags :=
  let lo : Int := if signed then -(2 ^ (width - 1)) else 0
  let hi : Int := if signed then 2 ^ (width - 1) - 1 else 2 ^ width - 1
  match a with
  | .nan => (0, fpNV)
  | .inf n => (if n then lo else hi, fpNV)
  | .fin n m e =>
    let k : Int := roundInt mode n m e
    let x := if n then -k else k
    if x < lo then (lo, fpNV) else if hi < x then (hi, fpNV) else (x, 0)

/-- Integer to FP (R389). -/
def intToFp (f : Fmt) (mode : Rm) (sat : Bool) (x : Int) : Nat × FpFlags := roundVal f mode sat false (ofSigned x 0)

/-- FP to FP (R389): exact when the result is wider or equal, so an infinity overflows only under SAT. -/
def fpToFp (src dst : Fmt) (mode : Rm) (sat : Bool) (x : FVal) : Nat × FpFlags :=
  let wider := src == dst || dst == .fp64 || (dst == .fp32 && src != .fp64)
  if wider then finish dst mode sat false x else roundVal dst mode sat false x

/-- The F32 ADD reduction of R380: exact, rounded once. -/
def reduceAdd (rm : Rm) (xs : List FVal) : Nat × FpFlags :=
  if xs.any FVal.isNan then (Fmt.fp32.canonNan, 0)
  else if xs.any (fun x => x.isInf && x.sign) && xs.any (fun x => x.isInf && !x.sign) then (Fmt.fp32.canonNan, fpNV)
  else
    match xs.find? FVal.isInf with
    | some i => (Fmt.fp32.infCode i.sign, 0)
    | none =>
      if xs.all (fun x => x.isZero && x.sign) then (Fmt.fp32.zeroCode true, 0)
      else if xs.all (fun x => x.isZero && !x.sign) then (Fmt.fp32.zeroCode false, 0)
      else
        let lo := leastExp 0 xs
        let s := sumAt lo xs
        if s == 0 then (Fmt.fp32.zeroCode (rm == .rdn), 0) else roundVal .fp32 rm false false (ofSigned s lo)

/-! ### Approximations (R386, R387): reference values in fixed point with 192 fraction bits, and the bounds around them. -/

/-- One in fixed point. -/
def fxOne : Nat := 2 ^ 192
/-- Pi in fixed point. -/
def fxPi : Nat := 0x3243f6a8885a308d313198a2e03707344a4093822299f31d0
/-- The natural logarithm of 2 in fixed point. -/
def fxLn2 : Nat := 0xb17217f7d1cf79abc9e3b39803f2f6af40f343267298b62d

/-- The exponential series of x in 0 to 1, summed from term k with the running term t. -/
def fxExpSeries (x : Nat) : Nat → Nat → Nat → Nat
  | 0, _, _ => 0
  | n + 1, k, t => t + fxExpSeries x n (k + 1) (t * x / fxOne / (k + 1))

/-- 2^f for a fraction f in 0 to 1. -/
def fxExp2Frac (f : Nat) : Nat := fxExpSeries (f * fxLn2 / fxOne) 50 0 fxOne

/-- The series of atanh y / 1, running odd power p, from term k. -/
def fxAtanhSeries (y2 : Nat) : Nat → Nat → Nat → Nat
  | 0, _, _ => 0
  | n + 1, k, p => p / (2 * k + 1) + fxAtanhSeries y2 n (k + 1) (p * y2 / fxOne)

/-- The base-2 logarithm of m in 1 to 2 (fixed point). -/
def fxLog2 (m : Nat) : Nat :=
  let y := (m - fxOne) * fxOne / (m + fxOne)
  2 * fxAtanhSeries (y * y / fxOne) 64 0 y * fxOne / fxLn2

/-- The alternating sine or cosine series of x, from term index k with running term t. -/
def fxTrigSeries (x2 : Int) : Nat → Nat → Int → Int
  | 0, _, _ => 0
  | n + 1, k, t => t + fxTrigSeries x2 n (k + 2) (-(t * x2 / fxOne / ((k + 1) * (k + 2))))

/-- sin or cos of a signed fixed-point angle. -/
def fxTrig (cosine : Bool) (x : Int) : Int :=
  let turn : Int := 2 * fxPi
  let r := (x + fxPi) % turn - fxPi
  let r2 := r * r / fxOne
  if cosine then fxTrigSeries r2 48 0 fxOne else fxTrigSeries r2 48 1 r

/-- A dyadic in fixed point, rounded down. -/
def toFx (neg : Bool) (m : Nat) (e : Int) : Int :=
  let s := e + 192
  let x : Int := if 0 ≤ s then m * 2 ^ s.toNat else m / 2 ^ (-s).toNat
  if neg then -x else x

/-- The reference value of each approximation at a finite input that the special cases of R387 do not decide, as a signed
integer times a power of two; its error is far below every bound. -/
def approxRef (fn : ApproxFn) (neg : Bool) (m : Nat) (e : Int) : Int × Int :=
  let sg (x : Nat) : Int := if neg then -(x : Int) else x
  match fn with
  | .rcp =>
    let (q, k) := quotient 1 m
    (sg q, k - e)
  | .rsq =>
    let (r, k) := sqrtMag m e
    let (q, g) := quotient 1 r
    (q, g - k)
  | .exp2 =>
    let x := toFx neg m e
    let k := x / (fxOne : Int)
    (fxExp2Frac (x % (fxOne : Int)).toNat, k - 192)
  | .log2 =>
    let l := Nat.log2 m
    ((fxLog2 (m * fxOne / 2 ^ l) : Int) + ((l : Int) + e) * fxOne, -192)
  | .sin => (fxTrig false (toFx neg m e), -192)
  | .cos => (fxTrig true (toFx neg m e), -192)
  | .tanh =>
    let a := (toFx false m e).toNat
    if a > 64 * fxOne then (sg fxOne, -192)
    else
      let y := 2 * a * fxOne / fxLn2
      let p := fxExp2Frac (y % fxOne) * 2 ^ (y / fxOne)
      (sg ((p - fxOne) * fxOne / (p + fxOne)), -192)

/-- The bound of R386 around the reference value: the exponent of the largest permitted error, and the factor on it. -/
def approxBound (fn : ApproxFn) (f : Fmt) (neg : Bool) (m : Nat) (e : Int) (ref : Int × Int) : Nat × Int :=
  let ulp : Int := max ((Nat.log2 ref.1.natAbs : Int) + ref.2 - f.mb) f.gridMin
  match fn with
  | .rcp => (1, ulp)
  | .rsq | .exp2 => (2, ulp)
  | .log2 => if !neg && !dyLt m e 1 (-1) && !dyLt 1 1 m e then (1, -22) else (2, ulp)
  | .sin | .cos | .tanh => (1, -21)

/-- Whether a code lies within the bound of R386 of the reference value. -/
def approxWithin (fn : ApproxFn) (f : Fmt) (neg : Bool) (m : Nat) (e : Int) (code : Nat) : Bool :=
  let ref := approxRef fn neg m e
  let (c, b) := approxBound fn f neg m e ref
  match decodeVal f code with
  | .fin n k g =>
    let lo := min (min g ref.2) b
    let d := alignTo n k g lo - ref.1 * 2 ^ (ref.2 - lo).toNat
    decide (d.natAbs ≤ c * 2 ^ (b - lo).toNat) &&
      (fn != .tanh || !dyLt 1 0 k g)
  | _ => false

/-- An approximation in F32 or F64 at an input the table of R387 does not decide: the free code where it lies within the
bound, else the rounded reference value (DESIGN CHOICE, log entry 7). -/
def approxValue (fn : ApproxFn) (f : Fmt) (inCode : Nat) (neg : Bool) (m : Nat) (e : Int) : FVal :=
  let c := Config.approxCode fn (f == .fp64) inCode % 2 ^ f.width
  let ref := approxRef fn neg m e
  let r := ofSigned ref.1 ref.2
  let (bm, be) := f.maxMag false
  if dyLt bm be ref.1.natAbs ref.2 then r
  else if approxWithin fn f neg m e c then decodeVal f c
  else decodeVal f (roundVal f .rne false false r).1

/-- R386 and R387 for one input code of the type. -/
def approx (fn : ApproxFn) (f : Fmt) (sat ftzi ftzo : Bool) (code : Nat) : Nat × FpFlags :=
  let code := flushIn f ftzi code
  let wide := if f == .fp64 then Fmt.fp64 else Fmt.fp32
  let out (x : FVal) (fl : FpFlags) : Nat × FpFlags :=
    let (c, g) := finish f .rne sat ftzo x
    (c, fl ||| g)
  let invalid : Nat × FpFlags := (f.canonNan, fpNV)
  let one : FVal := .fin false 1 0
  match decodeVal f code with
  | .nan => (f.canonNan, 0)
  | .inf n =>
    match fn with
    | .rcp => out (.fin n 0 0) 0
    | .rsq => if n then invalid else out (.fin false 0 0) 0
    | .exp2 => if n then out (.fin false 0 0) 0 else out (.inf false) 0
    | .log2 => if n then invalid else out (.inf false) 0
    | .sin | .cos => invalid
    | .tanh => out (.fin n 1 0) 0
  | .fin n m e =>
    if m == 0 then
      match fn with
      | .rcp | .rsq => out (.inf n) fpDZ
      | .exp2 | .cos => out one 0
      | .log2 => out (.inf true) fpDZ
      | .sin | .tanh => out (.fin n 0 0) 0
    else if n && (fn == .rsq || fn == .log2) then invalid
    else if (fn == .sin || fn == .cos) && !dyLt m e 1 16 then invalid
    else if fn == .exp2 && !dyLt m e 1 12 then
      (if n then out (.fin false 1 (-4096)) 0 else out (.fin false 1 4096) 0)
    else
      let inCode := (roundVal wide .rne false false (.fin n m e)).1
      out (approxValue fn wide inCode n m e) 0

end Sys2Proof.Machine
end

