-- ==== Sys2Proof/Machine/Tab.lean ====
section
/-! DEFINITION. Sparse tables: lists of (key, value) with strictly rising keys and no default entry, so that equal tables are
equal data. -/

namespace Sys2Proof.Machine

/-- A sparse table; an unlisted key holds the default that the reader names. -/
abbrev Tab (α : Type) := List (Nat × α)

namespace Tab

/-- The value at a key. -/
def get {α : Type} (d : α) : Tab α → Nat → α
  | [], _ => d
  | (j, a) :: r, k => if k < j then d else if k = j then a else get d r k

/-- Write a key; writing the default removes the entry. -/
def set {α : Type} [DecidableEq α] (d : α) : Tab α → Nat → α → Tab α
  | [], k, v => if v = d then [] else [(k, v)]
  | (j, a) :: r, k, v =>
    if k < j then (if v = d then (j, a) :: r else (k, v) :: (j, a) :: r)
    else if k = j then (if v = d then r.dropWhile (fun x => decide (x.1 ≤ k)) else (k, v) :: r)
    else (j, a) :: set d r k v

/-- Change the value at a key. -/
def modify {α : Type} [DecidableEq α] (d : α) (t : Tab α) (k : Nat) (f : α → α) : Tab α := set d t k (f (get d t k))

/-- Keys strictly rise and no entry holds the default. -/
def wf {α : Type} [DecidableEq α] (d : α) : Tab α → Bool
  | [] => true
  | [(_, v)] => decide (v ≠ d)
  | (j, v) :: (k, w) :: r => decide (v ≠ d) && decide (j < k) && wf d ((k, w) :: r)

/-- Every key in a range reads as the default. -/
def clearRange {α : Type} (t : Tab α) (lo n : Nat) : Tab α := t.filter (fun x => decide (x.1 < lo ∨ lo + n ≤ x.1))

end Tab

end Sys2Proof.Machine
end

