-- ==== Sys2Proof/Machine/State.lean ====
section
/-! DEFINITION. The state of the BLN-84 module: every piece of state that the manual gives the machine, as plain data, and the
state right after reset. INVENTORY.md names the rule of each field. -/

namespace Sys2Proof.Machine

/-! ### The launch record (R148 to R151, R316) -/

/-- A format slot (R316). -/
structure FmtSlot where
  fmt : Nat := 0
  bsz : Bool := false
  dith : Bool := false
  sat : Bool := false
  strict : Bool := false
  pln : Nat := 0
  key : Dword := 0
  row0 : Word := 0
  col0 : Word := 0
  m00 : BitVec 16 := 0
  m01 : BitVec 16 := 0
  m10 : BitVec 16 := 0
  m11 : BitVec 16 := 0
  soff : Word := 0
  deriving DecidableEq, Repr

/-- A role entry (R150). -/
structure Role where
  entry : Word := 0
  vregs : Nat := 0
  wreg : Nat := 0
  count : Nat := 0
  rparam : Dword := 0
  deriving DecidableEq, Repr

/-- A launch record as the scheduler reads it (R149 to R151). -/
structure Launch where
  roles : List Role := []
  span : Nat := 0
  slots : Nat := 0
  gang : Nat := 1
  prio : Nat := 0
  asid : Nat := 0
  reqMask : BitVec 16 := 1
  exclMask : BitVec 16 := 0
  localBytes : Nat := 0
  tiles : Nat := 0
  accs : Nat := 0
  nctr : Nat := 0
  ctrBase : Nat := 0
  errAddr : Nat := 0
  codeBase : Nat := 0
  saveAddr : Nat := 0
  saveCnt : Nat := 1
  fmts : List FmtSlot := []
  gx : Nat := 0
  gy : Nat := 0
  gz : Nat := 0
  paramPtr : Dword := 0
  params : List Dword := []
  deriving DecidableEq, Repr

/-! ### Fibres, slots, workgroups (chapters 05, 07, 13) -/

/-- An affine register: base and stride (R16, R381). -/
structure Affine where
  base : Dword := 0
  stride : Word := 0
  deriving DecidableEq, Repr

/-- A bypass latch (R212): up to 64 bits per lane, usable from a cycle on. -/
structure Latch where
  valid : Bool := false
  ready : Nat := 0
  vals : List Dword := []
  deriving DecidableEq, Repr

/-- An earlier register value kept for reads at a short distance (R210). `key` is the register's operand code (R348), `set`
the lane set that the writer issued to, `mask` the lanes it wrote, `clk` the lanes' distance sums at its issue. -/
structure HistEnt where
  key : Nat
  set : Lanes
  mask : Lanes
  clk : List Nat
  lat : Nat
  old : List Dword
  oldStride : Word
  deriving DecidableEq, Repr

/-- Fibre states (R206). -/
inductive FibSt where
  | current | waiting | blocked | frozen | exited
  deriving DecidableEq, Repr

/-- What a fibre is blocked on (R206, R217, R218, R416); for a window register also the access's address and active lanes. -/
inductive Block where
  | window (n pc : Nat) (lanes : Lanes)
  | fbar (mask : BitVec 4)
  | barrier (n : Nat)
  deriving DecidableEq, Repr

/-- Live-in counts of a waypoint (R220, R451). -/
structure LiveIn where
  nv : Nat := 0
  ns : Nat := 0
  nw : Nat := 0
  nt : Nat := 0
  deriving DecidableEq, Repr

/-- A barrier arrival that has performed while its wait has not completed (R218, R225): the FBAR mask (0 for BAR.SYNC),
whether the fibre barrier has completed since, and the live-in counts of the WAYPT that follows. -/
structure Arrival where
  mask : BitVec 4
  finished : Bool
  live : LiveIn
  deriving DecidableEq, Repr

/-- A fibre (R206, R209 to R228). Instruction addresses are in PC form (R394). -/
structure Fibre where
  st : FibSt := .waiting
  block : Option Block := none
  role : Nat := 0
  live : Lanes := 0xFFFF
  pc : List Nat := []
  v : Tab Word := []
  s : Tab Dword := []
  a : Tab Affine := []
  p : Tab Lanes := []
  f : Tab Nat := []
  latches : Tab Latch := []
  hist : List HistEnt := []
  clk : List Nat := []
  issueIx : Dword := 0
  lastIssue : Nat := 0
  pairOpen : Bool := false
  second : List (Nat × Lanes) := []
  streak : Nat := 0
  atEntry : Bool := true
  fpstat : Word := 0
  restart : Nat := 0
  livein : LiveIn := {}
  recPhase : BitVec 16 := 0
  arrival : Option Arrival := none
  frozenBy : Option (Nat × Nat) := none
  timers : List (Nat × Fin 12) := []
  status : List (Nat × Word) := []
  writeAt : Nat := 0
  exitPc : Nat := 0
  issued : Dword := 0
  handoffs : Dword := 0
  stalls : Dword := 0
  deriving DecidableEq, Repr

/-- A slot (R202, R206, R215, R218, R333). -/
structure SlotSt where
  quarter : Nat := 0
  position : Nat := 0
  fibres : Tab Fibre := []
  count : Nat := 0
  current : Option Nat := none
  lastFib : Nat := 0
  win : Tab Word := []
  tags : Tab Bool := []
  lastIssue : Nat := 0
  fbarCount : Nat := 0
  winCount : Tab Nat := []
  deriving DecidableEq, Repr

/-- A workgroup barrier (R414, R333). -/
structure Bar where
  expected : Nat := 0
  arrived : Nat := 0
  phase : Bool := false
  pending : Option Nat := none
  count : Nat := 0
  deriving DecidableEq, Repr

/-- A tile register (R230, R428); `busy` counts the engine commands that name it and have not captured or written it. -/
structure Tile where
  data : Tab Byte := []
  row0 : Word := 0
  col0 : Word := 0
  tb : Bool := false
  busy : Nat := 0
  deriving DecidableEq, Repr

/-- Whether a workgroup is on a core, or in a save record written with a draw of free values (R168 to R170), or has ended while
operations of its network queue are still to perform (R336). -/
inductive Place where
  | resident
  | saved (rec draw : Nat)
  | ended
  deriving DecidableEq, Repr

/-- A workgroup (R157 to R171); `localBad` are the 64-byte parts of its local store whose contents cannot be corrected (R38). -/
structure Workgroup where
  part : Nat := 0
  vcore : Nat := 0
  lcore : Nat := 0
  place : Place := .resident
  graph : Nat := 0
  runSeq : Nat := 0
  node : Nat := 0
  index : Nat := 0
  gangIx : Nat := 0
  launch : Launch := {}
  slots : Tab SlotSt := []
  bars : Tab Bar := []
  tiles : Tab Tile := []
  accs : Tab Word := []
  localBase : Nat := 0
  localMem : Tab Byte := []
  localBad : List Nat := []
  readyAt : Nat := 0
  passed : Nat := 0
  promoted : Bool := false
  deriving DecidableEq, Repr

/-- The fibre and lane set that the step has chosen to issue, and its address in PC form. -/
structure Focus where
  wg : Nat
  slot : Nat
  fib : Nat
  lanes : Lanes
  pc : Nat
  deriving DecidableEq, Repr

/-! ### Memory operations in flight -/

/-- The page types of a leaf and the untranslated spaces (R231, R255). -/
inductive Space where
  | localStore
  | global
  | broadcast
  | pod (module : Nat)
  | remote (module : Nat)
  | device
  | host
  deriving DecidableEq, Repr

/-- One lane's access of a memory-pipe operation: where it goes, its data, and what it read. -/
structure LaneAcc where
  lane : Nat
  va : Nat
  space : Space
  pa : Nat
  data : Nat := 0
  data2 : Nat := 0
  done : Bool := false
  val : Nat := 0
  deriving DecidableEq, Repr

/-- What a memory-pipe operation does (R400 to R411, R425, R443 to R449) and the two variable-latency divisions (R385). -/
inductive PipeKind where
  | load (size : Nat) (sx : Bool)
  | store (size : Nat)
  | atomic (m : ModAtom)
  | accum (t : AccTy)
  | accClear (t : AccTy)
  | accRead (t : AccTy) (ent : Nat)
  | writeBack
  | invalidate
  | divide (flags : Word)
  | fetchAhead
  | stb (size : Nat) (frame : Nat)
  | npost (handles : Bool) (image : Option (List Byte))
  | ntrig (ctr : Nat) (set : Bool) (v : Nat)
  | ncoll (handles : Bool)
  | ncan (entry : Nat)
  | nrd (ctr : Nat)
  deriving DecidableEq, Repr

/-- A fence that found an operation in the pipe: its kind, scope and lanes, and the identity of the first operation after it (R268). -/
structure Fenced where
  kind : FenceKind
  scope : Scope
  lanes : Lanes
  after : Nat
  deriving DecidableEq, Repr

/-- A memory-pipe or network-queue operation that has issued and not performed (R209, R400, R426). -/
structure PipeOp where
  id : Nat
  wg : Nat
  slot : Nat
  fib : Nat
  pc : Nat
  lanes : Lanes
  kind : PipeKind
  accs : List LaneAcc
  dst : Option Operand := none
  regs : Nat := 1
  qual : Qual := .none
  scope : Scope := .lane
  flag : Option (Fin 12) := none
  closing : Option LiveIn := none
  clk : List Nat := []
  set : Lanes := 0
  fences : List Fenced := []
  deriving DecidableEq, Repr

/-- A host target (R86). -/
structure HostTarget where
  qp : Nat
  key : Word
  base : Nat
  len : Nat
  deriving DecidableEq, Repr

/-- A host target entry as a copy read it when it was issued: index, function, entry (R86, R108). -/
structure HostRead where
  index : Nat
  func : Nat
  entry : HostTarget
  deriving DecidableEq, Repr

/-- What a command of the copy or matrix engine does, with the operands captured at issue (R420 to R424, R434 to R439). -/
inductive CmdKind where
  | acp (size : Nat) (ld ls : Bool) (pairs : List (Nat × Nat × Nat))
  | tld (tile : Nat) (ls : Bool) (addr rowb rows : Nat) (pitch : Int)
  | slide (tile : Nat) (ls : Bool) (addr rowb rows : Nat) (pitch : Int) (cgrp str wid : Nat) (x0 : Int)
  | tst (tile : Nat) (ls : Bool) (addr rowb rows : Nat) (pitch : Int)
  | mma (acc ta tb : Nat) (ts : Option Nat) (fsa fsb : Nat) (m : ModMma)
  | maccld (acc : Nat) (ty : MaccldTy) (ls : Bool) (addr : Nat) (pitch : Int)
  | mdrain (acc fs : Nat) (mode : MdrainMode) (ls : Bool) (addr : Nat) (pitch : Int) (side : Nat) (ioff joff : Word)
  deriving DecidableEq, Repr

/-- What a command signals when it has performed besides its flag (R417, R420). -/
inductive Signal where
  | none
  | bar (n : Nat)
  | ctr (die : Nat)
  deriving DecidableEq, Repr

/-- An engine command in its queue (R280, R420, R436). `closing` is the address and the counts of the WAYPT that becomes the
restart point, `after` the TLD that a follow-on MMA waits for (R424). -/
structure Cmd where
  id : Nat
  wg : Nat
  slot : Nat
  fib : Nat
  pc : Nat
  lanes : Lanes
  kind : CmdKind
  flag : Option (Fin 12) := none
  signal : Signal := .none
  closing : Option (Nat × LiveIn) := none
  after : Option Nat := none
  started : Bool := false
  sent : Bool := false
  left : Nat := 0
  nak : Bool := false
  trap : Option (Nat × Nat × Nat) := none
  tiles : List Tile := []
  trans : List (Nat × Space × Nat) := []
  hosts : List HostRead := []
  deriving DecidableEq, Repr

/-- A core's engines and counters (R420, R436, R452): CYCLES is `cyclesBase` and the cycles of its die since `cycles0`,
and `picker` the position that each quarter's picker took last (R204). -/
structure Core where
  copyQ : List Cmd := []
  matQ : List Cmd := []
  cycles0 : Nat := 0
  cyclesBase : Nat := 0
  picker : Tab Nat := []
  issued : Dword := 0
  macs : Dword := 0
  copyBytes : Dword := 0
  l1Miss : Dword := 0
  tlbMiss : Dword := 0
  handoffs : Dword := 0
  noCurrent : Dword := 0
  deriving DecidableEq, Repr

/-! ### Memory system (chapter 08) -/

/-- A leaf of a page walk: space, base address of the page, permissions (R255). -/
structure Leaf where
  space : Space
  base : Nat
  x : Bool
  a : Bool
  w : Bool
  rd : Bool
  deriving DecidableEq, Repr

/-- A TLB entry of a die: a page of `bits` offset bits (R256). -/
structure TlbEnt where
  die : Nat
  asid : Nat
  page : Nat
  bits : Nat
  leaf : Leaf
  deriving DecidableEq, Repr

/-- A failed walk that its waiting accesses have not taken yet: walk level, and whether a table sector failed (R257). -/
structure WalkFail where
  die : Nat
  asid : Nat
  page : Nat
  level : Nat
  check : Bool
  deriving DecidableEq, Repr

/-- MOESI states of a die's copy (R246). -/
inductive Moesi where
  | i | s | e | o | m
  deriving DecidableEq, Repr

/-- A die's L2 copy of a line: state, fill and dirty masks, and whether an ordered request's data is still to come
(R235, R240, R248). -/
structure DieLine where
  st : Moesi := .i
  fill : BitVec 4 := 0
  dirty : BitVec 256 := 0
  waiting : Bool := false
  deriving DecidableEq, Repr

/-- States of an L1 copy (R239). -/
inductive L1St where
  | i | s | m
  deriving DecidableEq, Repr

/-- A core's L1 copy of a line: state, fill and dirty masks (R235, R239). -/
structure L1Line where
  st : L1St := .i
  fill : BitVec 4 := 0
  dirty : BitVec 256 := 0
  deriving DecidableEq, Repr

/-- The home's record of a line (R247). -/
inductive HomeOwner where
  | none
  | shared
  | em (die : Nat)
  | o (die : Nat)
  deriving DecidableEq, Repr

/-- Transient records (R248). -/
inductive TransKind where
  | isD | imAd | smA | omA | miA
  deriving DecidableEq, Repr

/-- A transient record: its kind, requesting die, and a number of its own (R248). -/
structure Trans where
  kind : TransKind
  die : Nat
  id : Nat
  deriving DecidableEq, Repr

/-- The home record of a line (R242, R247, R248). -/
structure Home where
  owner : HomeOwner := .none
  trans : List Trans := []
  pinned : Bool := false
  deriving DecidableEq, Repr

/-- Order-lane request kinds (R245). -/
inductive OrderKind where
  | rds | rdx | own | upg | putm | puto | pin
  deriving DecidableEq, Repr

/-- A request sent on an order lane: the frame it was sent in, station key, and slot fields (R244). -/
structure OrderReq where
  kind : OrderKind
  frame : Nat
  station : Nat
  die : Nat
  line : Nat
  smask : BitVec 4
  part : Nat
  tag : Nat := 0
  deriving DecidableEq, Repr

/-- Line data on the mesh for a requester (R246, R248), as flits with their epoch (R133), the physical die where they are, the dies
still ahead, their owner, and whether they are on a detour (R136): `src` is the die that sends them, and `record` the number of the
transient record that the home's data belong to. -/
structure MeshData where
  die : Nat
  line : Nat
  sectors : BitVec 4
  dirty : BitVec 256
  fromHome : Bool
  src : Nat := 0
  record : Nat := 0
  part : Nat := 0
  epoch : Bool := false
  place : Nat := 0
  ahead : List Nat := []
  detour : Bool := false
  deriving DecidableEq, Repr

/-- An exact-accumulator entry of an element (R241, R309, R310): the integer as its residue, with its sticky flags. -/
structure AccEnt where
  ty : AccTy := .f32
  n : Int := 0
  nan : Bool := false
  pinf : Bool := false
  ninf : Bool := false
  ovf : Bool := false
  spillAt : Option Nat := none
  touch : Nat := 0
  deriving DecidableEq, Repr

/-- A broadcast window (R251). -/
structure BWin where
  part : Nat
  writer : Nat
  row0 : Nat
  rows : Nat
  members : List Nat
  deriving DecidableEq, Repr

/-! ### Graphs and runs (chapter 05) -/

/-- A run waiting in a graph's queue (R97, R98). -/
structure RunReq where
  func : Nat
  tag : Dword
  seq : Nat
  patches : List (Nat × Nat × Nat)
  deriving DecidableEq, Repr

/-- Node states (R154). -/
inductive NodeState where
  | waiting | ready | active | done | skipped
  deriving DecidableEq, Repr

/-- A node of an active run: predecessors remaining, state, status, tick at which it became READY, next linear index to place,
workgroups resident or saved, failing status so far, decisions that passed it over and its promotion (R166), and what a copy or
collective waits for: transfers still out, or a counter and the value at which it is complete (R155, R195). -/
structure NodeRun where
  remaining : Nat := 0
  st : NodeState := .waiting
  status : Nat := 0
  readyAt : Nat := 0
  next : Nat := 0
  out : Nat := 0
  passed : Nat := 0
  promoted : Bool := false
  queued : Bool := false
  sent : Bool := false
  left : Nat := 0
  target : Option (Nat × Nat × Nat) := none
  hosts : List HostRead := []
  deriving DecidableEq, Repr

/-- An active run: sender, tag, number, nodes, the status that stopped it with its node, and the first HOST_NAK node (R156). -/
structure Run where
  func : Nat := 0
  tag : Dword := 0
  seq : Nat := 0
  nodes : Tab NodeRun := []
  stopped : Option (Nat × Nat) := none
  nak : Option Nat := none
  deriving DecidableEq, Repr

/-- A graph in graph memory (R95 to R98, R143). -/
structure Graph where
  part : Nat := 0
  base : Nat := 0
  units : Nat := 0
  sealed : Bool := false
  bytes : Tab Byte := []
  queue : List RunReq := []
  lastSeq : Nat := 0
  run : Option Run := none
  deriving DecidableEq, Repr

/-! ### Partitions -/

/-- Partition states (R117), and the two that a SUSPEND or PDESTROY under way passes through. -/
inductive PartSt where
  | free | opened | active | suspending | suspended | destroying
  deriving DecidableEq, Repr

/-- A partition (R117 to R122, R127 to R129, R165, R243, R329, R334, R337, R454). `cores` lists the virtual cores in order:
logical core and whether it is retired; `frozenAt` the core cycle of each of its dies when it froze, and `shownPorts` the port table
entries that its view shows. -/
structure Partition where
  st : PartSt := .free
  weight : Nat := 1
  wdog : Nat := 24
  priv : Bool := false
  frozen : Bool := false
  frozenAt : List (Nat × Nat) := []
  image : Option (List Byte) := none
  dataFn : Option Nat := none
  eventFn : Option Nat := none
  share : Nat := 0
  asidBase : Nat := 0
  asidCount : Nat := 0
  cores : List (Nat × Bool) := []
  roots : Tab Nat := []
  spill : Option (Nat × Nat) := none
  codeImage : Tab Byte := []
  frseq : Nat := 0
  lostRecords : Nat := 0
  faultQ : List (Nat × List Byte) := []
  diags : List (Nat × List Byte) := []
  credit : Nat := 0
  viewVer : Nat := 0
  shownPorts : List Nat := []
  cmd : Option (Nat × Nat) := none
  endCmd : Option (Nat × Nat) := none
  deriving DecidableEq, Repr

/-! ### Fabric engines (chapter 06) -/

/-- A trigger counter (R174). -/
structure Counter where
  value : BitVec 48 := 0
  err : Byte := 0
  ovf : Bool := false
  deriving DecidableEq, Repr

/-- Posted-entry states (R180). -/
inductive EntState where
  | free | posted | queued | inflight
  deriving DecidableEq, Repr

/-- What a step of a collective waits for beside its threshold, so that no order of arrival shows (R194): bytes with the size of their
elements and the contributions that each must have taken, none where a PUT must have brought them; a counter value at which every
step of the others has been counted ends the wait (DESIGN CHOICE, log entry 35). -/
structure Gate where
  full : Nat
  parts : List (Nat × Nat × Nat × Nat)
  deriving DecidableEq, Repr

/-- What ends with a collective: the half that is cleared, with the type whose clearing leaves +0 there and whether its next
contributions are taken as they are, and the buffer whose bytes count as brought no more (R193) (DESIGN CHOICE, log entry 35). -/
structure Finish where
  clear : Option (AccTy × Nat × Nat)
  fresh : Bool
  recv : Nat × Nat
  deriving DecidableEq, Repr

/-- A posted entry: its 64 bytes, threshold as REARM has moved it, REARM as NCAN has left it, messages still out, the status
so far, and the RNOTE step (R178 to R185). Of a collective's entry, `finish` is what the last but one ends (R193), `err` the error
word's address with the rank, `errCtr` the collective's completion counter (R195), `tree` its tree identifier (R196), `gate` what it
waits for, and `brought` that it sends only bytes that a PUT has brought (DESIGN CHOICE, log entry 35). `poster` is the fibre that
posted it (R281). -/
structure Entry where
  st : EntState := .free
  part : Nat := 0
  img : List Byte := []
  thresh : Nat := 0
  rearm : Bool := false
  left : Nat := 0
  status : Nat := 0
  noting : Bool := false
  finish : Option Finish := none
  err : Option (Nat × Nat) := none
  errCtr : Nat := 0xFFFF
  tree : Nat := 0
  gate : Option Gate := none
  brought : Bool := false
  poster : Option (Nat × Nat × Nat) := none
  deriving DecidableEq, Repr

/-- An item of a partition's network queue on a die (R184): a fired entry, a fibre's operation, or a graph node. -/
inductive NetItem where
  | entry (e : Nat)
  | op (id : Nat)
  | node (handle node : Nat)
  deriving DecidableEq, Repr

/-- Who waits for an answer to a message or host transfer. -/
inductive Waiter where
  | entry (die e : Nat)
  | cmd (core id : Nat)
  | op (id : Nat)
  | node (handle node : Nat)
  deriving DecidableEq, Repr

/-- What is to be done to a line: a die's store of bytes, or an operation at its home (R84, R186, R249). -/
inductive LineWork where
  | store (pa : Nat) (bytes : List Byte)
  | put (mask : BitVec 256) (data : List Byte)
  | get (pa n : Nat) (dst : Option (Space × Nat))
  | accp (afmt : Nat) (img : Bool) (mask : BitVec 256) (data : List Byte)
  | atom (pa afmt opnd cmpv : Nat) (dst : Option (Space × Nat))
  deriving DecidableEq, Repr

/-- Who is told when it has been done: a waiting party, or the sender of a message. -/
inductive Teller where
  | waiter (w : Waiter)
  | sender (port ttag : Nat) (m : Msg)
  deriving DecidableEq, Repr

/-- Work on a line that waits until it may be done (R68, R242, R249): by which die, and for which partition
(DESIGN CHOICE, log entry 30). -/
structure LineJob where
  die : Nat
  part : Nat
  line : Nat
  work : LineWork
  tells : Teller
  deriving DecidableEq, Repr

/-- An outstanding non-coherent request (R73): port, tag, who waits, and where answered data goes (space, address, length); `held`
holds its messages while the port is being moved to a new peer (R63). -/
structure NetReq where
  port : Nat
  ttag : Nat
  mtag : Nat
  who : Waiter
  dst : Option (Space × Nat) := none
  len : Nat := 0
  lane : Nat := 255
  va : Nat := 0
  held : List Msg := []
  deriving DecidableEq, Repr

/-- A release of counter blocks under way (R175): die, partition, blocks, and the command to answer. -/
structure Release where
  die : Nat
  part : Nat
  blocks : List Nat
  cmd : Option (Nat × Nat)
  deriving DecidableEq, Repr

/-- An entry of the module's reduction table (R196). -/
structure Tree where
  id : Nat
  part : Nat
  ttag : Nat
  parent : Option (Nat × Nat)
  children : List (Nat × Nat)
  deriving DecidableEq, Repr

/-! ### Pod coherence (R66 to R72, R253) -/

/-- A pod line held by this module as requester: the partition that asked for it, state, sectors, modified bytes
(DESIGN CHOICE, log entry 78). -/
structure PodLine where
  part : Nat := 0
  st : Moesi := .i
  fill : BitVec 4 := 0
  dirty : BitVec 256 := 0
  bytes : Tab Byte := []
  deriving DecidableEq, Repr

/-- A coherent request sent to another module and not complete: its tag, home, line, kind, and what has arrived (R67, R70). -/
structure PodReq where
  mtag : Nat
  part : Nat
  home : Nat
  line : Nat
  opc : Nat
  granted : Option Nat := none
  data : Bool := false
  deriving DecidableEq, Repr

/-! ### Yilbel ports (chapter 02) -/

/-- Port states (R47). -/
inductive PortSt where
  | down | train | ident | active | drain | hold | verify | fault | disabled
  deriving DecidableEq, Repr

/-- A control message of a port (R46, R48 to R50, R55, R58, R61, R62, R198). A retry request and an acknowledgement say what
they say in their flit's ACKSEQ. -/
inductive Ctl where
  | ack
  | retry
  | training (lane rate : Nat)
  | retrain (rate : Nat)
  | identity (id : Dword) (port : Nat)
  | keyAck (tag : Nat)
  | keyRetire (tag : Nat)
  | quiesceDone
  | carrierLoss
  | heartbeat
  deriving DecidableEq, Repr

/-- What a flit carries (R52). -/
inductive Load where
  | msgs (ms : List Msg)
  | ctl (c : Ctl)
  deriving DecidableEq, Repr

/-- A flit sent and kept for resending (R52, R58). -/
structure SentFlit where
  seq : Nat
  ttag : Nat
  kidx : Nat
  fctr : Nat
  ackseq : Nat
  cchan : Nat
  cgran : Nat
  load : Load
  resends : Nat := 0
  deriving DecidableEq, Repr

/-- A port (R47 to R64, R74). Key tables hold entry 2 * tag + index; `events` is YPSTAT [16:9] from bit 0 up; `inUse` and `rxUse`
are the index in use of each tag in the two directions, `rekeys` the tags between steps 3 and 6 of R61 with their new index and
whether the peer has acknowledged it, and `rxNew` the tags whose old receive key is not retired yet. `txSeq` is the SEQ of the
next flit sent and `rxSeq` that of the next one expected. `ctl` and `waiting` have not left yet
(DESIGN CHOICE, log entry 98). -/
structure Port where
  st : PortSt := .disabled
  rate : Nat := 0
  lanes : BitVec 2 := 0
  carrier : BitVec 2 := 0
  ktx : Bool := false
  fixed : Bool := false
  events : Byte := 0
  lossDir : Bool := false
  retry : Nat := 0
  peer : Dword := 0
  ownRate : Nat := 0
  peerRate : Nat := 0
  txKeys : Tab (Option (BitVec 256)) := []
  rxKeys : Tab (Option (BitVec 256)) := []
  fctr : Tab Nat := []
  inUse : Tab Nat := []
  rxUse : Tab Nat := []
  rxNew : Tab Bool := []
  rekeys : List (Nat × Nat × Bool) := []
  spent : List Nat := []
  txSeq : Nat := 0
  rxSeq : Nat := 0
  replay : List SentFlit := []
  ctl : List Ctl := []
  waiting : List (Nat × Msg) := []
  used : Tab Nat := []
  owed : Tab Nat := []
  misses : Nat := 0
  silent : Nat := 0
  training : Option Nat := none
  heldRates : List Nat := []
  quiescing : Bool := false
  peerDone : Bool := false
  drainUs : Nat := 100
  holdMs : Nat := 100
  note : List Byte := []
  cmd : Option (Nat × Nat) := none
  deriving DecidableEq, Repr

/-! ### Host functions and the Ethernet port (chapter 03) -/

/-- A queue pair: its error state, its sending rate, where 81,920 is the full rate, and the tick of the last CNP sent (R81, R82). -/
structure Qp where
  error : Bool := false
  rate : Nat := 81920
  lastCnp : Option Nat := none
  deriving DecidableEq, Repr

/-- A memory window (R83). -/
structure MemWin where
  perms : BitVec 3
  key : Word
  base : Nat
  len : Nat
  asid : Nat
  deriving DecidableEq, Repr

/-- A host function (R78 to R102): `top` is the highest SEQ accepted, bit k of `seen` tells that SEQ top - 1 - k was accepted,
`busy` lists commands in progress with the address and port to answer, `cache` the last 64 responses, and `qpsDown` tells that every
queue pair is in its error state since its partition was destroyed (R108). -/
structure Func where
  part : Option Nat := none
  key : Option (BitVec 256) := none
  newKey : Option (BitVec 256) := none
  keyCmd : Option (Nat × Nat) := none
  top : Nat := 0
  seen : BitVec 64 := 0
  busy : List (Nat × Nat × Nat) := []
  cache : List (Nat × Nat × List Byte) := []
  lastAddr : Option (Nat × Nat) := none
  events : List (Nat × List Byte) := []
  evseq : Nat := 0
  dropped : Nat := 0
  qps : Tab Qp := []
  qpsDown : Bool := false
  windows : Tab (Option MemWin) := []
  targets : Tab (Option HostTarget) := []
  ip4 : Nat := 0
  ip6 : Nat := 0
  deriving DecidableEq, Repr

/-- What the Ethernet port has sent: the model's record, oldest first (R77, R81 to R87, R93, R101)
(DESIGN CHOICE, log entry 92) (DESIGN CHOICE, log entry 98). -/
inductive EthMsg where
  | note (func ip udp evseq : Nat)
  | reply (func ip udp seq status : Nat) (payload : List Byte)
  | ack (func qp : Nat)
  | readResp (func qp : Nat) (data : List Byte)
  | atomicResp (func qp : Nat) (old : Nat)
  | nakInvalid (func qp : Nat)
  | nakAccess (func qp : Nat)
  | nakOperational (func qp : Nat)
  | cnp (func qp : Nat)
  | write (func qp tag : Nat) (key : Word) (addr : Nat) (data : List Byte)
  | read (func qp tag : Nat) (key : Word) (addr len : Nat)
  | arpReply (func ip : Nat)
  | neighbourReply (func ip : Nat)
  deriving DecidableEq, Repr

/-- A device transfer to or from a host that is not answered (R87): tag, queue pair, who waits, where read data goes, its request, and
whether that has been sent (R76, R81). -/
structure HostOp where
  func : Nat
  qp : Nat
  tag : Nat
  who : Waiter
  index : Nat
  offset : Nat
  dst : Option (Space × Nat) := none
  len : Nat := 0
  msg : EthMsg
  sent : Bool := false
  deriving DecidableEq, Repr

/-- What a host's request does (R81, R84). -/
inductive RdmaKind where
  | write | read | compareSwap | fetchAdd
  deriving DecidableEq, Repr

/-- A host request whose window has been checked and that has not performed: the memory that it reaches, and how many parts of a write
are done (R83, R85, R108). -/
structure RdmaHeld where
  kind : RdmaKind
  req : RdmaReq
  pieces : List (Nat × Nat)
  done : Nat := 0
  deriving DecidableEq, Repr

/-! ### Module and wafer (chapters 01, 04) -/

/-- What holds the module freeze (R337). -/
inductive FreezeCause where
  | orderSlot | dark | trip
  deriving DecidableEq, Repr

/-- Service states of a logical core (R33). -/
inductive Serv where
  | inService | quarantined | retired | isolated | fenced
  deriving DecidableEq, Repr

/-- A Cairn map entry and the state of its logical core; `sick` tells that it has been quarantined, so that its workgroups leave it even
once it is retired (R33, R112, R113, R138). -/
structure CairnEnt where
  pdie : Nat := 0
  pcore : Nat := 0
  partner : Option Nat := none
  cfeat : BitVec 16 := 0
  serv : Serv := .inService
  sick : Bool := false
  deriving DecidableEq, Repr

/-- A physical die (R22, R24, R29 to R32, R33): its table state, logical number, wavelength group, sensors, throttle parts, and the
sixteenths of core cycles that it had run at a tick (R31). Before bring-up has written the group map, the group is 0
(DESIGN CHOICE, log entry 4). -/
structure Die where
  st : Nat := 1
  logical : Option Nat := none
  group : Nat := 0
  remaps : Nat := 0
  sensors : Tab Half := []
  hot : Byte := 0
  trip : Bool := false
  warn : Bool := false
  kTherm : Nat := 0
  kPower : Nat := 0
  soft : Nat := 0
  pgret : Nat := 0
  silentFrom : Option Nat := none
  run16 : Nat := 0
  since : Nat := 0
  deriving DecidableEq, Repr

/-- An announced remap: die, old and new group, frame (R25). -/
structure Remap where
  die : Nat
  old : Nat
  new : Nat
  frame : Nat
  deriving DecidableEq, Repr

/-- The firmware staging store (R104). -/
structure Staging where
  total : Nat := 0
  bytes : Tab Byte := []
  parts : List (Nat × Nat) := []
  verified : Option (List Byte) := none
  deriving DecidableEq, Repr

/-- The Basecamp controller and the wafer as a whole (R24 to R41, R76, R77, R82, R104, R105, R133 to R135, R181, R337): `pauses` are the
priorities that the link partner has paused among those of `pfc`, and `txPrio` is the one that the module sends on; `blown` is the
count of blown fuse bits and `secVersion` that of the image that runs; `table` holds the active table's routes and `oldTable` those of
the one before it while flits of its epoch remain; `vc4` the detour flits that have crossed a link direction of late, with their tick;
`askedOff` that the tray has been asked to remove power (DESIGN CHOICE, log entry 4) (DESIGN CHOICE, log entry 110). -/
structure Module where
  power : Bool := true
  ready : Bool := false
  unusable : Bool := false
  recovery : Bool := false
  frozen : Option FreezeCause := none
  image : Option (List Byte) := none
  lantern : Byte := 0xFF
  frameSensors : Tab Half := []
  dies : Tab Die := []
  remaps : List Remap := []
  fieldFenced : List Nat := []
  rtver : Nat := 0
  epoch : Bool := false
  pendingTable : Option RouteCheck := none
  nextTable : Option RouteCheck := none
  table : List Route := []
  oldTable : Option (List Route) := none
  vc4 : List (Nat × Nat × Nat) := []
  askedOff : Bool := false
  isolated : List Nat := []
  deferred : List Datagram := []
  routes : Tab Nat := []
  ethDown : Bool := false
  pfc : Byte := 0xFF
  txPrio : Nat := 0
  pauses : Byte := 0
  rateMin : Nat := 0
  rateStep : Nat := 4096
  ethDiscards : Nat := 0
  authFails : Nat := 0
  belowWindow : Nat := 0
  detours : Nat := 0
  staging : Staging := {}
  blown : Nat := 0
  secVersion : Nat := 0
  measurements : List (BitVec 256) := []
  identityIx : Nat := 0
  identityLeft : Nat := 2 ^ 20
  sessionLeft : Nat := 0
  sessionBusy : Bool := false
  heartbeat : Nat := 0
  deriving DecidableEq, Repr

/-- The whole machine. `agenda`, `focus`, `held`, `free`, `nextId` and `nextWg` are the model's own; `rx` and `inbox` hold datagrams
and messages received and not yet served, `rdmaHeld` host requests whose lines other modules hold, `errWords` error words whose
lines they hold (partition, ASID, address, dword; R68), `jobs` work on lines that waits for them, `podShut` messages that wait for
an order to be made good (R261), `sums` how many ACCPs an element has taken since it was cleared, `fresh` the elements whose next
contribution is taken as it is, and `landed` the bytes that PUTs have brought (DESIGN CHOICE, log entry 35), and `ethWait` what waits for the
Ethernet link (R76) (DESIGN CHOICE, log entry 98) (DESIGN CHOICE, log entry 103). -/
structure State where
  agenda : List Instr := []
  rx : List Datagram := []
  inbox : List (Nat × Nat × Msg) := []
  tick : Nat := 0
  focus : Option Focus := none
  held : List (Nat × Nat × Nat × Nat) := []
  free : Nat := 0
  nextId : Nat := 0
  nextWg : Nat := 0
  base : Module := {}
  cairn : Tab CairnEnt := []
  parts : Tab Partition := []
  graphs : Tab (Option Graph) := []
  nextHandle : Nat := 1
  roundNext : Nat := 0
  wgs : Tab (Option Workgroup) := []
  cores : Tab Core := []
  pipe : List PipeOp := []
  mem : Tab Byte := []
  owner : Tab Nat := []
  failing : Tab Bool := []
  reported : Tab Bool := []
  tlb : List TlbEnt := []
  l1tlb : Tab (List TlbEnt) := []
  walks : List (Nat × Nat × Nat) := []
  walkFails : List WalkFail := []
  invs : List (Nat × Nat × List Nat) := []
  lines : Tab DieLine := []
  l1 : Tab L1Line := []
  homes : Tab Home := []
  orderQ : List OrderReq := []
  mesh : List MeshData := []
  jobs : List LineJob := []
  accs : Tab (Option AccEnt) := []
  sums : Tab Nat := []
  fresh : List (Nat × Nat) := []
  landed : Tab (BitVec 256) := []
  bwins : Tab (Option BWin) := []
  writers : List (Nat × Nat × Nat × Nat) := []
  counters : Tab Counter := []
  ctrBlocks : Tab Nat := []
  entries : Tab Entry := []
  netQ : Tab (List NetItem) := []
  netReqs : List NetReq := []
  releases : List Release := []
  trees : List Tree := []
  ttags : Tab Nat := []
  podDir : Tab (BitVec 16) := []
  podLines : Tab PodLine := []
  podReqs : List PodReq := []
  podAwait : Tab (BitVec 16) := []
  podExcl : Tab Nat := []
  podHeld : List (Nat × Nat × Msg) := []
  podShut : List (Nat × Nat × Msg) := []
  ports : Tab Port := []
  funcs : Tab Func := []
  hostOps : List HostOp := []
  rdmaHeld : List RdmaHeld := []
  errWords : List (Nat × Nat × Nat × Nat) := []
  ethWait : List EthMsg := []
  ethOut : List EthMsg := []
  deriving DecidableEq, Repr

/-- The module right after reset, before the bring-up of R40 has run: it is not ready, no die is good, no partition exists,
and memory holds nothing. INVENTORY.md and DESIGN CHOICE, log entry 4 give each field's value
(DESIGN CHOICE, log entry 96) (DESIGN CHOICE, log entry 103). -/
def State.reset : State := {}

/-- Why the model stops (DESIGN CHOICE, log entry 103). -/
inductive Fault where
  /-- Raised by the meaning of an Aelax instruction run where no fibre is in focus: the manual gives no such state, and the
  step never presents one. Safe: a claim about the machine cannot rest on it. -/
  | noFibre
  deriving DecidableEq, Repr

/-- Why the model gives no meaning. -/
inductive Refusal where
  /-- Raised by an arm of Dispatch whose instruction has no meaning yet. Safe: nothing is claimed about it. -/
  | notModelled (mnemonic : String)
  deriving DecidableEq, Repr

end Sys2Proof.Machine
end

