-- ==== Sys2Proof/Machine/Formats.lean ====
section
/-! DEFINITION. Format slots: format codes, the coordinate generator, dithering, quantisation and the storage of narrow rows
(R297 to R302, R313 to R318). -/

namespace Sys2Proof

/-- The format of a TYPE (R355). -/
def FType.fmt : FType → Machine.Fmt
  | .f32 => .fp32
  | .f64 => .fp64
  | .f16 => .fp16
  | .bf16 => .bf16

end Sys2Proof

namespace Sys2Proof.Machine

/-- The format of a slot; INT8 under a block scale is MXINT8 (R297, R298, R301). -/
def FmtSlot.format (fs : FmtSlot) : Option Fmt :=
  match fs.fmt with
  | 0x01 => some .e4m3
  | 0x02 => some .e5m2
  | 0x03 => some .e3m2
  | 0x04 => some .e2m3
  | 0x05 => some .e2m1
  | 0x06 => some (if fs.bsz then .int8x else .int8)
  | 0x07 => some .int4
  | 0x08 => some .tern
  | 0x10 => some .bf16
  | 0x11 => some .fp16
  | 0x12 => some .fp32
  | 0x13 => some .fp64
  | _ => none

/-- The wide formats (R297). -/
def Fmt.isWide : Fmt → Bool
  | .bf16 | .fp16 | .fp32 | .fp64 => true
  | _ => false

/-- Rotate a word left (R13). -/
def rotl32 (x : Word) (n : Nat) : Word := (x <<< n) ||| (x >>> (32 - n))

/-- One pass of the coordinate generator. -/
def kindlePass (x0 x1 : Word) (rot : Nat) : Word × Word :=
  let x0 := x0 + x1
  (x0, rotl32 x1 rot ^^^ x0)

/-- Successive passes. -/
def kindlePasses (x : Word × Word) : List Nat → Word × Word
  | [] => x
  | r :: rs => kindlePasses (kindlePass x.1 x.2 r) rs

/-- kindle(key, ctr) (R313). -/
def kindle (key ctr : Dword) : Word :=
  let k0 : Word := key.truncate 32
  let k1 : Word := (key >>> 32).truncate 32
  let k2 := k0 ^^^ k1 ^^^ 0xA3C59AC3
  let x := kindlePasses (ctr.truncate 32 + k0, (ctr >>> 32).truncate 32 + k1) [13, 15, 26, 6]
  let x := kindlePasses (x.1 + k1, x.2 + k2 + 1) [17, 29, 16, 24]
  (x.1 + k2) ^^^ (x.2 + k0 + 2)

/-- The counter of coordinates (row, col) (R313). -/
def coordCtr (row col : Word) : Dword := row ++ col

/-- The coordinates of storage indices (i, j), with an origin and a transpose bit (R318). -/
def mapCoords (fs : FmtSlot) (row0 col0 : Word) (tb : Bool) (i j : Nat) : Word × Word :=
  let i : Word := BitVec.ofNat 32 i
  let j : Word := BitVec.ofNat 32 j
  let m (a b : BitVec 16) : Word := (if tb then b else a).signExtend 32
  (row0 + m fs.m00 fs.m01 * i + m fs.m01 fs.m00 * j, col0 + m fs.m10 fs.m11 * i + m fs.m11 fs.m10 * j)

/-- u times 256 at (row, col): the low byte of the generator less 128; 0 when DITH is clear (R314). -/
def dither256 (fs : FmtSlot) (row col : Word) : Int :=
  if fs.dith then ((kindle fs.key (coordCtr row col)).toNat % 256 : Nat) - 128 else 0

/-- Adding a signed multiple of 2^e to a finite value. -/
def addSigned (x : FVal) (k : Int) (e : Int) : FVal :=
  match x with
  | .fin n m g =>
    if k == 0 then x
    else
      let lo := min e g
      ofSigned (alignTo n m g lo + k * 2 ^ (e - lo).toNat) lo
  | x => x

/-- The reconstructed value of a code with the given dither (R314): exact; a NaN or infinity has nothing subtracted, and a
dithered -0 code acts as +0. -/
def recon (f : Fmt) (u256 : Int) (dith : Bool) (code : Nat) : FVal :=
  let x := decodeVal f code
  if dith then
    match x with
    | .fin _ 0 e => addSigned (.fin false 0 e) (-u256) (ulpExp f code - 8)
    | x => addSigned x (-u256) (ulpExp f code - 8)
  else x

/-- The distance of y from a candidate's reconstructed value, as a magnitude at exponent `lo`. -/
def reconDist (f : Fmt) (u256 : Int) (y : Int) (lo : Int) (code : Nat) : Nat :=
  match recon f u256 true code with
  | .fin n m e => (y - alignTo n m e lo).natAbs
  | _ => 0

/-- Every finite code except -0, as candidates of R315. -/
def ditherCandidates (f : Fmt) : List Nat :=
  match f with
  | .tern => [0, 1, 2]
  | f => (List.range (2 ^ f.width)).filter fun c =>
      match decodeVal f c with
      | .fin n m _ => !(n && m == 0)
      | _ => false

/-- The candidate nearest to y; a tie goes to the code with bit 0 clear, for TERN to digit 1. -/
def nearestCode (f : Fmt) (u256 : Int) (y : Int) (lo : Int) : List Nat → Nat × Nat → Nat
  | [], best => best.1
  | c :: cs, best =>
    let d := reconDist f u256 y lo c
    let tie := if f == .tern then c == 1 else c % 2 == 0
    if d < best.2 || (d == best.2 && tie) then nearestCode f u256 y lo cs (c, d) else nearestCode f u256 y lo cs best

/-- A dithered quantisation of y (R315); a value beyond the end codes by more than half a step overflows under R304. -/
def ditherQuant (f : Fmt) (sat ftzo : Bool) (u256 : Int) (y : FVal) : Nat × FpFlags :=
  match y with
  | .fin n m e =>
    let lo := min e (f.gridMin - 9)
    let yi := alignTo n m e lo
    let cs := ditherCandidates f
    let c := nearestCode f u256 yi lo cs (cs.headD 0, reconDist f u256 yi lo (cs.headD 0))
    let beyond (code : Nat) (up : Bool) : Bool :=
      match recon f u256 true code with
      | .fin n m e =>
        let r := alignTo n m e lo
        let half : Int := 2 ^ (ulpExp f code - 1 - lo).toNat
        if up then decide (r + half < yi) else decide (yi < r - half)
      | _ => false
    if beyond (f.maxCode false) true then (overflowCode f .rne sat false, fpOF)
    else if beyond (f.maxCode true) false then (overflowCode f .rne sat true, fpOF)
    else if ftzo && isSubnormal f c then (f.zeroCode false, fpUF)
    else (c, 0)
  | y => roundVal f .rne sat ftzo y

/-- A quantisation through a slot at (row, col), dithered or rounded under the mode (R315). -/
def quantise (fs : FmtSlot) (f : Fmt) (mode : Rm) (ftzo : Bool) (row col : Word) (y : FVal) : Nat × FpFlags :=
  if fs.dith then ditherQuant f fs.sat ftzo (dither256 fs row col) y else roundVal f mode fs.sat ftzo y

/-- A value times the block scale of code s; 255 gives NaN (R301). -/
def blockScale (bsz : Bool) (s : Nat) (x : FVal) : FVal :=
  if bsz then (if s % 256 == 255 then .nan else x.scale ((s % 256 : Nat) - 127)) else x

/-- A value divided by the block scale of code s (R391). -/
def blockUnscale (bsz : Bool) (s : Nat) (x : FVal) : FVal :=
  if bsz then (if s % 256 == 255 then .nan else x.scale (127 - (s % 256 : Nat))) else x

/-- EMAX of the hardware block scale (R302). -/
def Fmt.emax : Fmt → Int
  | .e4m3 => 8
  | .e5m2 => 15
  | .e3m2 => 4
  | .e2m3 | .e2m1 | .int4 => 2
  | _ => 0

/-- The largest magnitude of finite values, as floor(log2); none when all are zero. -/
def maxLog2 : List FVal → Option Int
  | [] => none
  | .fin _ m e :: xs =>
    if m == 0 then maxLog2 xs
    else
      let l : Int := (Nat.log2 m : Int) + e
      match maxLog2 xs with
      | none => some l
      | some k => some (max k l)
  | _ :: xs => maxLog2 xs

/-- The hardware scale code of a block (R302). -/
def blockScaleCode (f : Fmt) (xs : List FVal) : Nat :=
  if xs.any (fun x => x.isNan || x.isInf) then 255
  else
    match maxLog2 xs with
    | none => 127
    | some l => (max (-127) (min 127 (l - f.emax)) + 127).toNat

/-- Digit k of a TERN byte (R299); a reserved byte decodes as five digits of 1. -/
def ternDigit (b k : Nat) : Nat := if b > 242 then 1 else b / 3 ^ k % 3

/-- The code of element j of a row of bytes (R300); `plane` is the distance of the 2-bit plane. -/
def rowCode (f : Fmt) (plane : Nat) (byte : Nat → Nat) (j : Nat) : Nat :=
  match f with
  | .e4m3 | .e5m2 | .int8 | .int8x => byte j
  | .e2m1 | .int4 => byte (j / 2) / 16 ^ (j % 2) % 16
  | .e3m2 | .e2m3 => byte (j / 2) / 16 ^ (j % 2) % 16 * 4 + byte (plane + j / 4) / 4 ^ (j % 4) % 4
  | .tern => ternDigit (byte (j / 5)) (j % 5)
  | .bf16 | .fp16 => byte (2 * j) + 256 * byte (2 * j + 1)
  | .fp32 => byte (4 * j) + 256 * byte (4 * j + 1) + 65536 * byte (4 * j + 2) + 16777216 * byte (4 * j + 3)
  | .fp64 => (List.range 8).foldr (fun k x => byte (8 * j + k) + 256 * x) 0

/-- Groups of a list of codes combined into bytes: `n` codes per byte in a given base. -/
def packCodes (base n : Nat) : Nat → List Nat → List Byte
  | 0, _ => []
  | k + 1, cs => BitVec.ofNat 8 ((cs.take n).foldr (fun c x => c + base * x) 0) :: packCodes base n k (cs.drop n)

/-- The stored bytes of a row of 32 codes, as (offset from the row's start, byte) (R300, R439): the last TERN byte holds
digit 1 in its unused positions. -/
def rowBytes (f : Fmt) (plane : Nat) (cs : List Nat) : List (Nat × Byte) :=
  let at0 (lo : Nat) (bs : List Byte) : List (Nat × Byte) := (List.range bs.length).zipWith (fun i b => (lo + i, b)) bs
  match f with
  | .e4m3 | .e5m2 | .int8 | .int8x => at0 0 (packCodes 256 1 32 cs)
  | .e2m1 | .int4 => at0 0 (packCodes 16 2 16 cs)
  | .e3m2 | .e2m3 => at0 0 (packCodes 16 2 16 (cs.map (· / 4))) ++ at0 plane (packCodes 4 4 8 (cs.map (· % 4)))
  | .tern => at0 0 (packCodes 3 5 7 (cs ++ [1, 1, 1]))
  | .bf16 | .fp16 => at0 0 (cs.flatMap (leBytes 2))
  | .fp32 => at0 0 (cs.flatMap (leBytes 4))
  | .fp64 => at0 0 (cs.flatMap (leBytes 8))

end Sys2Proof.Machine
end

