-- ==== Sys2Proof/Machine/Lens.lean ====
section
/-! DEFINITION. Named reads and writes of the parts of State: workgroups, slots, fibres, cores, partitions, and the bytes of
package memory. -/

namespace Sys2Proof.Machine

/-! ### Workgroups, slots, fibres -/

/-- A workgroup by number. -/
def State.wg (s : State) (i : Nat) : Workgroup := (Tab.get none s.wgs i).getD {}
/-- Write a workgroup. -/
def State.setWg (s : State) (i : Nat) (w : Workgroup) : State := { s with wgs := Tab.set none s.wgs i (some w) }
/-- Remove a workgroup. -/
def State.dropWg (s : State) (i : Nat) : State := { s with wgs := Tab.set none s.wgs i none }

/-- A slot of a workgroup. -/
def Workgroup.slot (w : Workgroup) (k : Nat) : SlotSt := Tab.get {} w.slots k
/-- Write a slot. -/
def Workgroup.setSlot (w : Workgroup) (k : Nat) (x : SlotSt) : Workgroup := { w with slots := Tab.set {} w.slots k x }
/-- A fibre of a slot. -/
def SlotSt.fib (x : SlotSt) (k : Nat) : Fibre := Tab.get {} x.fibres k
/-- Write a fibre. -/
def SlotSt.setFib (x : SlotSt) (k : Nat) (f : Fibre) : SlotSt := { x with fibres := Tab.set {} x.fibres k f }

/-- A slot by workgroup and slot number. -/
def State.slot (s : State) (w k : Nat) : SlotSt := (s.wg w).slot k
/-- Write a slot by workgroup and slot number. -/
def State.setSlot (s : State) (w k : Nat) (x : SlotSt) : State := s.setWg w ((s.wg w).setSlot k x)
/-- Change a slot. -/
def State.modSlot (s : State) (w k : Nat) (g : SlotSt → SlotSt) : State := s.setSlot w k (g (s.slot w k))
/-- A fibre by workgroup, slot and fibre number. -/
def State.fib (s : State) (w k f : Nat) : Fibre := (s.slot w k).fib f
/-- Write a fibre. -/
def State.setFib (s : State) (w k f : Nat) (x : Fibre) : State := s.setSlot w k ((s.slot w k).setFib f x)
/-- Change a fibre. -/
def State.modFib (s : State) (w k f : Nat) (g : Fibre → Fibre) : State := s.setFib w k f (g (s.fib w k f))

/-- The focus fibre. -/
def State.fibOf (s : State) (f : Focus) : Fibre := s.fib f.wg f.slot f.fib
/-- Change the focus fibre. -/
def State.modFibOf (s : State) (f : Focus) (g : Fibre → Fibre) : State := s.modFib f.wg f.slot f.fib g

/-- A barrier. -/
def Workgroup.bar (w : Workgroup) (n : Nat) : Bar := Tab.get {} w.bars n
/-- Write a barrier. -/
def Workgroup.setBar (w : Workgroup) (n : Nat) (b : Bar) : Workgroup := { w with bars := Tab.set {} w.bars n b }
/-- A tile. -/
def Workgroup.tile (w : Workgroup) (n : Nat) : Tile := Tab.get {} w.tiles n
/-- Write a tile. -/
def Workgroup.setTile (w : Workgroup) (n : Nat) (t : Tile) : Workgroup := { w with tiles := Tab.set {} w.tiles n t }
/-- An accumulator word: 1,024 words per accumulator (R157, R229, R434). -/
def Workgroup.accWord (w : Workgroup) (acc i : Nat) : Word := Tab.get 0 w.accs (1024 * acc + i)
/-- Write an accumulator word. -/
def Workgroup.setAccWord (w : Workgroup) (acc i : Nat) (x : Word) : Workgroup :=
  { w with accs := Tab.set 0 w.accs (1024 * acc + i) x }
/-- The role of a fibre. -/
def Workgroup.role (w : Workgroup) (n : Nat) : Role := w.launch.roles.getD n {}
/-- A format slot of the launch (R316). -/
def Workgroup.fmtSlot (w : Workgroup) (n : Nat) : FmtSlot := w.launch.fmts.getD n {}
/-- The logical die where the workgroup runs (R111). -/
def Workgroup.die (w : Workgroup) : Nat := w.lcore / 48

/-- A core. -/
def State.core (s : State) (c : Nat) : Core := Tab.get {} s.cores c
/-- Write a core. -/
def State.setCore (s : State) (c : Nat) (x : Core) : State := { s with cores := Tab.set {} s.cores c x }
/-- Change a core. -/
def State.modCore (s : State) (c : Nat) (g : Core → Core) : State := s.setCore c (g (s.core c))

/-- A partition. -/
def State.part (s : State) (p : Nat) : Partition := Tab.get {} s.parts p
/-- Write a partition. -/
def State.setPart (s : State) (p : Nat) (x : Partition) : State := { s with parts := Tab.set {} s.parts p x }
/-- Change a partition. -/
def State.modPart (s : State) (p : Nat) (g : Partition → Partition) : State := s.setPart p (g (s.part p))

/-- The logical dies that hold a partition's cores, in ascending order (R127). -/
def Partition.dies (p : Partition) : List Nat := (List.range 80).filter fun d => p.cores.any fun c => c.1 / 48 == d

/-- A host function. -/
def State.func (s : State) (f : Nat) : Func := Tab.get {} s.funcs f
/-- Write a host function. -/
def State.setFunc (s : State) (f : Nat) (x : Func) : State := { s with funcs := Tab.set {} s.funcs f x }

/-- A counter of a die's fabric engine. -/
def State.counter (s : State) (die c : Nat) : Counter := Tab.get {} s.counters (4096 * die + c)
/-- Write a counter. -/
def State.setCounter (s : State) (die c : Nat) (x : Counter) : State :=
  { s with counters := Tab.set {} s.counters (4096 * die + c) x }
/-- A posted entry. -/
def State.entry (s : State) (die e : Nat) : Entry := Tab.get {} s.entries (16384 * die + e)
/-- Write a posted entry. -/
def State.setEntry (s : State) (die e : Nat) (x : Entry) : State :=
  { s with entries := Tab.set {} s.entries (16384 * die + e) x }
/-- A partition's network queue on a die. -/
def State.net (s : State) (die part : Nat) : List NetItem := Tab.get [] s.netQ (32 * die + part)
/-- Write a network queue. -/
def State.setNet (s : State) (die part : Nat) (q : List NetItem) : State :=
  { s with netQ := Tab.set [] s.netQ (32 * die + part) q }
/-- The owner of a counter or entry block of a die, plus one; 0 for none (R175). -/
def State.blockOwner (s : State) (die block : Nat) : Nat := Tab.get 0 s.ctrBlocks (64 * die + block)
/-- A graph by handle. -/
def State.graph (s : State) (h : Nat) : Option Graph := Tab.get none s.graphs h
/-- Write a graph. -/
def State.setGraph (s : State) (h : Nat) (g : Option Graph) : State := { s with graphs := Tab.set none s.graphs h g }
/-- Change a graph that exists. -/
def State.modGraph (s : State) (h : Nat) (f : Graph → Graph) : State :=
  match s.graph h with
  | none => s
  | some g => s.setGraph h (some (f g))
/-- A node of a run, by its offset. -/
def Run.node (r : Run) (n : Nat) : NodeRun := Tab.get {} r.nodes n
/-- Change a node of a run. -/
def Run.modNode (r : Run) (n : Nat) (f : NodeRun → NodeRun) : Run := { r with nodes := Tab.modify {} r.nodes n f }
/-- Change a node of a graph's active run. -/
def State.modNode (s : State) (h n : Nat) (f : NodeRun → NodeRun) : State :=
  s.modGraph h fun g => { g with run := g.run.map fun r => r.modNode n f }
/-- A Yilbel port. -/
def State.port (s : State) (p : Nat) : Port := Tab.get {} s.ports p
/-- Write a port. -/
def State.setPort (s : State) (p : Nat) (x : Port) : State := { s with ports := Tab.set {} s.ports p x }
/-- A Cairn map entry. -/
def State.cairnOf (s : State) (c : Nat) : CairnEnt := Tab.get {} s.cairn c
/-- Write a Cairn map entry. -/
def State.setCairn (s : State) (c : Nat) (x : CairnEnt) : State := { s with cairn := Tab.set {} s.cairn c x }
/-- A physical die. -/
def State.die (s : State) (d : Nat) : Die := Tab.get {} s.base.dies d
/-- Write a physical die. -/
def State.setDie (s : State) (d : Nat) (x : Die) : State :=
  { s with base := { s.base with dies := Tab.set {} s.base.dies d x } }
/-- The physical die of a logical die. -/
def State.physDie (s : State) (l : Nat) : Option Nat :=
  (s.base.dies.find? fun x => x.2.logical == some l).map (·.1)

/-- Module time in ns since reset (R12, R327): a tick is one core cycle of 0.625 ns (DESIGN CHOICE, log entry 3). -/
def State.stamp (s : State) : Nat := s.tick * 5 / 8

/-- The frame in progress (R12). -/
def State.frame (s : State) : Nat := s.stamp / 16

/-- The throttle step of a die: the larger of its two parts (R30). -/
def Die.step (d : Die) : Nat := max d.kTherm d.kPower

/-- The sixteenths of core cycles that a die has run at a tick: at step k it runs 16 − k cycles in 16 ticks (R30, R31). -/
def Die.run (d : Die) (tick : Nat) : Nat := d.run16 + (tick - d.since) * (16 - d.step)

/-- Change a die at a tick, keeping the cycles that it has run. -/
def Die.retime (d : Die) (tick : Nat) (f : Die → Die) : Die := { f d with run16 := d.run tick, since := tick }

/-- The die record of a logical die. -/
def State.dieOf (s : State) (l : Nat) : Die :=
  match s.physDie l with
  | some p => s.die p
  | none => {}

/-- The core cycle in progress on a logical die (R31) (DESIGN CHOICE, log entry 3). -/
def State.now (s : State) (l : Nat) : Nat := (s.dieOf l).run s.tick / 16

/-- The core cycle in progress where a workgroup runs. -/
def State.wgNow (s : State) (w : Nat) : Nat := s.now (s.wg w).die

/-- Whether a core cycle of a logical die ends with this tick (R31). -/
def State.ticks (s : State) (l : Nat) : Bool := decide (s.now l < (s.dieOf l).run (s.tick + 1) / 16)

/-- Core cycles counted on a core, at its die's step (R31, R452) (DESIGN CHOICE, log entry 3). -/
def State.cyclesOf (s : State) (c : Nat) : Nat := ((s.core c).cyclesBase + (s.now (c / 48) - (s.core c).cycles0)) % 2 ^ 64

/-- The first frame in which a logical die may send on its wavelength group: the next one, or the end of a blackout (R25, R244). -/
def State.sendFrom (s : State) (ldie : Nat) : Nat :=
  match s.physDie ldie with
  | none => s.frame + 1
  | some p =>
    match (s.die p).silentFrom with
    | some f => max (s.frame + 1) (f + 6)
    | none => s.frame + 1

/-! ### Package memory -/

/-- The bytes of package DRAM (R233). -/
def dramBytes : Nat := 0x1E000000000

/-- The canonical form of a memory: rising addresses, and no entry equal to the 0 that an unlisted address reads as. -/
def Memory.wf (m : List Host.Cell) : Bool := Tab.wf (0 : Byte) m

/-- Read one byte (DESIGN CHOICE, log entry 96). -/
def Memory.byte (m : List Host.Cell) (a : Nat) : Byte := Tab.get 0 m a
/-- Write one byte. -/
def Memory.setByte (m : List Host.Cell) (a : Nat) (b : Byte) : List Host.Cell := Tab.set 0 m a b
/-- Read n bytes as a little-endian number (R7). -/
def Memory.read (m : List Host.Cell) (a : Nat) : Nat → Nat
  | 0 => 0
  | n + 1 => (Memory.byte m a).toNat + 256 * Memory.read m (a + 1) n
/-- The n bytes from an address. -/
def Memory.bytes (m : List Host.Cell) (a : Nat) : Nat → List Byte
  | 0 => []
  | n + 1 => Memory.byte m a :: Memory.bytes m (a + 1) n
/-- Write bytes in ascending addresses. -/
def Memory.write (m : List Host.Cell) (a : Nat) : List Byte → List Host.Cell
  | [] => m
  | b :: bs => Memory.write (Memory.setByte m a b) (a + 1) bs

/-- The home die of a physical address (R234). -/
def homeDie (pa : Nat) : Nat := pa / 2 ^ 21 % 80
/-- The line of a physical address (R234). -/
def lineOf (pa : Nat) : Nat := pa / 256
/-- The number under which caches hold a line of a space: a global line under its own, lines of windows and of other modules above all
of those; none for a space that no cache holds (R231) (DESIGN CHOICE, log entry 78). -/
def cacheLine : Space → Nat → Option Nat
  | .global, pa => some (pa / 256)
  | .broadcast, pa => some (2 ^ 38 + pa / 256)
  | .pod m, pa => if pa / 256 < 2 ^ 34 then some (2 ^ 39 + m * 2 ^ 34 + pa / 256) else none
  | _, _ => none

/-- The order lane of a line (R234, R244). -/
def laneOfLine (line : Nat) : Nat := line % 4
/-- The sectors of its line that [pa, pa + n) touches, for n within the line (R235). -/
def sectorsOf (pa n : Nat) : BitVec 4 :=
  let lo := pa % 256 / 64
  let hi := (pa % 256 + n - 1) / 64
  (List.range 4).foldl (fun m k => if lo ≤ k ∧ k ≤ hi then m ||| (1#4 <<< k) else m) 0

/-- The logical dies that are fenced in the field (R141). -/
def State.fencedDies (s : State) : List Nat :=
  s.base.dies.filterMap fun d => if d.2.st == 3 then d.2.logical else none
/-- Whether a logical die lies in an isolated region (R135). -/
def State.isIsolated (s : State) (ldie : Nat) : Bool := s.base.isolated.contains ldie
/-- Whether the contents of an address are lost with its home die (R141). -/
def State.homeFenced (s : State) (pa : Nat) : Bool := s.fencedDies.contains (homeDie pa)
/-- Whether the home of an address cannot be reached from outside an isolated region: its die is isolated or fenced in the field
(R135, R141) (DEDUCED, log entry 57). -/
def State.homeLost (s : State) (pa : Nat) : Bool := s.isIsolated (homeDie pa)
/-- Whether a request of a die for an address goes into or out of an isolated region, or to a lost die (R135, R141)
(DEDUCED, log entry 57). -/
def State.cutOff (s : State) (die pa : Nat) : Bool := s.homeFenced pa || s.isIsolated die != s.homeLost pa

/-- The mark of a failing sector (R36, R37); every sector of a lost die fails (R141). -/
def State.sectorFails (s : State) (pa : Nat) : Bool := Tab.get false s.failing (pa / 64) || s.homeFenced pa

/-- The partition that owns the granule of a physical address, plus one; 0 for none (R123). -/
def State.ownerOf (s : State) (pa : Nat) : Nat := Tab.get 0 s.owner (pa / 2 ^ 21)

end Sys2Proof.Machine
end

