-- ==== Sys2Proof/Machine/Translate.lean ====
section
/-! DEFINITION. Page walks, the TLBs and the checks of a translated access (R231 to R233, R251, R254 to R257), and the fetch of
an instruction word (R324, R339, R342). -/

namespace Sys2Proof.Machine

/-! ### Fault codes (R322) -/

/-- Codes of the fibre faults and the watchdog (R322). -/
inductive FaultCode where
  | illegalOp | illegalTarget | lineCheck | localBound | pageNotPresent | pagePerm | misaligned | windowOrphan
  | barrierTimeout | formatCode | unsupported | trap | bkpt | dataCheck | regionRule | hostSpace | latchLost | regRange
  | accCapacity | noSlot
  deriving DecidableEq, Repr

/-- The 8-bit code (R322). -/
def FaultCode.num : FaultCode → Nat
  | .illegalOp => 0x01 | .illegalTarget => 0x02 | .lineCheck => 0x03 | .localBound => 0x04 | .pageNotPresent => 0x05
  | .pagePerm => 0x06 | .misaligned => 0x07 | .windowOrphan => 0x08 | .barrierTimeout => 0x09 | .formatCode => 0x0A
  | .unsupported => 0x0B | .trap => 0x0C | .bkpt => 0x0D | .dataCheck => 0x0E | .regionRule => 0x0F | .hostSpace => 0x10
  | .latchLost => 0x11 | .regRange => 0x12 | .accCapacity => 0x13 | .noSlot => 0x14

/-- A fault as an instruction or engine command raises it: code, reported lane (0xFF for none), ADDR and DETAIL (R328). -/
structure Trap where
  code : FaultCode
  lane : Nat := 0xFF
  addr : Nat := 0
  detail : Nat := 0
  deriving DecidableEq, Repr

/-! ### Page walks -/

/-- Permissions an access needs (R255). -/
structure Need where
  x : Bool := false
  a : Bool := false
  w : Bool := false
  rd : Bool := false
  deriving DecidableEq, Repr

/-- Bits [22:19] of DETAIL: X, A, W, RD from bit 22 down (R328). -/
def Need.bits (n : Need) : Nat :=
  (if n.rd then 2 ^ 19 else 0) + (if n.w then 2 ^ 20 else 0) + (if n.a then 2 ^ 21 else 0) + (if n.x then 2 ^ 22 else 0)

/-- The offset bits below each level's index (R254). -/
def levelShift : Nat → Nat
  | 0 => 48 | 1 => 39 | 2 => 30 | 3 => 21 | _ => 16
/-- The index width of each level (R254). -/
def levelBits : Nat → Nat
  | 0 => 8 | 1 => 9 | 2 => 9 | 3 => 9 | _ => 5

/-- What one table entry says (R255). -/
inductive EntryKind where
  | absent
  | next (table : Nat)
  | leaf (l : Leaf)
  deriving DecidableEq, Repr

/-- Read a table entry at a level: reserved fields, alignment and the level's leaf rules (R254, R255). -/
def entryKind (level e : Nat) : EntryKind :=
  let ty := field e 61 3
  let md := field e 50 11
  let base := field e 12 36 * 4096
  let clean := field e 48 2 == 0 && field e 5 7 == 0 && field e 0 1 == 0
  let mk (sp : Space) : EntryKind :=
    if level < 2 || field e 12 4 != 0 then .absent
    else if (match sp with
        | .broadcast => field e 12 28 * 4096 % 2 ^ levelShift level
        | _ => base % 2 ^ levelShift level) != 0 then .absent
    else .leaf ⟨sp, base, bitAt e 4, bitAt e 3, bitAt e 2, bitAt e 1⟩
  if !clean then .absent
  else
    match ty with
    | 1 => if level == 4 || md != 0 then .absent else .next base
    | 2 => if md != 0 then .absent else mk .global
    | 3 => if md != 0 then .absent else mk .broadcast
    | 4 => if 16 ≤ md then .absent else mk (.pod md)
    | 5 => mk (.remote md)
    | 6 => if md != 0 then .absent else mk .device
    | _ => .absent

/-- The outcome of a walk: a leaf with the page's offset bits, or the level that failed and the table sector that failed verification,
if one did (R257). -/
inductive WalkRes where
  | leaf (bits : Nat) (l : Leaf)
  | fail (level : Nat) (bad : Option Nat)
  deriving DecidableEq, Repr

/-- A walk from a table at a level, with the levels left as fuel (R254). -/
def walkFrom (s : State) (va : Nat) : Nat → Nat → Nat → WalkRes
  | 0, level, _ => .fail level none
  | fuel + 1, level, table =>
    let a := table + 8 * field va (levelShift level) (levelBits level)
    if s.sectorFails a then .fail level (some (a / 64))
    else
      match entryKind level (Memory.read s.mem a 8) with
      | .absent => .fail level none
      | .next t => walkFrom s va fuel (level + 1) t
      | .leaf l => .leaf (levelShift level) l

/-- The walk of a virtual address in an ASID of a partition (R254). -/
def walk (s : State) (part asid va : Nat) : WalkRes :=
  match Tab.get 0 (s.part part).roots asid with
  | 0 => .fail 0 none
  | root => walkFrom s va 5 0 root

/-! ### Translation -/

/-- The outcome of translating one access. -/
inductive Xlat where
  | ok (space : Space) (pa : Nat)
  | miss
  | fault (code : FaultCode) (level : Nat) (check : Bool)
  deriving DecidableEq, Repr

/-- Whether a leaf grants what an access needs (R255). -/
def Leaf.grants (l : Leaf) (n : Need) : Bool := (!n.x || l.x) && (!n.a || l.a) && (!n.w || l.w) && (!n.rd || l.rd)

/-- The checks on a translated address: ownership of a global page, the device region, and the extent of a broadcast window; a
pod page of this module is global memory (R123, R233, R252; DEDUCED, log entry 21). -/
def checkLeaf (s : State) (part va bits : Nat) (l : Leaf) (n : Need) : Xlat :=
  let pa := l.base + va % 2 ^ bits
  if !l.grants n then .fault .pagePerm 7 false
  else
    match l.space with
    | .global => if dramBytes ≤ pa || s.ownerOf pa != part + 1 then .fault .pagePerm 7 false else .ok .global pa
    | .device => if pa < 0xF000000000 || 0xF100000000 ≤ pa then .fault .pagePerm 7 false else .ok .device pa
    | .broadcast =>
      match Tab.get none s.bwins (pa / 2 ^ 40) with
      | none => .fault .pagePerm 7 false
      | some b =>
        if b.part != part then .fault .pagePerm 7 false
        else if b.rows * 2 ^ 21 ≤ pa % 2 ^ 40 then .fault .pageNotPresent 7 false
        else .ok .broadcast pa
    | .pod m =>
      if m != Config.moduleNumber then .ok (.pod m) pa
      else if dramBytes ≤ pa || s.ownerOf pa != part + 1 then .fault .pagePerm 7 false
      else .ok .global pa
    | sp => .ok sp pa

/-- The TLB entry of a die that covers an address (R256) (DEDUCED, log entry 10). -/
def tlbFind (s : State) (die asid va : Nat) : Option TlbEnt :=
  s.tlb.find? fun e => e.die == die && e.asid == asid && va / 2 ^ e.bits == e.page

/-- TLB entries that stay: an L1 TLB keeps none that its die has dropped (R256, R258) (DESIGN CHOICE, log entry 20). -/
def State.keepTlb (s : State) (p : TlbEnt → Bool) : State :=
  { s with
    tlb := s.tlb.filter p
    l1tlb := (s.l1tlb.map fun x => (x.1, x.2.filter p)).filter fun x => !x.2.isEmpty }

/-- A walk's leaf enters its die's TLB of 8,192 entries; the oldest one leaves a full one (R256) (DESIGN CHOICE, log entry 20). -/
def State.fillTlb (s : State) (e : TlbEnt) : State :=
  let mine := s.tlb.filter fun x => x.die == e.die
  let s1 := match mine with
    | old :: _ => if 8192 ≤ mine.length then s.keepTlb (· != old) else s
    | [] => s
  { s1 with tlb := s1.tlb ++ [e] }

/-- A core looks an address up in its L1 TLB of 64 entries: on a miss it takes its die's entry in place of its oldest one, and counts the
miss (R256, R452) (DESIGN CHOICE, log entry 20) (DEDUCED, log entry 10) (DEDUCED, log entry 87). -/
def State.l1Look (s : State) (core asid va : Nat) : State :=
  let mine := Tab.get [] s.l1tlb core
  if mine.any fun e => e.asid == asid && va / 2 ^ e.bits == e.page then s
  else
    match tlbFind s (core / 48) asid va with
    | none => s
    | some e =>
      let all := mine ++ [e]
      { s with l1tlb := Tab.set [] s.l1tlb core (all.drop (all.length - 64)) }.modCore core fun k => { k with tlbMiss := k.tlbMiss + 1 }

/-- Translate one access of a partition's agent on a die (R232, R256, R257) (DEDUCED, log entry 10). -/
def translate (s : State) (part die asid va : Nat) (n : Need) : Xlat :=
  if 2 ^ 57 ≤ va then .fault .pageNotPresent 0 false
  else if bitAt va 56 then .ok .host va
  else
    match tlbFind s die asid va with
    | some e => checkLeaf s part va e.bits e.leaf n
    | none =>
      match s.walkFails.find? fun w => w.die == die && w.asid == asid && w.page == va / 65536 with
      | some w => .fault (if w.check then .dataCheck else .pageNotPresent) w.level w.check
      | none => .miss

/-- DETAIL of a translation fault (R328). -/
def xlatDetail (asid level : Nat) (check : Bool) (n : Need) : Nat :=
  if check then 2 + level * 4 else asid + level * 2 ^ 16 + n.bits

/-- The trap of a translation fault of a lane. -/
def xlatTrap (code : FaultCode) (asid level : Nat) (check : Bool) (n : Need) (lane va : Nat) : Trap :=
  ⟨code, lane, va, xlatDetail asid level check n⟩

/-- HOST_SPACE of an access that is no copy (R231, R232, R328). -/
def hostTrap (lane va : Nat) : Trap := ⟨.hostSpace, lane, va, if field va 48 8 == 0 then 1 else 5⟩

/-- Whether a walk for a missing page may be queued: none covers it yet, and its die queues fewer than 4,096 (R256). -/
def State.mayWalk (s : State) (die asid va : Nat) : Bool :=
  !s.walks.contains (die, asid, va / 65536) && decide ((s.walks.filter fun w => w.1 == die).length < 4096)

/-- Queue a walk for a missing page, once, where the die's queue has room (R256) (DESIGN CHOICE, log entry 20). -/
def State.queueWalk (s : State) (die asid va : Nat) : State :=
  if s.mayWalk die asid va then { s with walks := s.walks ++ [(die, asid, va / 65536)] } else s

/-! ### Fetch -/

/-- A fetched word with its line word, a fetch fault, or a miss to be walked. -/
inductive Fetched where
  | word (w line : Nat)
  | fault (t : Trap)
  | miss (va : Nat)
  deriving DecidableEq, Repr

/-- A fetch line as it is read in a run, verified (R239, R324, R342) (DEDUCED, log entry 42) (DEDUCED, log entry 94). -/
def fetchLine (s : State) (wg : Workgroup) (va : Nat) : Fetched :=
  let asid := wg.launch.asid
  match translate s wg.part wg.die asid va { x := true } with
  | .miss => .miss va
  | .fault c l k => .fault (xlatTrap c asid l k { x := true } 0xFF va)
  | .ok .global pa =>
    let img := (s.part wg.part).codeImage
    let bits := Memory.read img pa 60
    let lw := Memory.read img (pa + 60) 4
    if s.sectorFails pa || s.cutOff wg.die pa then .fault ⟨.dataCheck, 0xFF, va, if s.cutOff wg.die pa then 1 else 0⟩
    else
      let bad := (List.range 5).foldl
        (fun m k => if parity (field bits (96 * k) 96) 96 != bitAt lw (16 + k) then m + 2 ^ k else m) 0
      let crc := crc16 (Memory.bytes img pa 60) != field lw 0 16
      if bad != 0 || crc then .fault ⟨.lineCheck, 0xFF, va, bad + if crc then 32 else 0⟩ else .word bits lw
  | .ok .host _ => .fault (hostTrap 0xFF va)
  | .ok _ _ => .fault (xlatTrap .pagePerm asid 7 false { x := true } 0xFF va)

/-- The word at an address in PC form. -/
def fetchWord (s : State) (wg : Workgroup) (pc : Nat) : Fetched :=
  match fetchLine s wg (pcLine pc) with
  | .word bits lw => .word (field bits (96 * (pc % 8)) 96) lw
  | r => r

/-- TARGET of a slot (R340). -/
def lineTarget (lw slot : Nat) : Bool := bitAt lw (27 + slot)
/-- Whether PAIR names slots k and k + 1 (R341). -/
def linePairs (lw k : Nat) : Bool :=
  match field lw 24 3 with
  | 1 => k == 0
  | 2 => k == 1
  | 3 => k == 2
  | 4 => k == 3
  | 5 => k == 0 || k == 2
  | 6 => k == 1 || k == 3
  | 7 => k == 0 || k == 3
  | _ => false
/-- The reserved bits [23:21] of a line word (R342). -/
def lineReserved (lw : Nat) : Bool := field lw 21 3 != 0

end Sys2Proof.Machine
end

