-- ==== Sys2Proof/Machine/Ops.lean ====
section
/-! DEFINITION. Shared operations: events to host functions (R99 to R101), taking a fault (R227, R327 to R330), returning from
one (R226, R228, R332), completion flags and status bits (R209, R306), and the performing of region-closing instructions
(R225). -/

namespace Sys2Proof.Machine

/-! ### The Ethernet port (R76, R77) -/

/-- Whether nothing leaves the Ethernet port: the link is down, or its priority is paused (R76, R77)
(DESIGN CHOICE, log entry 92). -/
def State.ethStopped (s : State) : Bool := s.base.ethDown || s.base.pauses.getLsbD s.base.txPrio

/-- What is sent on the Ethernet port, or waits until it may leave (R76) (DESIGN CHOICE, log entry 92). -/
def State.send (s : State) (m : EthMsg) : State :=
  if s.ethStopped then { s with ethWait := s.ethWait ++ [m] } else { s with ethOut := s.ethOut ++ [m] }

/-! ### Events (R99 to R101) -/

/-- The 80 bytes of an event (R99). -/
def eventBytes (kind part evseq stamp : Nat) (body : List Byte) : List Byte :=
  leBytes 2 kind ++ leBytes 2 part ++ leBytes 4 evseq ++ leBytes 8 stamp ++ byteSlice body 0 64

/-- Queue an event on a function: an unassigned function takes none, a full queue drops it, and an empty one sends a notification
(R79, R101) (DEDUCED, log entry 102). -/
def State.event (s : State) (fn kind part : Nat) (body : List Byte) : State :=
  let f := s.func fn
  if fn != 0 && f.part.isNone then s
  else if 4096 ≤ f.events.length then s.setFunc fn { f with dropped := f.dropped + 1 }
  else
    let n := f.evseq + 1
    let s1 := s.setFunc fn { f with evseq := n, events := f.events ++ [(n, eventBytes kind part n s.stamp body)] }
    match f.events, f.lastAddr with
    | [], some (ip, udp) => s1.send (.note fn ip udp n)
    | _, _ => s1

/-- A module event: KIND 5 on function 0 (R99, R100). `detail` starts at body byte 4. -/
def State.moduleEvent (s : State) (code : Nat) (detail : List Byte) : State :=
  s.event 0 5 0xFFFF (leBytes 4 code ++ detail)

/-- A partition event: KIND 4 on the partition's event function (R99, R100). -/
def State.partEvent (s : State) (part code : Nat) (detail : List Byte) : State :=
  match (s.part part).eventFn with
  | none => s
  | some fn => s.event fn 4 part (leBytes 4 code ++ detail)

/-! ### Taking a fault (R227) -/

/-- The address bits of an address in PC form (R327). -/
def pcForm (pc : Nat) : Nat := pc % 2 ^ 57

/-- The 64-byte fault record (R327). -/
def faultRecord (s : State) (w : Workgroup) (slot fib pc : Nat) (lanes : Lanes) (flags src frseq : Nat) (t : Trap) :
    List Byte :=
  leBytes 1 t.code.num ++ leBytes 1 flags ++ leBytes 2 w.part ++ leBytes 2 w.vcore ++ leBytes 1 slot ++ leBytes 1 fib ++
  leBytes 8 (pcForm pc) ++ leBytes 2 lanes.toNat ++ leBytes 1 t.lane ++ leBytes 1 src ++ leBytes 4 w.graph ++
  leBytes 4 w.runSeq ++ leBytes 4 w.node ++ leBytes 4 w.index ++ leBytes 4 frseq ++ leBytes 8 t.addr ++
  leBytes 8 t.detail ++ leBytes 8 s.stamp

/-- Whether a fibre of the partition is still frozen by a record (R329). -/
def State.recordHeld (s : State) (part frseq : Nat) : Bool :=
  s.wgs.any fun x =>
    match x.2 with
    | none => false
    | some w => w.part == part && w.slots.any fun sl => sl.2.fibres.any fun fb =>
        match fb.2.frozenBy with
        | some (n, _) => n == frseq
        | none => false

/-- Remove the first record that no frozen fibre holds. -/
def dropFree (held : Nat → Bool) : List (Nat × List Byte) → List (Nat × List Byte)
  | [] => []
  | r :: rs => if held r.1 then r :: dropFree held rs else rs

/-- Keep a record in the partition's fault queue and deliver it to the event function (R329). -/
def State.queueRecord (s : State) (part frseq : Nat) (rec : List Byte) : State :=
  let q := (s.part part).faultQ
  let room := if q.length < 4096 then q else dropFree (s.recordHeld part) q
  let lost := 4096 ≤ room.length
  let s1 := s.modPart part fun p => { p with frseq := frseq, faultQ := if lost then q else room ++ [(frseq, rec)] }
  let s2 :=
    match (s1.part part).eventFn with
    | none => s1
    | some fn => s1.event fn 3 part rec
  if lost then s2.moduleEvent 0x0109 (leBytes 4 part ++ leBytes 4 1) else s2

/-- A fibre leaves CURRENT: its latches become invalid and the slot has no current fibre until it passes (R207, R208). -/
def State.leaveCurrent (s : State) (w k f : Nat) : State :=
  let sl := s.slot w k
  let sl1 := sl.setFib f { sl.fib f with latches := [], pairOpen := false, second := [] }
  s.setSlot w k (if sl.current == some f then { sl1 with current := none, lastFib := f } else sl1)

/-- A fibre takes a fault: it becomes FROZEN, its slot passes, and the record is queued; a fibre that is already frozen adds
a record only (R227, R329, R330). `src` is SRC of R327, and an engine's record has ENG set. -/
def State.raiseFault (s : State) (w k f pc : Nat) (lanes : Lanes) (src : Nat) (t : Trap) : State :=
  let wg := s.wg w
  let n := (s.part wg.part).frseq + 1
  let fb := s.fib w k f
  let rec_ := faultRecord s wg k f pc lanes (if src == 0 then 0 else 1) src n t
  let s1 :=
    if fb.st == .frozen || fb.st == .exited then s
    else (s.leaveCurrent w k f).modFib w k f fun fb =>
      { fb with st := .frozen, block := none, frozenBy := some (n, t.code.num) }
  s1.queueRecord wg.part n rec_

/-! ### Returning from a fault (R226, R228, R332) -/

/-- Whether a fibre has operations not yet performed (R221, R228). -/
def State.outstanding (s : State) (w k f : Nat) : Bool :=
  let c := s.core (s.wg w).lcore
  s.pipe.any (fun o => o.wg == w && o.slot == k && o.fib == f) ||
  c.copyQ.any (fun o => o.wg == w && o.slot == k && o.fib == f) ||
  c.matQ.any (fun o => o.wg == w && o.slot == k && o.fib == f)

/-- The program counters of a fibre with the lanes of a mask moved to an address. -/
def Fibre.moveTo (fb : Fibre) (lanes : Lanes) (pc : Nat → Nat) : Fibre :=
  { fb with pc := allLanes.map fun l => if laneIn lanes l then pc l else fb.pc.getD l 0 }

/-- A restart at the restart point: latches invalid, flags zero, registers kept (R226). -/
def Fibre.restartAt (fb : Fibre) : Fibre :=
  { fb.moveTo fb.live (fun _ => fb.restart) with
    st := .waiting, block := none, frozenBy := none, latches := [], f := [], timers := [], hist := [], pairOpen := false, second := [],
    atEntry := false }

/-- RESUME of a frozen fibre (R226, R331). -/
def State.resumeFibre (s : State) (w k f : Nat) : State := s.modFib w k f Fibre.restartAt

/-- CONTINUE of a fibre stopped by TRAP or BKPT at an address: its lanes there move to the next word, its latches are invalid, and
everything else is kept (R332) (DEDUCED, log entry 70). -/
def State.continueFibre (s : State) (w k f pc : Nat) : State :=
  s.modFib w k f fun fb =>
    { fb.moveTo (maskOf (allLanes.filter fun l => laneIn fb.live l && fb.pc.getD l 0 == pc)) (fun _ => nextPc pc) with
      st := .waiting, frozenBy := none, latches := [], atEntry := false }

/-! ### Completion flags and status (R209, R306) -/

/-- One count off a completion flag. -/
def Fibre.countDown (fb : Fibre) (n : Fin 12) : Fibre := { fb with f := Tab.modify 0 fb.f n.val (· - 1) }
/-- One count on a completion flag, at most 15. -/
def Fibre.countUp (fb : Fibre) (n : Fin 12) : Fibre := { fb with f := Tab.modify 0 fb.f n.val (fun c => min 15 (c + 1)) }
/-- The flag that an operation names is to count down at the end of the cycle, so that a waiter may issue in the next (R209). -/
def State.flagDown (s : State) (w k f : Nat) (flag : Option (Fin 12)) : State :=
  match flag with
  | none => s
  | some n => s.modFib w k f fun fb => { fb with timers := fb.timers ++ [(s.now (s.wg w).die, n)] }
/-- Set status bits; bits [31:6] do not exist (R306). -/
def Fibre.orStatus (fb : Fibre) (x : Word) : Fibre := { fb with fpstat := fb.fpstat ||| (x &&& 0x3F) }
/-- Status bits that are set when a result is written, at a tick (R306, R451). -/
def Fibre.statusAt (fb : Fibre) (tick : Nat) (x : Word) : Fibre :=
  if x == 0 then fb else { fb with status := fb.status ++ [(tick, x)] }
/-- The bits due at a tick are set (DEDUCED, log entry 74). -/
def Fibre.settleStatus (fb : Fibre) (tick : Nat) : Fibre :=
  let due := fb.status.filter fun x => decide (x.1 ≤ tick)
  due.foldl (fun fb x => fb.orStatus x.2) { fb with status := fb.status.filter fun x => decide (tick < x.1) }

/-! ### Region-closing instructions (R220, R224, R225) -/

/-- The live-in counts of a WAYPT's immediate (R397). -/
def LiveIn.ofImm (imm : Nat) : LiveIn := ⟨field imm 0 8, field imm 8 8, field imm 16 8, field imm 24 8⟩

/-- A region-closing instruction at `pc` has performed: the restart point moves to the WAYPT that follows (R225). -/
def Fibre.closeRegion (fb : Fibre) (pc : Nat) (l : LiveIn) : Fibre := { fb with restart := nextPc pc, livein := l, arrival := none }

/-- The same for an operation that may or may not close its region. -/
def State.closedBy (s : State) (w k f pc : Nat) (closing : Option LiveIn) : State :=
  match closing with
  | none => s
  | some l => s.modFib w k f (·.closeRegion pc l)

/-- Every fibre BLOCKED on an object for which `p` holds is blocked by nothing more: it becomes WAITING in the next cycle
(R206, R216, R218, R414). -/
def SlotSt.wake (sl : SlotSt) (p : Block → Bool) : SlotSt :=
  { sl with fibres := sl.fibres.map fun x =>
      match x.2.st, x.2.block with
      | .blocked, some b => if p b then (x.1, { x.2 with block := none }) else x
      | _, _ => x }

/-- Wake the fibres of a whole workgroup. -/
def Workgroup.wake (w : Workgroup) (p : Block → Bool) : Workgroup :=
  { w with slots := w.slots.map fun x => (x.1, x.2.wake p) }

/-! ### The end of a fibre and of a workgroup (R155, R157, R217, R219) -/

/-- Whether every fibre of a workgroup has exited. -/
def Workgroup.exited (w : Workgroup) : Bool :=
  (List.range w.launch.slots).all fun k => (List.range (w.slot k).count).all fun f => ((w.slot k).fib f).st == .exited

/-- Operations of the network queue (R184). -/
def PipeKind.ofNetwork : PipeKind → Bool
  | .npost .. | .ntrig .. | .ncoll .. | .ncan .. => true
  | _ => false

/-- A fibre of a workgroup that has ended: nothing of it runs or is frozen. -/
def Fibre.ended (fb : Fibre) : Fibre := { fb with st := .exited, block := none, frozenBy := none }

/-- A workgroup leaves: its resources are free, and its launch has one fewer out (R157, R163); while operations of its network
queue are still to perform, it is kept for them (R336) (DESIGN CHOICE, log entry 66). -/
def State.endWg (s : State) (w : Nat) : State :=
  let wg := s.wg w
  let kept : Workgroup :=
    { wg with
      place := .ended
      slots := wg.slots.map fun x => (x.1, { x.2 with current := none, fibres := x.2.fibres.map fun y => (y.1, y.2.ended) }) }
  let s0 := { s with pipe := s.pipe.filter fun o => o.wg != w || o.kind.ofNetwork }
  let s1 := if s0.pipe.any fun o => o.wg == w then s0.setWg w kept else s0.dropWg w
  s1.modNode wg.graph wg.node fun n => { n with out := n.out - 1 }

/-- A workgroup whose fibres have all exited retires (R155, R219). -/
def State.retireIfDone (s : State) (w : Nat) : State := if (s.wg w).exited then s.endWg w else s

/-- Whether another fibre of the slot may still fill or empty a window register (R217). -/
def windowPartner (wg : Workgroup) (sl : SlotSt) (self n : Nat) : Bool :=
  (List.range sl.count).any fun k => k != self && (sl.fib k).st != .exited && decide (n < (wg.role (sl.fib k).role).wreg)

/-- Fibres of a slot blocked on a window register whose last partner has exited take WINDOW_ORPHAN (R217). -/
def State.orphans (s : State) (w k : Nat) : State :=
  (List.range (s.slot w k).count).foldl (fun s f =>
    match (s.fib w k f).st, (s.fib w k f).block with
    | .blocked, some (.window n pc lanes) =>
      if windowPartner (s.wg w) (s.slot w k) f n then s else s.raiseFault w k f pc lanes 0 ⟨.windowOrphan, 0xFF, 0, n⟩
    | _, _ => s) s

/-- Drop the failed walks that a reported fault has used, so that a later access walks again (R257). -/
def State.dropFail (s : State) (die asid va : Nat) : State :=
  { s with walkFails := s.walkFails.filter fun w => !(w.die == die && w.asid == asid && w.page == va / 65536) }

end Sys2Proof.Machine
end

