-- ==== Sys2Proof/Machine/Operands.lean ====
section
/-! DEFINITION. Reading operands at their architectural distance (R210, R211, R349 to R353, R366), the register checks of R326
(steps 3, 6, 7), and writing results with their latches (R212, R367). -/

namespace Sys2Proof.Machine

/-- The issue of one word to one lane set: the state before it, the fibre with its distance sums and issue index advanced, and
the active lanes; `nwb` tells that the word writes no register (R354). -/
structure Ctx where
  s : State
  f : Focus
  act : Lanes
  wg : Workgroup
  sl : SlotSt
  fb : Fibre
  nwb : Bool

/-- The role of the issuing fibre. -/
def Ctx.role (c : Ctx) : Role := c.wg.role c.fb.role

/-- The core cycle in progress where the fibre runs (R31). -/
def Ctx.now (c : Ctx) : Nat := c.s.wgNow c.f.wg

/-- A free bit for operand `k`, reading lane `l`, lane `p` read, at a depth of the walk (DESIGN CHOICE, log entry 8). -/
def Ctx.freeBit (c : Ctx) (k l p depth : Nat) : Bool :=
  (Config.freeValue c.s.free (p + 16 * (k + 8 * depth))).getLsbD l

/-! ### Register values (R210, R211) -/

/-- Walk back over the earlier writes of a register from its current value: a write whose distance from the reader is below
its latency is not seen, and one made by a lane set without the reading lane is seen or not (R210). `p` is the lane read, `l`
the reading lane, `clk` its distance sum, and `cross` tells a per-lane register. -/
def histRead (free : Nat → Bool) (key p l clk : Nat) (cross : Bool) : List HistEnt → Nat → Dword → Dword
  | [], _, cur => cur
  | e :: r, depth, cur =>
    if e.key == key && laneIn e.mask p then
      let seen := if cross && l != p && !laneIn e.set l then free depth else decide (e.lat ≤ clk - e.clk.getD l 0)
      if seen then cur else histRead free key p l clk cross r (depth + 1) (e.old.getD p 0)
    else histRead free key p l clk cross r depth cur

/-- The stride of an affine register under the same rule. -/
def histStride (key l clk : Nat) : List HistEnt → Word → Word
  | [], cur => cur
  | e :: r, cur =>
    if e.key == key then (if e.lat ≤ clk - e.clk.getD l 0 then cur else histStride key l clk r e.oldStride)
    else histStride key l clk r cur

/-- The value that an outstanding variable-latency write will give a register in a lane, once it is fixed (R211). -/
def pendingWord (c : Ctx) (o : Operand) (p : Nat) : Option Nat :=
  c.s.pipe.findSome? fun op =>
    if op.wg == c.f.wg && op.slot == c.f.slot && op.fib == c.f.fib then
      match op.dst, o with
      | some (.v d), .v n =>
        if d.val ≤ n.val && n.val < d.val + op.regs then
          (op.accs.find? fun a => a.lane == p && a.done).map fun a => a.val / 2 ^ (32 * (n.val - d.val)) % 2 ^ 32
        else none
      | some (.s d), .s n => if d == n then (op.accs.find? (·.done)).map (·.val) else none
      | _, _ => none
    else none

/-- Old or new, as the free bit says, where a variable-latency write is outstanding (R211). -/
def orPending (c : Ctx) (k l : Nat) (o : Operand) (p cur : Nat) : Nat :=
  match pendingWord c o p with
  | some x => if c.freeBit (k + 4) l (p % 16) 0 then x else cur
  | none => cur

/-- Register V`n` of lane `p` as lane `l` reads it. -/
def Ctx.readV (c : Ctx) (k l : Nat) (n : Fin 256) (p : Nat) : Nat :=
  let cur : Dword := (Tab.get 0 c.fb.v (16 * n.val + p)).zeroExtend 64
  let x := histRead (c.freeBit k l p) n.val p l (c.fb.clk.getD l 0) true c.fb.hist 0 cur
  orPending c k l (.v n) p x.toNat

/-- Register S`n` as lane `l` reads it (DEDUCED, log entry 5). -/
def Ctx.readS (c : Ctx) (k l : Nat) (n : Fin 128) : Nat :=
  let x := histRead (c.freeBit k l 0) (256 + n.val) 0 l (c.fb.clk.getD l 0) false c.fb.hist 0 (Tab.get 0 c.fb.s n.val)
  orPending c k l (.s n) 0 x.toNat

/-- Register A`n` as lane `l` reads it, as a register (R381) (DEDUCED, log entry 5). -/
def Ctx.readA (c : Ctx) (l : Nat) (n : Fin 16) : Affine :=
  let cur := Tab.get {} c.fb.a n.val
  let clk := c.fb.clk.getD l 0
  ⟨histRead (fun _ => false) (384 + n.val) 0 l clk false c.fb.hist 0 cur.base, histStride (384 + n.val) l clk c.fb.hist cur.stride⟩

/-- The bit of predicate `n` in lane `q`, as lane `l` reads it; P7 is all ones (R16, R377). -/
def Ctx.readPAt (c : Ctx) (n : Fin 8) (l q : Nat) : Bool :=
  if n.val == 7 then true
  else
    let cur : Dword := if laneIn (Tab.get 0 c.fb.p n.val) q then 1 else 0
    histRead (c.freeBit 3 l q) (520 + n.val) q l (c.fb.clk.getD l 0) true c.fb.hist 0 cur == 1

/-- The bit of predicate `n` that lane `l` reads. -/
def Ctx.readP (c : Ctx) (n : Fin 8) (l : Nat) : Bool := c.readPAt n l l

/-- The uniform reader: the lowest active lane (DEDUCED, log entry 5). -/
def Ctx.lane0 (c : Ctx) : Nat := (lanesOf c.act).headD 0

/-! ### Operand values (R349, R351, R353, R366) -/

/-- How an instruction reads an operand. -/
inductive RdTy where
  | int (bits : Nat)
  | fp (f : Fmt)
  | pk (f : Fmt)
  deriving DecidableEq, Repr

/-- Bits of the read. -/
def RdTy.bits : RdTy → Nat
  | .int n => n
  | .fp f => f.width
  | .pk _ => 32

/-- An E4M3 immediate converted exactly into a type (R351). -/
def immFp (f : Fmt) (i : BitVec 8) : Nat := (roundVal f .rne false false (decodeVal .e4m3 i.toNat)).1

/-- A small immediate (R351, R366). -/
def immValue (ty : RdTy) (i : BitVec 8) : Nat :=
  match ty with
  | .int n => wrap n i.toInt
  | .fp f => immFp f i
  | .pk f => immFp f i + 65536 * immFp f i

/-- A special (R349). -/
def Ctx.special (c : Ctx) (l : Nat) : Special → Nat
  | .laneId => l
  | .fibreId => c.f.fib
  | .slotId => c.f.slot
  | .coreId => c.wg.vcore
  | .quadId => c.wg.lcore / 4
  | .dieId => c.wg.die
  | .partId => c.wg.part
  | .clockLo => c.s.cyclesOf c.wg.lcore % 2 ^ 32
  | .liveMask => c.fb.live.toNat
  | .actMask => c.act.toNat
  | .roleId => c.fb.role

/-- The value that a source has in lane `q`, as lane `l` reads it, at the width the instruction uses; `k` numbers the source
(R348 to R353, R366, R377). -/
def Ctx.rdAt (c : Ctx) (k : Nat) (ty : RdTy) (x : Src) (l q : Nat) : Nat :=
  let p := permLane x.perm q
  match x.op with
  | .v n =>
    if ty.bits == 64 then c.readV k l n p % 2 ^ 32 + 2 ^ 32 * (c.readV k l (Fin.ofNat 256 (n.val + 1)) p % 2 ^ 32)
    else c.readV k l n p % 2 ^ ty.bits
  | .s n => c.readS k l n % 2 ^ ty.bits
  | .a n =>
    let a := c.readA l n
    wrap ty.bits (a.base.toNat + (q : Int) * a.stride.toInt)
  | .sp r => c.special q r % 2 ^ ty.bits
  | .l n => ((Tab.get {} c.fb.latches n.val).vals.getD q 0).toNat % 2 ^ ty.bits
  | .w n => (Tab.get 0 c.sl.win (16 * n.val + p)).toNat % 2 ^ ty.bits
  | .imm i => immValue ty i
  | _ => 0

/-- The value of a source in a lane that reads it. -/
def Ctx.rd (c : Ctx) (k : Nat) (ty : RdTy) (x : Src) (l : Nat) : Nat := c.rdAt k ty x l l

/-- A source predicate's bit. -/
def Ctx.rdPred (c : Ctx) (x : Src) (l : Nat) : Bool :=
  match x.op with
  | .p n => c.readP n l
  | _ => false

/-! ### Checks before an instruction has any effect (R326 steps 3, 6 and 7) -/

/-- The outcome of the checks. -/
inductive Guard where
  | ok
  | trap (t : Trap)
  | block (b : Block)
  deriving DecidableEq, Repr

/-- The second outcome counts where the first is ok. -/
def Guard.and (a : Guard) (b : Guard) : Guard :=
  match a with
  | .ok => b
  | r => r

/-- All checks of a list, in order. -/
def Guard.all {α : Type} (xs : List α) (f : α → Guard) : Guard := xs.foldl (fun g x => g.and (f x)) .ok

/-- REG_RANGE with class and index (R328) (DEDUCED, log entry 75). -/
def regRange (cls idx : Nat) : Guard := .trap ⟨.regRange, 0xFF, 0, cls + 256 * (idx % 256)⟩

/-- The partition that owns a counter's block on a die, plus one (R175). -/
def State.ctrOwner (s : State) (die ctr : Nat) : Nat := Tab.get 0 s.ctrBlocks (64 * die + ctr / 64)

/-- Step 3: an operand beyond the fibre's allotment (R352); `n` registers from a V or ACC operand on. -/
def Ctx.inRange (c : Ctx) (o : Operand) (n : Nat) : Guard :=
  match o with
  | .v k => let lim := 8 * c.role.vregs
      if lim < k.val + n then regRange 0 (max k.val lim) else .ok
  | .w k => if c.role.wreg ≤ k.val then regRange 1 k.val else .ok
  | .t k => if c.wg.launch.tiles ≤ k.val then regRange 2 k.val else .ok
  | .acc k => let lim := c.wg.launch.accs
      if lim < k.val + n then regRange 3 (max k.val lim) else .ok
  | .c k =>
    let ctr := c.wg.launch.ctrBase + k.val
    if c.wg.launch.nctr ≤ k.val || c.s.ctrOwner c.wg.die ctr != c.wg.part + 1 then regRange 4 k.val else .ok
  | _ => .ok

/-- An access to a window register that needs the given tag (R216, R217). -/
def Ctx.windowReady (c : Ctx) (n : Fin 64) (full : Bool) : Guard :=
  if Tab.get false c.sl.tags n.val == full then .ok
  else if windowPartner c.wg c.sl c.f.fib n.val then .block (.window n.val c.f.pc c.act)
  else .trap ⟨.windowOrphan, 0xFF, 0, n.val⟩

/-- Step 6: an invalid latch, or a window register read while empty. -/
def Ctx.readable (c : Ctx) (x : Src) : Guard :=
  match x.op with
  | .l n => if (Tab.get {} c.fb.latches n.val).valid then .ok else .trap ⟨.latchLost, 0xFF, 0, n.val⟩
  | .w n => c.windowReady n true
  | _ => .ok

/-- Step 7: a write to a declared live-in register (R224) (DEDUCED, log entry 40). -/
def Ctx.notLiveIn (c : Ctx) (o : Operand) : Guard :=
  let bad : Guard := .trap ⟨.regionRule, 0xFF, 0, 3⟩
  match o with
  | .v n => if n.val < c.fb.livein.nv then bad else .ok
  | .s n => if n.val < c.fb.livein.ns then bad else .ok
  | .w n => if n.val < c.fb.livein.nw then bad else .ok
  | .t n => if n.val < c.fb.livein.nt then bad else .ok
  | _ => .ok

/-- What an instruction names: operands with their register counts, the sources it reads, and the registers it writes. -/
structure Uses where
  ops : List (Operand × Nat) := []
  reads : List Src := []
  writes : List (Operand × Nat) := []

/-- Step 3 for everything an instruction names. -/
def Ctx.checkNames (c : Ctx) (u : Uses) : Guard := Guard.all (u.writes ++ u.ops) fun x => c.inRange x.1 x.2

/-- Step 7 for everything an instruction writes; under NWB it writes no register (R354) (DEDUCED, log entry 40). -/
def Ctx.checkWrites (c : Ctx) (u : Uses) : Guard :=
  if c.nwb then .ok else
  Guard.all u.writes fun x =>
    match x.1 with
    | .v n => Guard.all (List.range x.2) fun k => c.notLiveIn (.v (Fin.ofNat 256 (n.val + k)))
    | o => c.notLiveIn o

/-- Steps 6 and 7. -/
def Ctx.checkAccess (c : Ctx) (u : Uses) : Guard := (Guard.all u.reads c.readable).and (c.checkWrites u)

/-- Steps 3, 6 and 7 for an instruction that closes no region. -/
def Ctx.check (c : Ctx) (u : Uses) : Guard := (c.checkNames u).and (c.checkAccess u)

/-! ### Writing results (R210, R212, R367) -/

/-- Drop kept values that no live lane can read any more, and the lanes that a settled later write hides. -/
def pruneHist (live : Lanes) (clk : List Nat) : List HistEnt → List (Nat × Lanes) → List HistEnt
  | [], _ => []
  | e :: r, settled =>
    let m := settled.foldl (fun m x => if x.1 == e.key then m &&& ~~~x.2 else m) e.mask
    if m == 0 then pruneHist live clk r settled
    else
      let uniform := 256 ≤ e.key && e.key < 520
      let old := (uniform || (live &&& ~~~e.set) == 0) &&
        (lanesOf live).all fun l => decide (e.lat ≤ clk.getD l 0 - e.clk.getD l 0)
      if old then pruneHist live clk r ((e.key, m) :: settled)
      else { e with mask := m } :: pruneHist live clk r settled

/-- Keep a register's earlier values before a fixed-latency write (R210). -/
def Fibre.keep (fb : Fibre) (key lat : Nat) (set mask : Lanes) (old : List Dword) (stride : Word) : Fibre :=
  { fb with hist := pruneHist fb.live fb.clk (⟨key, set, mask, fb.clk, lat, old, stride⟩ :: fb.hist) [] }

/-- Forget kept values of the written lanes: a variable-latency write has taken its place in program order (R211). -/
def Fibre.forget (fb : Fibre) (key : Nat) (mask : Lanes) : Fibre :=
  { fb with hist := pruneHist fb.live fb.clk fb.hist [(key, mask)] }

/-- Write one V register in the lanes of a mask. -/
def Fibre.putV (fb : Fibre) (n : Nat) (mask : Lanes) (val : Nat → Nat) : Fibre :=
  { fb with v := (lanesOf mask).foldl (fun t l => Tab.set 0 t (16 * n + l) (BitVec.ofNat 32 (val l))) fb.v }

/-- A fixed-latency write of `regs` V registers from `n`. -/
def Fibre.writeV (fb : Fibre) (n regs lat : Nat) (set mask : Lanes) (val : Nat → Nat) : Fibre :=
  (List.range regs).foldl (fun fb k =>
    let old := allLanes.map fun l => (Tab.get (0 : Word) fb.v (16 * (n + k) + l)).zeroExtend 64
    (fb.keep (n + k) lat set mask old 0).putV (n + k) mask fun l => val l / 2 ^ (32 * k)) fb

/-- A fixed-latency write of an S register. -/
def Fibre.writeS (fb : Fibre) (n lat : Nat) (set : Lanes) (x : Dword) : Fibre :=
  let fb1 := fb.keep (256 + n) lat set 0xFFFF [Tab.get 0 fb.s n] 0
  { fb1 with s := Tab.set 0 fb1.s n x }

/-- A fixed-latency write of an A register. -/
def Fibre.writeA (fb : Fibre) (n lat : Nat) (set : Lanes) (x : Affine) : Fibre :=
  let old := Tab.get {} fb.a n
  let fb1 := fb.keep (384 + n) lat set 0xFFFF [old.base] old.stride
  { fb1 with a := Tab.set {} fb1.a n x }

/-- A fixed-latency write of a predicate's bits in the lanes of a mask. -/
def Fibre.writeP (fb : Fibre) (n lat : Nat) (set mask : Lanes) (x : Lanes) : Fibre :=
  let cur := Tab.get 0 fb.p n
  let fb1 := fb.keep (520 + n) lat set mask (allLanes.map fun l => if laneIn cur l then 1 else 0) 0
  { fb1 with p := Tab.set 0 fb1.p n ((cur &&& ~~~mask) ||| (x &&& mask)) }

/-- The result of an instruction at issue: issued with a new state and perhaps latch values; a fault; held with nothing but a
walk queued; blocked; blocked after an arrival (R225); or a fault of the word at another address (R424). -/
inductive Res where
  | done (s : State) (latch : Option (List Dword))
  | trap (t : Trap)
  | hold (s : State)
  | block (b : Block)
  | park (s : State) (b : Block)
  | trapAt (pc : Nat) (t : Trap)

/-- Latch values: the active lanes' results, zero elsewhere (R212) (DESIGN CHOICE, log entry 18). -/
def latchVals (act : Lanes) (val : Nat → Nat) : List Dword := allLanes.map fun l => if laneIn act l then BitVec.ofNat 64 (val l) else 0

/-- Issue with the fibre in its new value. -/
def Ctx.put (c : Ctx) (fb : Fibre) : State := c.s.setFib c.f.wg c.f.slot c.f.fib fb

/-- How a result narrower than 64 bits fills an S register: sign-extended from bit 31 for I32, else zero-extended (R367). -/
def extendS (signed : Bool) (bits x : Nat) : Dword :=
  BitVec.ofNat 64 (if signed && bits == 32 then wrap 64 (sextInt 32 x) else x % 2 ^ bits)

/-- Write a fixed-latency result to a V, S or P destination, or only to the latch under NWB (R212, R354, R367). -/
def Ctx.result (c : Ctx) (h : Sched) (lat : Nat) (d : Operand) (bits : Nat) (signed : Bool) (val : Nat → Nat) : Res :=
  let latch := some (latchVals c.act fun l => val l % 2 ^ 64)
  let uni := val c.lane0
  let fb :=
    if h.nwb then c.fb
    else
      match d with
      | .v n => c.fb.writeV n.val (if bits == 64 then 2 else 1) lat c.f.lanes c.act val
      | .s n => c.fb.writeS n.val lat c.f.lanes (extendS signed bits uni)
      | .p n => c.fb.writeP n.val lat c.f.lanes c.act (maskOf (allLanes.filter fun l => val l % 2 == 1))
      | _ => c.fb
  let latch :=
    match d with
    | .s _ => some (latchVals c.act fun _ => uni % 2 ^ 64)
    | _ => latch
  .done (c.put fb) latch

/-- The body where a check passes. -/
def Guard.run (g : Guard) (body : Res) : Res :=
  match g with
  | .ok => body
  | .trap t => .trap t
  | .block b => .block b

/-- Run the checks, then the body. -/
def Ctx.guarded (c : Ctx) (u : Uses) (body : Res) : Res := (c.check u).run body

/-- Registers that an operand of this many bits names (R352). -/
def regsOf (wide : Bool) : Nat := if wide then 2 else 1

/-- The uses of a G-form word that reads its first `n` sources and writes its destination, each single or wide. -/
def usesOf (o : GOps) (n : Nat) (wideD wideS : Bool) : Uses :=
  let srcs := [o.a, o.b, o.c].take n
  { ops := srcs.map fun x => (x.op, regsOf wideS), reads := srcs, writes := [(o.d, regsOf wideD)] }

end Sys2Proof.Machine
end

