-- ==== Sys2Proof/Machine/Issue.lean ====
section
/-! DEFINITION. The issue of one instruction word to one lane set (R14, R203, R209, R210, R212, R213, R224, R227, R354): what is
common to every Aelax instruction around its own effect. The step presents only words that no condition of R203 stands
against. -/

namespace Sys2Proof.Machine

/-- What a meaning answers. -/
abbrev Answer := Host.Outcome State Fault Refusal

/-- How an instruction completes (R354, R368): `lat` is the latency of its fixed-latency result, or 0; `late` tells that its
flag counts down when an operation performs; `jumps` that it moves its active lanes itself; `pair` that the next word issues
with it (R424); `enters` that it moves every live lane to a role entry itself (R455). -/
structure Shape where
  lat : Nat := 0
  late : Bool := false
  jumps : Bool := false
  pair : Bool := false
  enters : Bool := false

/-- The lanes whose predicate bit lets them act (R14, R354). -/
def Ctx.predicated (c : Ctx) (h : Sched) : Lanes :=
  maskOf ((lanesOf c.f.lanes).filter fun l => laneIn c.fb.live l && (c.readP h.pred l != h.pneg))

/-- The issue of a word: the fibre with its lanes' distance sums advanced (R210). -/
def issueCtx (s : State) (f : Focus) (h : Sched) : Ctx :=
  let wg := s.wg f.wg
  let sl := wg.slot f.slot
  let fb := sl.fib f.fib
  let dist := if fb.pairOpen then 0 else max h.dist.val 1
  let fb1 := { fb with clk := allLanes.map fun l => fb.clk.getD l 0 + if laneIn f.lanes l then dist else 0 }
  let c : Ctx := ⟨s, f, 0, wg, sl, fb1, h.nwb⟩
  { c with act := c.predicated h }

/-- Whether the fibre's live lanes share one program counter. -/
def Focus.converged (f : Focus) (fb : Fibre) : Bool := f.lanes == fb.live

/-- Whether a lane set stands at the highest program counter of its fibre (R214). -/
def Fibre.highest (fb : Fibre) (f : Focus) : Bool :=
  allLanes.all fun l => !laneIn fb.live l || laneIn f.lanes l || decide (fb.pc.getD l 0 < f.pc)

/-- The fibre after the issue of a word: program counters, issue index, latch, flag and counts (R209, R212, R213, R214, R395). -/
def Fibre.afterIssue (fb : Fibre) (f : Focus) (h : Sched) (sh : Shape) (act : Lanes) (conv : Bool) (tick : Nat)
    (latch : Option (List Dword)) : Fibre :=
  let entered := sh.enters && act != 0
  let movers := if entered then 0 else (if sh.jumps then f.lanes &&& ~~~act else f.lanes) &&& fb.live
  let fb := fb.moveTo movers (fun _ => if sh.pair && act != 0 then nextPc (nextPc f.pc) else nextPc f.pc)
  let latches :=
    if !conv then []
    else Tab.set {} fb.latches (fb.issueIx.toNat % 4)
      (match latch with
       | some vs => { valid := true, ready := tick + sh.lat, vals := vs }
       | none => {})
  let fb := { fb with
    latches := latches
    issueIx := fb.issueIx + 1
    lastIssue := tick
    writeAt := max fb.writeAt (tick + sh.lat)
    issued := fb.issued + 1
    pairOpen := false
    second := []
    atEntry := entered
    streak := if conv || fb.highest f then 0 else if fb.issued != 0 && fb.lastIssue == tick then fb.streak else fb.streak + 1 }
  match h.setf with
  | some n =>
    if act == 0 then fb
    else if sh.late then fb.countUp n
    else { fb.countUp n with timers := fb.timers ++ [(tick + max sh.lat 1, n)] }
  | none => fb

/-- The state after the issue of a word. -/
def State.afterIssue (s : State) (f : Focus) (h : Sched) (sh : Shape) (act : Lanes) (conv : Bool)
    (latch : Option (List Dword)) : State :=
  let sl := s.slot f.wg f.slot
  let now := s.wgNow f.wg
  let s1 := s.setSlot f.wg f.slot
    { sl.setFib f.fib ((sl.fib f.fib).afterIssue f h sh act conv now latch) with lastIssue := now + 1 }
  let s2 := s1.modCore (s.wg f.wg).lcore fun c =>
    { c with issued := c.issued + 1, picker := Tab.set 15 c.picker sl.quarter sl.position }
  { s2 with free := s.free + 1, focus := none }

/-- A fibre becomes BLOCKED and its slot passes (R206, R208). -/
def State.blockFibre (s : State) (f : Focus) (b : Block) : State :=
  { (s.leaveCurrent f.wg f.slot f.fib).modFibOf f (fun fb => { fb with st := .blocked, block := some b }) with focus := none }

/-- The focus fibre takes a fault (DEDUCED, log entry 85). -/
def State.faultAt (s : State) (f : Focus) (act : Lanes) (t : Trap) : State :=
  let wg := s.wg f.wg
  { (s.raiseFault f.wg f.slot f.fib f.pc act 0 t).dropFail wg.die wg.launch.asid t.addr with focus := none }

/-- Issue one word: with no active lane nothing but the issue itself happens (R14, R324); else the body runs, and a fault
leaves the state as it stood and freezes the fibre (R227) (DESIGN CHOICE, log entry 6). -/
def issue (h : Sched) (sh : Shape) (body : Ctx → Res) (s : State) : Answer :=
  match s.focus with
  | none => .fault .noFibre
  | some f =>
    let c := issueCtx s f h
    let conv := f.converged c.fb
    if c.act == 0 then
      let latch := if sh.lat == 0 then none else some (latchVals 0 fun _ => 0)
      .next ((c.put c.fb).afterIssue f h sh 0 conv latch)
    else
      match body c with
      | .done s1 latch => .next (s1.afterIssue f h sh c.act conv latch)
      | .trap t => .next (s.faultAt f c.act t)
      | .hold s1 => .next { s1 with held := (f.wg, f.slot, f.fib, f.pc) :: s1.held, focus := none }
      | .block b => .next (s.blockFibre f b)
      | .park s1 b => .next (s1.blockFibre f b)
      | .trapAt pc t => .next (s.faultAt { f with pc := pc } c.act t)

/-- The word that follows must be a WAYPT: its live-in counts, a fault, or a page still to be walked (R224). -/
def Ctx.following (c : Ctx) (at_ : Nat := nextPc c.f.pc) : Except Res LiveIn :=
  match fetchWord c.s c.wg at_ with
  | .word w _ => if wordOpcode w == 0x0C6 then .ok (LiveIn.ofImm (field w 5 32)) else .error (.trap ⟨.regionRule, 0xFF, 0, 1⟩)
  | .fault t => .error (.trap t)
  | .miss va => .error (.hold (c.s.queueWalk c.wg.die c.wg.launch.asid va))

/-- The checks of a region-closing instruction, then its body with the following waypoint's counts (R224): operands with
the given further check, then convergence, then the following word. Its own writes to live-ins are allowed. -/
def Ctx.closing (c : Ctx) (u : Uses) (body : LiveIn → Res) (extra : Guard := .ok)
    (at_ : Nat := nextPc c.f.pc) : Res :=
  ((c.checkNames u).and ((Guard.all u.reads c.readable).and extra)).run
    (if c.f.lanes != c.fb.live then .trap ⟨.regionRule, 0xFF, 0, 2⟩
     else
       match c.following at_ with
       | .ok l => body l
       | .error r => r)

/-- A body that closes its region only where a condition holds. -/
def Ctx.maybeClosing (c : Ctx) (closes : Bool) (u : Uses) (body : Option LiveIn → Res) (extra : Guard := .ok)
    (at_ : Nat := nextPc c.f.pc) : Res :=
  if closes then c.closing u (fun l => body (some l)) extra at_
  else ((c.checkNames u).and (extra.and (c.checkAccess u))).run (body none)

end Sys2Proof.Machine
end

