-- ==== Sys2Proof/Machine/Flags.lean ====
section
/-! DEFINITION. Status bits: how an instruction's exceptional cases reach FPSTAT (R306), and the integer result rules (R370). -/

namespace Sys2Proof.Machine

/-- The same, with status bits of every active lane (R306). -/
def Ctx.resultF (c : Ctx) (h : Sched) (lat : Nat) (d : Operand) (bits : Nat) (val : Nat → Nat × FpFlags) : Res :=
  let ls := match d with
    | .s _ => [c.lane0]
    | _ => lanesOf c.act
  let fl := ls.foldl (fun f l => f ||| (val l).2) 0
  ({ c with fb := c.fb.statusAt (c.now + lat) fl }).result h lat d bits false fun l => (val l).1

/-- The least value of an integer type. -/
def intMin (n : Nat) (signed : Bool) : Int := if signed then -(2 ^ (n - 1)) else 0
/-- The greatest value of an integer type. -/
def intMax (n : Nat) (signed : Bool) : Int := if signed then 2 ^ (n - 1) - 1 else 2 ^ n - 1

/-- An exact result as n bits: clamped to the type's range under SAT, else modulo 2^n (R370). -/
def intFinish (n : Nat) (signed sat : Bool) (x : Int) : Nat :=
  if sat then wrap n (min (max x (intMin n signed)) (intMax n signed)) else wrap n x

/-- An n-bit operand as the exact integer that its type gives (R370). -/
def intOf (n : Nat) (signed : Bool) (x : Nat) : Int := if signed then sextInt n x else (x % 2 ^ n : Nat)

end Sys2Proof.Machine
end

