-- ==== Sys2Proof/Machine/Integer.lean ====
section
/-! DEFINITION. Integer arithmetic, logic, shifts and bit fields (R370 to R372). -/

namespace Sys2Proof.Machine

/-- Bits of an integer type. -/
def intBits (t : NType) : Nat := if t.wide then 64 else 32

/-- An integer instruction with `n` sources: `f` gives each lane's result from the operands' bits (R366, R367, R368). -/
def intInstr (n : Nat) (h : Sched) (o : GOps) (m : ModN) (f : Nat → Nat → Nat → Nat) (s : State) : Answer :=
  issue h { lat := 4 } (fun c =>
    let w := intBits m.ty
    c.guarded (usesOf o n m.ty.wide m.ty.wide)
      (c.result h 4 o.d w m.ty.signed fun l =>
        f (c.rd 0 (.int w) o.a l) (c.rd 1 (.int w) o.b l) (c.rd 2 (.int w) o.c l))) s

/-- The same for an exact integer result of the operands' values (R370). -/
def arithInstr (n : Nat) (h : Sched) (o : GOps) (m : ModN) (f : Int → Int → Int → Int) (s : State) : Answer :=
  let w := intBits m.ty
  let v := intOf w m.ty.signed
  intInstr n h o m (fun a b c => intFinish w m.ty.signed m.sat (f (v a) (v b) (v c))) s

/-- A field of `a` (R372). -/
def bitExtract (n : Nat) (signed : Bool) (a b : Nat) : Nat :=
  let pos := field b 0 8
  let len := field b 8 8
  if len == 0 || n ≤ pos then 0
  else
    let w := min len (n - pos)
    if signed then wrap n (sextInt w (field a pos w)) else field a pos w

/-- `c` with a field replaced from `a` (R372). -/
def bitInsert (n a b c : Nat) : Nat :=
  let pos := field b 0 8
  let len := field b 8 8
  if n ≤ pos then c
  else
    let w := min len (n - pos)
    c % 2 ^ pos + 2 ^ pos * (a % 2 ^ w) + 2 ^ (pos + w) * (c / 2 ^ (pos + w))

/-- Bytes of {b, a} selected by `c` (R372). -/
def byteSelect (n a b c : Nat) : Nat :=
  let src := a + 2 ^ n * b
  if n == 32 then
    (List.range 4).foldr (fun k x =>
      let y := field src (8 * field c (4 * k) 3) 8
      (if bitAt c (4 * k + 3) then (if bitAt y 7 then 255 else 0) else y) + 256 * x) 0
  else (List.range 8).foldr (fun k x => field src (8 * field c (4 * k) 4) 8 + 256 * x) 0

/-- Rotation left by the count modulo n (R371). -/
def rotateLeft (n a b : Nat) : Nat :=
  let k := b % n
  (a * 2 ^ k) % 2 ^ n + a / 2 ^ (n - k)

/-- IADD: a + b (R370). -/
def execIadd (h : Sched) (o : GOps) (m : ModN) (s : State) : Answer := arithInstr 2 h o m (fun a b _ => a + b) s

/-- ISUB: a - b (R370). -/
def execIsub (h : Sched) (o : GOps) (m : ModN) (s : State) : Answer := arithInstr 2 h o m (fun a b _ => a - b) s

/-- IMUL: a * b (R370). -/
def execImul (h : Sched) (o : GOps) (m : ModN) (s : State) : Answer := arithInstr 2 h o m (fun a b _ => a * b) s

/-- IMULH: the high half of a * b (R370). -/
def execImulh (h : Sched) (o : GOps) (m : ModN) (s : State) : Answer := 
  arithInstr 2 h o m (fun a b _ => a * b / 2 ^ intBits m.ty) s

/-- IMAD: a * b + c (R370). -/
def execImad (h : Sched) (o : GOps) (m : ModN) (s : State) : Answer := arithInstr 3 h o m (fun a b c => a * b + c) s

/-- IMIN (R370). -/
def execImin (h : Sched) (o : GOps) (m : ModN) (s : State) : Answer := arithInstr 2 h o m (fun a b _ => min a b) s

/-- IMAX (R370). -/
def execImax (h : Sched) (o : GOps) (m : ModN) (s : State) : Answer := arithInstr 2 h o m (fun a b _ => max a b) s

/-- IABS: the magnitude; the operand itself for unsigned types (R370). -/
def execIabs (h : Sched) (o : GOps) (m : ModN) (s : State) : Answer := arithInstr 1 h o m (fun a _ _ => a.natAbs) s

/-- INEG: -a (R370). -/
def execIneg (h : Sched) (o : GOps) (m : ModN) (s : State) : Answer := arithInstr 1 h o m (fun a _ _ => -a) s

/-- AND (R371). -/
def execAnd (h : Sched) (o : GOps) (m : ModN) (s : State) : Answer := intInstr 2 h o m (fun a b _ => a &&& b) s

/-- OR (R371). -/
def execOr (h : Sched) (o : GOps) (m : ModN) (s : State) : Answer := intInstr 2 h o m (fun a b _ => a ||| b) s

/-- XOR (R371). -/
def execXor (h : Sched) (o : GOps) (m : ModN) (s : State) : Answer := intInstr 2 h o m (fun a b _ => a ^^^ b) s

/-- ANDN: a and not b (R371). -/
def execAndn (h : Sched) (o : GOps) (m : ModN) (s : State) : Answer := 
  let w := intBits m.ty
  intInstr 2 h o m (fun a b _ => a &&& (2 ^ w - 1 - b)) s

/-- NOT (R371). -/
def execNot (h : Sched) (o : GOps) (m : ModN) (s : State) : Answer := 
  let w := intBits m.ty
  intInstr 1 h o m (fun a _ _ => 2 ^ w - 1 - a) s

/-- SHL: zeros in; the count is taken modulo the width (R371). -/
def execShl (h : Sched) (o : GOps) (m : ModN) (s : State) : Answer := 
  let w := intBits m.ty
  intInstr 2 h o m (fun a b _ => a * 2 ^ (b % w) % 2 ^ w) s

/-- SHR: zeros in (R371). -/
def execShr (h : Sched) (o : GOps) (m : ModN) (s : State) : Answer := 
  let w := intBits m.ty
  intInstr 2 h o m (fun a b _ => a / 2 ^ (b % w)) s

/-- SAR: copies of the top bit in (R371). -/
def execSar (h : Sched) (o : GOps) (m : ModN) (s : State) : Answer := 
  let w := intBits m.ty
  intInstr 2 h o m (fun a b _ => wrap w (sextInt w a / 2 ^ (b % w))) s

/-- ROL (R371). -/
def execRol (h : Sched) (o : GOps) (m : ModN) (s : State) : Answer := 
  let w := intBits m.ty
  intInstr 2 h o m (fun a b _ => rotateLeft w a b) s

/-- ROR (R371). -/
def execRor (h : Sched) (o : GOps) (m : ModN) (s : State) : Answer := 
  let w := intBits m.ty
  intInstr 2 h o m (fun a b _ => rotateLeft w a (w - b % w)) s

/-- POPC (R372). -/
def execPopc (h : Sched) (o : GOps) (m : ModN) (s : State) : Answer := 
  let w := intBits m.ty
  intInstr 1 h o m (fun a _ _ => popCount a w) s

/-- CLZ (R372). -/
def execClz (h : Sched) (o : GOps) (m : ModN) (s : State) : Answer := 
  let w := intBits m.ty
  intInstr 1 h o m (fun a _ _ => leadingZeros w a) s

/-- CTZ (R372). -/
def execCtz (h : Sched) (o : GOps) (m : ModN) (s : State) : Answer := 
  let w := intBits m.ty
  intInstr 1 h o m (fun a _ _ => trailingZeros a w) s

/-- BREV (R372). -/
def execBrev (h : Sched) (o : GOps) (m : ModN) (s : State) : Answer := 
  let w := intBits m.ty
  intInstr 1 h o m (fun a _ _ => revBits a w) s

/-- BFX (R372). -/
def execBfx (h : Sched) (o : GOps) (m : ModN) (s : State) : Answer := 
  let w := intBits m.ty
  intInstr 2 h o m (fun a b _ => bitExtract w m.ty.signed a b) s

/-- BFI (R372). -/
def execBfi (h : Sched) (o : GOps) (m : ModN) (s : State) : Answer := 
  let w := intBits m.ty
  intInstr 3 h o m (fun a b c => bitInsert w a b c) s

/-- PRMB (R372). -/
def execPrmb (h : Sched) (o : GOps) (m : ModN) (s : State) : Answer := 
  let w := intBits m.ty
  intInstr 3 h o m (fun a b c => byteSelect w a b c) s

end Sys2Proof.Machine
end

