-- ==== Sys2Proof/Machine/Move.lean ====
section
/-! DEFINITION. Compares, SEL, moves, launch values (R373 to R376), and the lane operations (R377 to R380). -/

namespace Sys2Proof.Machine

/-- The mask value of a truth value in a destination: a bit in P, all ones in V (R373, R442). -/
def truthIn (d : Operand) (t : Bool) : Nat :=
  match d with
  | .p _ => if t then 1 else 0
  | _ => if t then 2 ^ 32 - 1 else 0

/-- A compare's bit combined with its predicate source (R373). -/
def combine (m : Comb) (t p : Bool) : Bool :=
  match m with
  | .none => t
  | .and => t && p
  | .or => t || p

/-- Integer conditions (R373). -/
def intCmp (cc : Cc) (a b : Int) : Bool :=
  match cc with
  | .eq => a == b
  | .ne => a != b
  | .lt => decide (a < b)
  | .le => decide (a ≤ b)
  | .gt => decide (b < a)
  | .ge => decide (b ≤ a)
  | .ord => true
  | .uno => false

/-- ICMP (R373). -/
def execIcmp (h : Sched) (o : GOps) (m : ModIcmp) (s : State) : Answer :=
  issue h { lat := 4 } (fun c =>
    let w := if m.ty.wide then 64 else 32
    c.guarded (usesOf o 2 false m.ty.wide)
      (c.result h 4 o.d 32 false fun l =>
        let t := intCmp m.cc (intOf w m.ty.signed (c.rd 0 (.int w) o.a l)) (intOf w m.ty.signed (c.rd 1 (.int w) o.b l))
        truthIn o.d (combine m.comb t (c.rdPred o.c l)))) s

/-- FCMP (R373). -/
def execFcmp (h : Sched) (o : GOps) (m : ModFcmp) (s : State) : Answer :=
  issue h { lat := 4 } (fun c =>
    let f := m.ty.fmt
    let v (k : Nat) (x : Src) (l : Nat) : FVal := decodeVal f (flushIn f m.ftzi (c.rd k (.fp f) x l))
    c.guarded (usesOf o 2 false m.ty.wide)
      (c.result h 4 o.d 32 false fun l =>
        truthIn o.d (combine m.comb (fpCmp m.cc (v 0 o.a l) (v 1 o.b l)) (c.rdPred o.c l)))) s

/-- SEL (R374). -/
def execSel (h : Sched) (o : GOps) (dw : Bool) (s : State) : Answer :=
  issue h { lat := 4 } (fun c =>
    let w := if dw then 64 else 32
    c.guarded (usesOf o 2 dw dw)
      (c.result h 4 o.d w false fun l =>
        if c.rdPred o.c l then c.rd 0 (.int w) o.a l else c.rd 1 (.int w) o.b l)) s

/-- Whether a destination is an S register. -/
def Operand.isS : Operand → Bool
  | .s _ => true
  | _ => false

/-- MOV: an S destination takes all 64 bits (R375, R464; DEDUCED, log entry 16). -/
def execMov (h : Sched) (o : GOps) (dw : Bool) (s : State) : Answer :=
  issue h { lat := 4 } (fun c =>
    let w := if dw || Operand.isS o.d then 64 else 32
    c.guarded (usesOf o 1 dw dw) (c.result h 4 o.d w false fun l => c.rd 0 (.int w) o.a l)) s

/-- MOVI; HI keeps the low half as a source read gives it (R375, R210; DEDUCED, log entry 17). -/
def execMovi (h : Sched) (o : IOps) (m : MoviMode) (s : State) : Answer :=
  issue h { lat := 4 } (fun c =>
    let wide := m != .zx
    c.guarded { writes := [(o.d, regsOf wide)] }
      (c.result h 4 o.d (if wide || Operand.isS o.d then 64 else 32) false fun l =>
        match m with
        | .zx => o.imm.toNat
        | .sx => wrap 64 o.imm.toInt
        | .hi => c.rd 0 (.int 32) ⟨o.d, .none⟩ l + 2 ^ 32 * o.imm.toNat)) s

/-- The items of RDSP (R376). -/
def Ctx.launchItem (c : Ctx) : RdspItem → Nat
  | .wgidx => c.wg.index
  | .gx => c.wg.launch.gx
  | .gy => c.wg.launch.gy
  | .gz => c.wg.launch.gz
  | .localsz => c.wg.launch.localBytes
  | .vregn => 8 * c.role.vregs
  | .wregn => c.role.wreg
  | .ntiles => c.wg.launch.tiles
  | .naccs => c.wg.launch.accs
  | .nctrs => c.wg.launch.nctr
  | .runseq => c.wg.runSeq
  | .handle => c.wg.graph
  | .cfeat => (c.s.cairnOf c.wg.lcore).cfeat.toNat

/-- RDSP (R376). -/
def execRdsp (h : Sched) (o : GOps) (m : RdspItem) (s : State) : Answer :=
  issue h { lat := 4 } (fun c =>
    c.guarded { writes := [(o.d, 1)] } (c.result h 4 o.d 32 false fun _ => c.launchItem m)) s

/-! ### Lane operations -/

/-- LPERM (R377). -/
def execLperm (h : Sched) (o : GOps) (dw : Bool) (s : State) : Answer :=
  issue h { lat := 4 } (fun c =>
    let w := if dw then 64 else 32
    c.guarded { ops := [(o.a.op, regsOf dw), (o.b.op, 1)], reads := [o.a, o.b], writes := [(o.d, regsOf dw)] }
      (c.result h 4 o.d w false fun l => c.rdAt 0 (.int w) o.a l (c.rd 1 (.int 32) o.b l % 16))) s

/-- The bit of a predicate source in lane `q`, as lane `l` reads it (R377, R378). -/
def Ctx.rdPredAt (c : Ctx) (x : Src) (l q : Nat) : Bool :=
  match x.op with
  | .p n => c.readPAt n l q
  | _ => false

/-- The value of a VOTE (R378). -/
def Ctx.vote (c : Ctx) (o : GOps) (m : ModVote) (l : Nat) : Nat :=
  let ls := lanesOf c.act
  let bit := c.rdPredAt o.a l
  let w := if m.d then 64 else 32
  match m.mode with
  | .any => if ls.any bit then 1 else 0
  | .all => if ls.all bit then 1 else 0
  | .ballot => (maskOf (ls.filter bit)).toNat
  | .uni =>
    let v := c.rdAt 0 (.int w) o.a l
    if ls.all fun q => v q == v c.lane0 then 1 else 0

/-- VOTE (R378). -/
def execVote (h : Sched) (o : GOps) (m : ModVote) (s : State) : Answer :=
  issue h { lat := 4 } (fun c =>
    c.guarded (usesOf o 1 false m.d) (c.result h 4 o.d 32 false fun l => c.vote o m l)) s

/-- One combining step of ISCAN and LRED on integers (R379). -/
def scanStep (op : ScanOp) (n : Nat) (signed : Bool) (x y : Nat) : Nat :=
  let lt := decide (intOf n signed x < intOf n signed y)
  match op with
  | .add => (x + y) % 2 ^ n
  | .min => if lt then x else y
  | .max => if lt then y else x
  | .and => x &&& y
  | .or => x ||| y
  | .xor => x ^^^ y

/-- The identities (R379). -/
def scanUnit (op : ScanOp) (n : Nat) (signed : Bool) : Nat :=
  match op with
  | .add | .or | .xor => 0
  | .and => 2 ^ n - 1
  | .min => wrap n (intMax n signed)
  | .max => wrap n (intMin n signed)

/-- ISCAN (R379). -/
def execIscan (h : Sched) (o : GOps) (m : ModScan) (s : State) : Answer :=
  issue h { lat := 4 } (fun c =>
    let w := if m.ty.wide then 64 else 32
    c.guarded (usesOf o 1 m.ty.wide m.ty.wide)
      (c.result h 4 o.d w m.ty.signed fun l =>
        let ks := (lanesOf c.act).filter fun k => decide (k < l) || (k == l && !m.excl)
        (ks.map (c.rdAt 0 (.int w) o.a l)).foldl (scanStep m.op w m.ty.signed) (scanUnit m.op w m.ty.signed))) s

/-- The integer type of an LRED; F32 reads as 32 unsigned bits. -/
def lredType : LredTy → NType
  | .i32 => .i32
  | .ui32 => .ui32
  | .i64 => .i64
  | .ui64 => .ui64
  | .f32 => .ui32

/-- The value of an LRED over the active lanes (R380). -/
def lredValue (m : ModLred) (xs : List Nat) : Nat × FpFlags :=
  let t := lredType m.ty
  let w := if t.wide then 64 else 32
  match m.ty, m.op with
  | .f32, .add => reduceAdd m.rm (xs.map (decodeVal .fp32))
  | .f32, op => (xs.tail.foldl (fpMinMax .fp32 (op == .max)) (fpMinMax .fp32 (op == .max) (xs.headD 0) (xs.headD 0)), 0)
  | _, op => (xs.foldl (scanStep op w t.signed) (scanUnit op w t.signed), 0)

/-- LRED (R380). -/
def execLred (h : Sched) (o : GOps) (m : ModLred) (s : State) : Answer :=
  issue h { lat := 4 } (fun c =>
    let t := lredType m.ty
    let w := if t.wide then 64 else 32
    let ty : RdTy := if m.ty == .f32 then .fp .fp32 else .int w
    let val (l : Nat) := lredValue m ((lanesOf c.act).map (c.rdAt 0 ty o.a l))
    c.guarded (usesOf o 1 t.wide t.wide)
      (({ c with fb := c.fb.statusAt (c.now + 4) (val c.lane0).2 }).result h 4 o.d w t.signed fun l => (val l).1)) s

end Sys2Proof.Machine
end

