-- ==== Sys2Proof/Machine/Affine.lean ====
section
/-! DEFINITION. Affine registers (R381) and predicates (R393). -/

namespace Sys2Proof.Machine

/-- A write of an affine destination: these instructions have no value that a latch could hold per lane, so the latch takes
base + l * stride (R212; DESIGN CHOICE, log entry 18). -/
def Ctx.affineResult (c : Ctx) (h : Sched) (d : Operand) (x : Affine) : Res :=
  let fb :=
    if h.nwb then c.fb
    else
      match d with
      | .a n => c.fb.writeA n.val 4 c.f.lanes x
      | _ => c.fb
  .done (c.put fb) (some (latchVals c.act fun l => wrap 64 (x.base.toNat + (l : Int) * x.stride.toInt)))

/-- An A source read as a register. -/
def Ctx.rdA (c : Ctx) (x : Src) : Affine :=
  match x.op with
  | .a n => c.readA c.lane0 n
  | _ => {}

/-- ASET (R381). -/
def execAset (h : Sched) (o : IOps) (s : State) : Answer :=
  issue h { lat := 4 } (fun c =>
    c.guarded { ops := [(o.a.op, 2)], reads := [o.a], writes := [(o.d, 1)] }
      (c.affineResult h o.d ⟨BitVec.ofNat 64 (c.rd 0 (.int 64) o.a c.lane0), o.imm⟩)) s

/-- AADD (R381). -/
def execAadd (h : Sched) (o : GOps) (s : State) : Answer :=
  issue h { lat := 4 } (fun c =>
    let a := c.rdA o.a
    let b := c.rdA o.b
    c.guarded { writes := [(o.d, 1)] } (c.affineResult h o.d ⟨a.base + b.base, a.stride + b.stride⟩)) s

/-- ASCL (R381). -/
def execAscl (h : Sched) (o : IOps) (s : State) : Answer :=
  issue h { lat := 4 } (fun c =>
    let a := c.rdA o.a
    c.guarded { writes := [(o.d, 1)] } (c.affineResult h o.d ⟨a.base * o.imm.signExtend 64, a.stride * o.imm⟩)) s

/-- AOFF (R381). -/
def execAoff (h : Sched) (o : GOps) (s : State) : Answer :=
  issue h { lat := 4 } (fun c =>
    let a := c.rdA o.a
    c.guarded { ops := [(o.b.op, 2)], reads := [o.b], writes := [(o.d, 1)] }
      (c.affineResult h o.d ⟨a.base + BitVec.ofNat 64 (c.rd 1 (.int 64) o.b c.lane0), a.stride⟩)) s

/-- AEXP (R381). -/
def execAexp (h : Sched) (o : GOps) (dw : Bool) (s : State) : Answer :=
  issue h { lat := 4 } (fun c =>
    let w := if dw then 64 else 32
    c.guarded { writes := [(o.d, regsOf dw)] } (c.result h 4 o.d w false fun l => c.rd 0 (.int w) o.a l)) s

/-- PSET and PSET.MASK (R393). -/
def execPset (h : Sched) (o : GOps) (m : ModPset) (s : State) : Answer :=
  issue h { lat := 4 } (fun c =>
    let w := if m.d then 64 else 32
    c.guarded (usesOf o 1 false m.d)
      (c.result h 4 o.d 1 false fun l =>
        let a := c.rd 0 (.int w) o.a l
        if m.mask then (if bitAt a l then 1 else 0) else if a != 0 then 1 else 0)) s

/-- The operations of PLOG (R393). -/
def plogBit (m : PlogOp) (q r : Bool) : Bool :=
  match m with
  | .and => q && r
  | .or => q || r
  | .xor => q != r
  | .andn => q && !r
  | .not => !q
  | .mov => q

/-- PLOG (R393). -/
def execPlog (h : Sched) (o : GOps) (m : PlogOp) (s : State) : Answer :=
  issue h { lat := 4 } (fun c =>
    c.guarded { writes := [(o.d, 1)] }
      (c.result h 4 o.d 1 false fun l => if plogBit m (c.rdPred o.a l) (c.rdPred o.b l) then 1 else 0)) s

/-- PCNT (R393). -/
def execPcnt (h : Sched) (o : GOps) (s : State) : Answer :=
  issue h { lat := 4 } (fun c =>
    c.guarded { writes := [(o.d, 1)] }
      (c.result h 4 o.d 32 false fun l => ((lanesOf c.act).filter (c.rdPredAt o.a l)).length)) s

end Sys2Proof.Machine
end

