-- ==== Sys2Proof/Machine/FloatOps.lean ====
section
/-! DEFINITION. Floating-point arithmetic (R382 to R385), approximations (R386, R387), fraction, integral rounding and
classification (R388). -/

namespace Sys2Proof.Machine

/-- Latency of a floating-point result of a type (R368). -/
def fpLat (t : FType) : Nat := if t.wide then 8 else 4

/-- How an instruction of layout F reads its operands (R366). -/
def fpRead (m : ModF) : RdTy := if m.pk then .pk m.ty.fmt else .fp m.ty.fmt

/-- A function of codes applied to each half under PK, or to the whole operand (R382). -/
def eachHalf (pk : Bool) (g : Nat → Nat → Nat → Nat × FpFlags) (a b c : Nat) : Nat × FpFlags :=
  if pk then
    let lo := g (a % 65536) (b % 65536) (c % 65536)
    let hi := g (a / 65536) (b / 65536) (c / 65536)
    (lo.1 + 65536 * hi.1, lo.2 ||| hi.2)
  else g a b c

/-- A fixed-latency floating-point instruction with `n` sources, given by a function of codes. -/
def fpInstr (n : Nat) (h : Sched) (o : GOps) (m : ModF) (g : Nat → Nat → Nat → Nat × FpFlags) (s : State) : Answer :=
  issue h { lat := fpLat m.ty } (fun c =>
    let ty := fpRead m
    c.guarded (usesOf o n m.ty.wide m.ty.wide)
      (c.resultF h (fpLat m.ty) o.d m.ty.fmt.width fun l =>
        eachHalf m.pk g (c.rd 0 ty o.a l) (c.rd 1 ty o.b l) (c.rd 2 ty o.c l))) s

/-- An arithmetic instruction of R383: FTZI on the operands, the exact result, one rounding, SAT and FTZO. -/
def fpArith (m : ModF) (x : FVal → FVal → FVal → FVal × FpFlags) (a b c : Nat) : Nat × FpFlags :=
  let f := m.ty.fmt
  let v (k : Nat) := decodeVal f (flushIn f m.ftzi k)
  let r := x (v a) (v b) (v c)
  let d := finish f m.rm m.sat m.ftzo r.1
  (d.1, d.2 ||| r.2)

/-- FADD (R383). -/
def execFadd (h : Sched) (o : GOps) (m : ModF) (s : State) : Answer :=
  fpInstr 2 h o m (fpArith m fun a b _ => fpAdd m.rm a b) s

/-- FSUB (R383). -/
def execFsub (h : Sched) (o : GOps) (m : ModF) (s : State) : Answer :=
  fpInstr 2 h o m (fpArith m fun a b _ => fpAdd m.rm a b.negate) s

/-- FMUL (R383). -/
def execFmul (h : Sched) (o : GOps) (m : ModF) (s : State) : Answer :=
  fpInstr 2 h o m (fpArith m fun a b _ => fpMul a b) s

/-- FFMA (R383). -/
def execFfma (h : Sched) (o : GOps) (m : ModF) (s : State) : Answer :=
  fpInstr 3 h o m (fpArith m fun a b c => fpFma m.rm a b c) s

/-- FMIN and FMAX of two codes, with FTZI on the operands and FTZO on the result (R384). -/
def fpPick (m : ModF) (wantMax : Bool) (a b : Nat) : Nat × FpFlags :=
  let f := m.ty.fmt
  (flushOut f m.ftzo (fpMinMax f wantMax (flushIn f m.ftzi a) (flushIn f m.ftzi b)), 0)

/-- FMIN (R384). -/
def execFmin (h : Sched) (o : GOps) (m : ModF) (s : State) : Answer := fpInstr 2 h o m (fun a b _ => fpPick m false a b) s

/-- FMAX (R384). -/
def execFmax (h : Sched) (o : GOps) (m : ModF) (s : State) : Answer := fpInstr 2 h o m (fun a b _ => fpPick m true a b) s

/-! ### Division and square root (R385) -/

/-- A variable-latency division or root: the value is fixed at issue, and a divide operation carries it until it is written
(R209, R211, R385). -/
def divInstr (n : Nat) (h : Sched) (o : GOps) (m : ModF) (g : Nat → Nat → Nat → Nat × FpFlags) (s : State) : Answer :=
  issue h { late := true } (fun c =>
    let ty := fpRead m
    let val (l : Nat) := g (c.rd 0 ty o.a l) (c.rd 1 ty o.b l) (c.rd 2 ty o.c l)
    let uni := Operand.isS o.d
    let ls := if uni then [c.lane0] else lanesOf c.act
    let fl := ls.foldl (fun f l => f ||| (val l).2) 0
    let op : PipeOp :=
      { id := c.s.nextId, wg := c.f.wg, slot := c.f.slot, fib := c.f.fib, pc := c.f.pc, lanes := c.act,
        kind := .divide fl,
        accs := ls.map fun l => { lane := l, va := 0, space := .localStore, pa := 0, done := true, val := (val l).1 },
        dst := some o.d, regs := regsOf m.ty.wide, flag := h.setf, clk := c.fb.clk, set := c.f.lanes }
    c.guarded (usesOf o n m.ty.wide m.ty.wide)
      (let s1 := c.put c.fb
       .done { s1 with pipe := s1.pipe ++ [op], nextId := s1.nextId + 1 } none)) s

/-- FDIV (R383, R385). -/
def execFdiv (h : Sched) (o : GOps) (m : ModF) (s : State) : Answer := divInstr 2 h o m (fpArith m fun a b _ => fpDiv a b) s

/-- FSQRT (R383, R385). -/
def execFsqrt (h : Sched) (o : GOps) (m : ModF) (s : State) : Answer := divInstr 1 h o m (fpArith m fun a _ _ => fpSqrt a) s

/-! ### Approximations -/

/-- An approximation instruction (R386, R387). -/
def approxInstr (fn : ApproxFn) (h : Sched) (o : GOps) (m : ModF) (s : State) : Answer :=
  fpInstr 1 h o m (fun a _ _ => approx fn m.ty.fmt m.sat m.ftzi m.ftzo a) s

/-- FRCP (R386, R387). -/
def execFrcp (h : Sched) (o : GOps) (m : ModF) (s : State) : Answer := approxInstr .rcp h o m s

/-- FRSQ (R386, R387). -/
def execFrsq (h : Sched) (o : GOps) (m : ModF) (s : State) : Answer := approxInstr .rsq h o m s

/-- FEXP2 (R386, R387). -/
def execFexp2 (h : Sched) (o : GOps) (m : ModF) (s : State) : Answer := approxInstr .exp2 h o m s

/-- FLOG2 (R386, R387). -/
def execFlog2 (h : Sched) (o : GOps) (m : ModF) (s : State) : Answer := approxInstr .log2 h o m s

/-- FSIN (R386, R387). -/
def execFsin (h : Sched) (o : GOps) (m : ModF) (s : State) : Answer := approxInstr .sin h o m s

/-- FCOS (R386, R387). -/
def execFcos (h : Sched) (o : GOps) (m : ModF) (s : State) : Answer := approxInstr .cos h o m s

/-- FTANH (R386, R387). -/
def execFtanh (h : Sched) (o : GOps) (m : ModF) (s : State) : Answer := approxInstr .tanh h o m s

/-! ### Fraction, rounding to integral, classification -/

/-- FFRC (R388); a saturating fraction is never infinite, so SAT changes nothing. -/
def execFfrc (h : Sched) (o : GOps) (m : ModF) (s : State) : Answer :=
  fpInstr 1 h o m (fun a _ _ => fpFrc m.ty.fmt m.rm m.ftzo (decodeVal m.ty.fmt (flushIn m.ty.fmt m.ftzi a))) s

/-- FRND (R388). -/
def execFrnd (h : Sched) (o : GOps) (m : ModF) (s : State) : Answer :=
  fpInstr 1 h o m (fun a _ _ => (fpRnd m.ty.fmt m.rm (decodeVal m.ty.fmt (flushIn m.ty.fmt m.ftzi a)), 0)) s

/-- FCLASS: a 32-bit mask (R388). -/
def execFclass (h : Sched) (o : GOps) (m : ModF) (s : State) : Answer :=
  issue h { lat := 4 } (fun c =>
    c.guarded (usesOf o 1 false m.ty.wide)
      (c.result h 4 o.d 32 false fun l =>
        fpClass m.ty.fmt (flushIn m.ty.fmt m.ftzi (c.rd 0 (.fp m.ty.fmt) o.a l)))) s

end Sys2Proof.Machine
end

