-- ==== Sys2Proof/Machine/Convert.lean ====
section
/-! DEFINITION. Conversions, quantisation and dequantisation through format slots (R299, R389 to R392). -/

namespace Sys2Proof.Machine

/-- Bits of a CVT type. -/
def cvtBits : CvtTy → Nat
  | .i32 | .ui32 | .f32 => 32
  | .i64 | .ui64 | .f64 => 64
  | .f16 | .bf16 => 16

/-- Signed CVT types. -/
def cvtSigned : CvtTy → Bool
  | .i32 | .i64 => true
  | _ => false

/-- The format of a floating-point CVT type. -/
def cvtFmt : CvtTy → Fmt
  | .f32 => .fp32
  | .f64 => .fp64
  | .f16 => .fp16
  | _ => .bf16

/-- How CVT reads its source. -/
def cvtRead (t : CvtTy) : RdTy := if t.isInt then .int (cvtBits t) else .fp (cvtFmt t)

/-- The wide form of CVT on an operand's bits (R389). -/
def cvtWide (m : ModCvt) (x : Nat) : Nat × FpFlags :=
  let w := cvtBits m.dty
  match m.sty.isInt, m.dty.isInt with
  | true, true => (intFinish w (cvtSigned m.dty) m.sat (intOf (cvtBits m.sty) (cvtSigned m.sty) x), 0)
  | true, false => intToFp (cvtFmt m.dty) m.rm m.sat (intOf (cvtBits m.sty) (cvtSigned m.sty) x)
  | false, false => fpToFp (cvtFmt m.sty) (cvtFmt m.dty) m.rm m.sat (decodeVal (cvtFmt m.sty) x)
  | false, true =>
    let r := fpToInt w (cvtSigned m.dty) m.rm (decodeVal (cvtFmt m.sty) x)
    (wrap w r.1, r.2)

/-- Latency of a CVT (R368). -/
def cvtLat (t : CvtTy) : Nat := if t == CvtTy.f64 then 8 else 4

/-- CVT, wide form (R389). -/
def execCvt (h : Sched) (o : GOps) (m : ModCvt) (s : State) : Answer :=
  issue h { lat := cvtLat m.dty } (fun c =>
    let val (l : Nat) := cvtWide m (c.rd 0 (cvtRead m.sty) o.a l)
    let ls := if Operand.isS o.d then [c.lane0] else lanesOf c.act
    let fl := ls.foldl (fun f l => f ||| (val l).2) 0
    c.guarded (usesOf o 1 m.dty.wide m.sty.wide)
      (({ c with fb := c.fb.statusAt (c.now + cvtLat m.dty) fl }).result h (cvtLat m.dty) o.d (cvtBits m.dty)
        (m.dty == CvtTy.i32) fun l => (val l).1)) s

/-- ILLEGAL_OP of a word found only with the launch's format slots (R317, R326 step 2). -/
def illegal (opc : Nat) : Res := .trap ⟨.illegalOp, 0xFF, 0, opc⟩

/-- A code of a narrow format read from a register: its value, with a reserved TERN code under R299 (`none` raises
FORMAT_CODE under STRICT). -/
def narrowCode (fs : FmtSlot) (f : Fmt) (x : Nat) : Option (Nat × FpFlags) :=
  let c := x % 2 ^ f.width
  if f == Fmt.tern && c == 3 then (if fs.strict then none else some (1, fpFCODE)) else some (c, 0)

/-- FORMAT_CODE of a register code: no byte address applies (R328) (DEDUCED, log entry 75). -/
def formatCode (slot lane : Nat) : Res := .trap ⟨.formatCode, lane, 0, slot⟩

/-- The narrow slot of an instruction, if it is one (R317, R390, R391). -/
def narrowSlot (fs : FmtSlot) : Option Fmt :=
  match fs.format with
  | some f => if f.isWide then none else some f
  | none => none

/-- CVT, narrow form: a code through an undithered slot (R390) (DEDUCED, log entry 74). -/
def execCvtNarrow (h : Sched) (o : GOps) (m : ModCvt) (s : State) : Answer :=
  issue h { lat := cvtLat m.dty } (fun c =>
    let j := match o.b.op with
      | .imm k => k.toNat - 1
      | _ => 0
    let fs := c.wg.fmtSlot j
    match narrowSlot fs with
    | none => illegal 0x0A0
    | some f =>
      if fs.dith || (!fs.bsz && o.c != Src.zero) then illegal 0x0A0
      else
        let srcs := if fs.bsz then [o.a, o.c] else [o.a]
        let code (l : Nat) := narrowCode fs f (c.rd 0 (.int 32) o.a l)
        let d := cvtFmt m.dty
        let ls := if Operand.isS o.d then [c.lane0] else lanesOf c.act
        c.guarded { ops := srcs.map fun x => (x.op, 1), reads := srcs, writes := [(o.d, regsOf m.dty.wide)] }
          (match ls.find? fun l => (code l).isNone with
           | some l => formatCode j l
           | none =>
             c.resultF h (cvtLat m.dty) o.d (cvtBits m.dty) fun l =>
               let k := (code l).getD (0, 0)
               let x := blockScale fs.bsz (c.rd 2 (.int 32) o.c l) (decodeVal f k.1)
               let r := roundVal d m.rm (m.sat || fs.sat) false x
               (r.1, r.2 ||| k.2))) s

/-- Storage indices of a lane: column in bits [31:0], row in bits [63:32] (R391). -/
def Ctx.indices (c : Ctx) (x : Src) (l : Nat) : Nat × Nat :=
  let b := c.rd 1 (.int 64) x l
  (b / 2 ^ 32, b % 2 ^ 32)

/-- QNT (R391). -/
def execQnt (h : Sched) (o : GOps) (m : ModQnt) (s : State) : Answer :=
  issue h { lat := 4 } (fun c =>
    let fs := c.wg.fmtSlot m.fs.val
    match narrowSlot fs with
    | none => illegal 0x0A1
    | some f =>
      if !fs.bsz && o.c != Src.zero then illegal 0x0A1
      else
        let srcs := if fs.bsz then [o.a, o.b, o.c] else [o.a, o.b]
        c.guarded
          { ops := [(o.a.op, regsOf m.ty.wide), (o.b.op, 2)] ++ (if fs.bsz then [(o.c.op, 1)] else []), reads := srcs,
            writes := [(o.d, 1)] }
          (c.resultF h 4 o.d 32 fun l =>
            let ij := c.indices o.b l
            let rc := mapCoords fs fs.row0 fs.col0 false ij.1 ij.2
            let y := blockUnscale fs.bsz (c.rd 2 (.int 32) o.c l) (decodeVal m.ty.fmt (c.rd 0 (.fp m.ty.fmt) o.a l))
            quantise fs f m.rm m.fa rc.1 rc.2 y)) s

/-- DQNT (R392). -/
def execDqnt (h : Sched) (o : GOps) (m : ModQnt) (s : State) : Answer :=
  issue h { lat := fpLat m.ty } (fun c =>
    let fs := c.wg.fmtSlot m.fs.val
    match narrowSlot fs with
    | none => illegal 0x0A2
    | some f =>
      if !fs.bsz && o.c != Src.zero then illegal 0x0A2
      else
        let srcs := if fs.bsz then [o.a, o.b, o.c] else [o.a, o.b]
        let code (l : Nat) := narrowCode fs f (c.rd 0 (.int 32) o.a l)
        c.guarded
          { ops := [(o.a.op, 1), (o.b.op, 2)] ++ (if fs.bsz then [(o.c.op, 1)] else []), reads := srcs,
            writes := [(o.d, regsOf m.ty.wide)] }
          (match (lanesOf c.act).find? fun l => (code l).isNone with
           | some l => formatCode m.fs.val l
           | none =>
             c.resultF h (fpLat m.ty) o.d m.ty.fmt.width fun l =>
               let k := (code l).getD (0, 0)
               let ij := c.indices o.b l
               let rc := mapCoords fs fs.row0 fs.col0 false ij.1 ij.2
               let x := recon f (dither256 fs rc.1 rc.2) fs.dith (flushIn f m.fa k.1)
               let r := roundVal m.ty.fmt m.rm fs.sat m.fb (blockScale fs.bsz (c.rd 2 (.int 32) o.c l) x)
               (r.1, r.2 ||| k.2))) s

end Sys2Proof.Machine
end

