-- ==== Sys2Proof/Machine/Control.lean ====
section
/-! DEFINITION. Control flow (R324, R325, R394 to R398): branches, calls, EXIT, WAYPT and NOP. -/

namespace Sys2Proof.Machine

/-- What the check of one target finds: legal, a fault of step 5, a fault of step 9, or a page to be walked (R325, R394). -/
inductive Landing where
  | ok
  | early (t : Trap)
  | late (t : Trap)
  | miss (va : Nat)

/-- The check of one lane's target (R325, R394): a direct target outside the address space counts as a page that is not
present. -/
def Ctx.landing (c : Ctx) (indirect : Bool) (lane : Nat) (t : Int) : Landing :=
  let pc := wrap 64 t
  if indirect && (2 ^ 57 ≤ pc || field pc 3 3 != 0 || 5 ≤ pc % 8) then .early ⟨.illegalTarget, lane, pc, 0⟩
  else
    match fetchLine c.s c.wg (pcLine pc) with
    | .word _ lw => if lineTarget lw (pc % 8) then .ok else .early ⟨.illegalTarget, lane, pcForm pc, 0⟩
    | .miss va => .miss va
    | .fault t =>
      match t.code with
      | .lineCheck => .early { t with lane := lane, addr := pcLine pc }
      | .dataCheck => if t.detail < 2 then .early { t with lane := lane, addr := pcLine pc } else .late { t with lane := lane }
      | _ => .late { t with lane := lane, addr := pc }

/-- The checks of every active lane's target: pages still to be walked first, then step 5, then the given later steps, then
step 9 (R325, R326, R394). -/
def Ctx.land (c : Ctx) (indirect : Bool) (target : Nat → Int) (later : Guard) (body : Res) : Res :=
  let ls := (lanesOf c.act).map fun l => c.landing indirect l (target l)
  match ls.findSome? fun x => match x with | .miss va => some va | _ => none with
  | some va => .hold (c.s.queueWalk c.wg.die c.wg.launch.asid va)
  | none =>
    match ls.findSome? fun x => match x with | .early t => some t | _ => none with
    | some t => .trap t
    | none =>
      later.run
        (match ls.findSome? fun x => match x with | .late t => some t | _ => none with
         | some t => .trap t
         | none => body)

/-- The active lanes move to their targets. -/
def Ctx.jump (c : Ctx) (target : Nat → Int) (r : Res) : Res :=
  match r with
  | .done s latch => .done (s.modFibOf c.f fun fb => fb.moveTo c.act fun l => wrap 64 (target l)) latch
  | r => r

/-- A branch without a link (R395). -/
def branch (h : Sched) (u : Uses) (indirect : Bool) (target : Ctx → Nat → Int) (s : State) : Answer :=
  issue h { jumps := true } (fun c =>
    (c.checkNames u).run (c.land indirect (target c) (c.checkAccess u) (c.jump (target c) (.done (c.put c.fb) none)))) s

/-- A call: the link is the next word's address, with a latency of 4 (R368, R395). -/
def callTo (h : Sched) (d : Operand) (u : Uses) (indirect : Bool) (target : Ctx → Nat → Int) (s : State) : Answer :=
  issue h { lat := 4, jumps := true } (fun c =>
    let u := { u with writes := [(d, 2)] }
    (c.checkNames u).run (c.land indirect (target c) (c.checkAccess u)
      (c.jump (target c) (c.result h 4 d 64 false fun _ => nextPc c.f.pc)))) s

/-- The B-form target (R346). -/
def directTarget (o : BOps) (c : Ctx) (_ : Nat) : Int := branchTarget c.f.pc o.off

/-- The indirect target of a lane (R395). -/
def indirectTarget (o : GOps) (c : Ctx) (l : Nat) : Int := (c.rd 0 (.int 64) o.a l : Nat)

/-- The uses of an indirect transfer's source. -/
def targetUses (o : GOps) : Uses := { ops := [(o.a.op, 2)], reads := [o.a] }

/-- BRA (R395). -/
def execBra (h : Sched) (o : BOps) (s : State) : Answer := branch h {} false (directTarget o) s

/-- BRX (R395). -/
def execBrx (h : Sched) (o : GOps) (s : State) : Answer := branch h (targetUses o) true (indirectTarget o) s

/-- CALL (R395). -/
def execCall (h : Sched) (o : BOps) (s : State) : Answer := callTo h o.d {} false (directTarget o) s

/-- CALLX (R395). -/
def execCallx (h : Sched) (o : GOps) (s : State) : Answer := callTo h o.d (targetUses o) true (indirectTarget o) s

/-- RET (R395). -/
def execRet (h : Sched) (o : GOps) (s : State) : Answer := branch h (targetUses o) true (indirectTarget o) s

/-- The active lanes exit; a fibre with no live lane left becomes EXITED, its slot passes, and fibres that waited on it for a
window register take WINDOW_ORPHAN (R217, R219). -/
def Ctx.exitLanes (c : Ctx) : State :=
  let fb := { c.fb with live := c.fb.live &&& ~~~c.act }
  let s := c.put fb
  if fb.live == 0 then
    ((s.leaveCurrent c.f.wg c.f.slot c.f.fib).modFibOf c.f fun fb => { fb with st := .exited, exitPc := c.f.pc }).orphans
      c.f.wg c.f.slot
  else s

/-- EXIT (R219, R396); the drain before it is a wait condition of the step. A workgroup with every fibre EXITED retires. -/
def execExit (h : Sched) (_o : GOps) (s : State) : Answer :=
  match s.focus, issue h { jumps := true } (fun c => .done c.exitLanes none) s with
  | some f, .next t => .next (t.retireIfDone f.wg)
  | _, r => r

/-- The first live-in count beyond its limit (R397) (DEDUCED, log entry 75). -/
def Ctx.badCount (c : Ctx) (l : LiveIn) : Option Nat :=
  if 8 * c.role.vregs < l.nv then some l.nv
  else if 128 < l.ns then some l.ns
  else if c.role.wreg < l.nw then some l.nw
  else if c.wg.launch.tiles < l.nt then some l.nt
  else none

/-- WAYPT (R220, R221, R397): lanes that stand apart at another such instruction make REGION_RULE (R224). Every earlier result has
been written when it issues, so that no later read sees an earlier value (DEDUCED, log entry 39). -/
def execWaypt (h : Sched) (o : IOps) (s : State) : Answer :=
  issue h {} (fun c =>
    let l := LiveIn.ofImm o.imm.toNat
    match c.badCount l with
    | some n => .trap ⟨.regRange, 0xFF, 0, 6 + 256 * (n % 256)⟩
    | none =>
      if c.f.lanes != c.fb.live then .trap ⟨.regionRule, 0xFF, 0, 2⟩
      else .done (c.put { c.fb with restart := c.f.pc, livein := l, arrival := none, hist := [] }) none) s

/-- NOP (R398). -/
def execNop (h : Sched) (_o : GOps) (s : State) : Answer := issue h {} (fun c => .done (c.put c.fb) none) s

end Sys2Proof.Machine
end

