-- ==== Sys2Proof/Machine/Exact.lean ====
section
/-! DEFINITION. Exact matrix sums (R308) and exact-accumulator entries (R188, R286, R309 to R311). -/

namespace Sys2Proof

/-- The element format of an accumulator type: the scalar type of each half for the pair forms (R408). -/
def AccTy.fmt : AccTy → Machine.Fmt
  | .f32 => .fp32
  | .bf16 | .bf16x2 => .bf16
  | .f16 | .f16x2 => .fp16
  | .f64 => .fp64

/-- The scalar type that an entry records (R288). -/
def AccTy.scalar : AccTy → AccTy
  | .bf16x2 => .bf16
  | .f16x2 => .f16
  | t => t

/-- The pair forms (R408). -/
def AccTy.isPair : AccTy → Bool
  | .bf16x2 | .f16x2 => true
  | .f32 | .bf16 | .f16 | .f64 => false

/-- Bytes of an accumulate's element, and its alignment (R408). -/
def AccTy.bytes : AccTy → Nat
  | .f32 | .bf16x2 | .f16x2 => 4
  | .bf16 | .f16 => 2
  | .f64 => 8

/-- Bits of an entry's integer (R309, R310). -/
def AccTy.accBits : AccTy → Nat
  | .f64 => 2240
  | _ => 320

/-- The exponent of an entry's integer (R309, R310). -/
def AccTy.accExp : AccTy → Int
  | .f64 => -1074
  | _ => -149

end Sys2Proof

namespace Sys2Proof.Machine

/-- The exponent of the truncation step, W of R308, by the wider operand format. -/
def sumWidth (a b : Fmt) : Nat :=
  if a == .fp64 || b == .fp64 then 128 else if a == .fp32 || b == .fp32 then 72 else 48

/-- A term truncated toward zero to a multiple of 2^q, as a signed count of steps (R308). -/
def truncTerm (q : Int) (x : FVal) : Int :=
  match x with
  | .fin n m e =>
    let k : Int := if q ≤ e then m * 2 ^ (e - q).toNat else (m / 2 ^ (q - e).toNat : Nat)
    if n then -k else k
  | _ => 0

/-- One output element of an MMA: the code of the sum of the products and the incoming element (R308). -/
def matrixSum (w : Nat) (out : Fmt) (pairs : List (FVal × FVal)) (c : FVal) : Nat :=
  let bad := pairs.any fun p =>
    p.1.isNan || p.2.isNan || (p.1.isZero && p.2.isInf) || (p.1.isInf && p.2.isZero)
  if bad || c.isNan then out.canonNan
  else
    let ts := pairs.map (fun p => p.1.mul p.2) ++ [c]
    let pos := ts.any fun t => t.isInf && !t.sign
    let neg := ts.any fun t => t.isInf && t.sign
    if pos && neg then out.canonNan
    else if pos then out.infCode false
    else if neg then out.infCode true
    else
      match maxLog2 ts with
      | none => out.zeroCode (ts.all FVal.sign)
      | some l =>
        let q := l - w
        let s := ts.foldl (fun acc t => acc + truncTerm q t) 0
        if s == 0 then out.zeroCode false else (roundVal out .rne false false (ofSigned s q)).1

/-- An integer as a two's-complement residue of n bits. -/
def residue (n : Nat) (x : Int) : Int := sextInt n (wrap n x)

/-- A new integer value of an entry: outside the range OVF is set and the residue is kept (R309). -/
def AccEnt.setN (e : AccEnt) (x : Int) : AccEnt :=
  let b := e.ty.accBits
  let r := residue b x
  { e with n := r, ovf := e.ovf || r != x }

/-- A finite value as a multiple of the entry's unit (R309, R310). -/
def accUnits (t : AccTy) (x : FVal) : Int :=
  match x with
  | .fin n m e => alignTo n m e t.accExp
  | _ => 0

/-- One accumulate (R309). -/
def AccEnt.accumulate (e : AccEnt) (x : FVal) : AccEnt :=
  match x with
  | .nan => { e with nan := true }
  | .inf n => if n then { e with ninf := true } else { e with pinf := true }
  | x => if x.isZero then e else e.setN (e.n + accUnits e.ty x)

/-- The entry that a store of a value leaves: exact, with the flag of a NaN or infinity (R286, R410). -/
def AccEnt.ofValue (t : AccTy) (x : FVal) : AccEnt :=
  match x with
  | .nan => { ty := t, nan := true }
  | .inf n => { ty := t, ninf := n, pinf := !n }
  | x => { ty := t, n := accUnits t x }

/-- Adding an image's value exactly and merging its flags (R188). -/
def AccEnt.addImage (e : AccEnt) (g : AccEnt) : AccEnt :=
  let r := e.setN (e.n + g.n)
  { r with nan := r.nan || g.nan, pinf := r.pinf || g.pinf, ninf := r.ninf || g.ninf, ovf := r.ovf || g.ovf }

/-- Read-out of an entry into its element's format (R311). -/
def AccEnt.readOut (e : AccEnt) : Nat :=
  let f := e.ty.fmt
  if e.nan || (e.pinf && e.ninf) then f.canonNan
  else if e.pinf then f.infCode false
  else if e.ninf then f.infCode true
  else if e.ovf then f.canonNan
  else (roundVal f .rne false false (ofSigned e.n e.ty.accExp)).1

/-- The flag byte of an image (R188). -/
def AccEnt.flagByte (e : AccEnt) : Nat :=
  (if e.nan then 1 else 0) + (if e.pinf then 2 else 0) + (if e.ninf then 4 else 0) + (if e.ovf then 8 else 0)

/-- Image `k` of an entry: 64 bytes; a chain's flags stand in entry 6 (R188, R310). -/
def AccEnt.image (e : AccEnt) (k : Nat) : List Byte :=
  let bits := wrap e.ty.accBits e.n
  let flags := if e.ty == .f64 && k != 6 then 0 else e.flagByte
  leBytes 40 (bits / 2 ^ (320 * k)) ++ leBytes 24 flags

/-- The images of an element: seven for F64, one otherwise (R188). -/
def AccEnt.images (e : AccEnt) : List Byte := (List.range (if e.ty == .f64 then 7 else 1)).flatMap e.image

/-- The entry that images describe (R188). -/
def AccEnt.ofImages (t : AccTy) (bs : List Byte) : AccEnt :=
  let k := if t == .f64 then 7 else 1
  let n := (List.range k).foldr (fun i x => leAt bs (64 * i) 40 + 2 ^ 320 * x) 0
  let fl := leAt bs (64 * (k - 1) + 40) 1
  { ty := t, n := sextInt t.accBits n, nan := bitAt fl 0, pinf := bitAt fl 1, ninf := bitAt fl 2, ovf := bitAt fl 3 }

end Sys2Proof.Machine
end

