-- ==== Sys2Proof/Machine/Access.lean ====
section
/-! DEFINITION. Address generation and translation of M-form accesses (R231, R232, R236, R237, R257, R347, R400, R401), and
the entry of an operation into the memory pipe. -/

namespace Sys2Proof.Machine

/-- Whether an instruction reaches a space (R401). -/
inductive Reach where
  | yes
  | pagePerm
  | dword
  | noEffect
  deriving DecidableEq, Repr

/-- What an M-form instruction needs of its addresses: permissions, access size, whether it must be aligned, whether a lane
whose translation fails is skipped, and the spaces it reaches. -/
structure Access where
  need : Need
  size : Nat
  align : Bool := true
  skip : Bool := false
  reach : Space → Reach

/-- Bytes of an access size (R355). -/
def sizeBytes : MSize → Nat
  | .b => 1
  | .h => 2
  | .w => 4
  | .d => 8
  | .q => 16

/-- Loads (R401). -/
def reachLoad : Space → Reach
  | .remote _ => .pagePerm
  | .device => .dword
  | _ => .yes

/-- Stores (R401). -/
def reachStore : Space → Reach
  | .broadcast | .remote _ => .pagePerm
  | .device => .dword
  | _ => .yes

/-- Atomics and accumulator instructions (R401). -/
def reachAtomic : Space → Reach
  | .broadcast | .remote _ | .device => .pagePerm
  | _ => .yes

/-- CPF (R401). -/
def reachPrefetch : Space → Reach
  | .remote _ | .device => .noEffect
  | _ => .yes

/-- CWB and CINV (R401). -/
def reachClean : Space → Reach
  | .broadcast | .remote _ | .device => .noEffect
  | _ => .yes

/-- STB (R401). -/
def reachStb : Space → Reach
  | .broadcast => .yes
  | _ => .pagePerm

/-- Images of NPOST and NCOLL (R444, R448). -/
def reachImage : Space → Reach
  | .remote _ | .device => .pagePerm
  | _ => .yes

/-- The base and offset of a lane, in a space of 64 or 32 bits (R347, R400). -/
def Ctx.addrOf (c : Ctx) (o : MOps) (e : Nat) (isLocal : Bool) (l : Nat) : Nat :=
  let w := if isLocal then 32 else 64
  wrap w ((c.rd 0 (.int w) o.a l : Nat) + o.off.toInt * e)

/-- The first lane for which a trap arises (DEDUCED, log entry 81). -/
def firstTrap (xs : List (Nat × Nat)) (f : Nat → Nat → Option Trap) : Option Trap := xs.findSome? fun x => f x.1 x.2

/-- A local access of each lane: MISALIGNED over all lanes, then LOCAL_BOUND (R237, R326, R404) (DEDUCED, log entry 81). -/
def Ctx.localAccs (c : Ctx) (e : Nat) (addrs : List (Nat × Nat)) : Except Res (List LaneAcc) :=
  let bytes := c.wg.launch.localBytes
  match firstTrap addrs fun l a => if a % e == 0 then none else some ⟨.misaligned, l, a, e⟩ with
  | some t => .error (.trap t)
  | none =>
    match firstTrap addrs fun l a => if a + e ≤ bytes then none else some ⟨.localBound, l, a, bytes⟩ with
    | some t => .error (.trap t)
    | none => .ok (addrs.map fun x => { lane := x.1, va := x.2, space := .localStore, pa := x.2 })

/-- The index of a device page (R33, R233; DESIGN CHOICE, log entry 19). -/
def devicePage (pa : Nat) : Nat := (pa - 0xF000000000) / 65536

/-- PAGE_PERM of a lane. -/
def permTrap (c : Ctx) (n : Need) (lane va : Nat) : Trap := xlatTrap .pagePerm c.wg.launch.asid 7 false n lane va

/-- One lane's translation: its access, no access, a fault of step 8, a fault of step 9, or a page to be walked. -/
inductive LaneXlat where
  | acc (a : LaneAcc)
  | skip
  | early (t : Trap)
  | late (t : Trap)
  | miss (va : Nat)

/-- Translate one lane's address for an access (R252, R255, R257, R401). -/
def Ctx.lanePlace (c : Ctx) (a : Access) (lane va : Nat) : LaneXlat :=
  match translate c.s c.wg.part c.wg.die c.wg.launch.asid va a.need with
  | .miss => .miss va
  | .fault code level k => if a.skip then .skip else .late (xlatTrap code c.wg.launch.asid level k a.need lane va)
  | .ok .host _ => if a.skip then .skip else .early (hostTrap lane va)
  | .ok sp pa =>
    match a.reach sp with
    | .noEffect => .skip
    | .pagePerm => .late (permTrap c a.need lane va)
    | .dword =>
      if a.size != 8 || va % 8 != 0 then .early ⟨.misaligned, lane, va, a.size⟩
      else if 112 ≤ devicePage pa then .late (permTrap c a.need lane va)
      else .acc { lane := lane, va := va, space := sp, pa := pa }
    | .yes => .acc { lane := lane, va := va, space := sp, pa := pa }

/-- Queue a walk for a lane's page (R256) (DESIGN CHOICE, log entry 20). -/
def State.missWalk (s : State) (wg : Workgroup) (va : Nat) : State := s.queueWalk wg.die wg.launch.asid va

/-- All lanes of an access, under the order of steps 8 and 9 of R326: MISALIGNED of any lane, which a device page may raise once it is
known, then HOST_SPACE, then translation; pages not yet walked hold the instruction (R256, R257; DESIGN CHOICE, log entry 20). -/
def Ctx.globalAccs (c : Ctx) (a : Access) (addrs : List (Nat × Nat)) : Except Res (List LaneAcc) :=
  match if a.align then firstTrap addrs fun l x => if x % a.size == 0 then none else some ⟨.misaligned, l, x, a.size⟩
        else none with
  | some t => .error (.trap t)
  | none =>
    let xs := addrs.map fun x => c.lanePlace a x.1 x.2
    let early := xs.filterMap fun x => match x with | .early t => some t | _ => none
    let misses := xs.filterMap fun x => match x with | .miss va => some va | _ => none
    let odd (va : Nat) : Bool := a.size != 8 || va % 8 != 0
    match early.find? (fun t => t.code == .misaligned), early, misses.any odd with
    | some t, _, _ => .error (.trap t)
    | none, t :: _, false => .error (.trap t)
    | none, es, _ =>
      match misses, es with
      | va :: vs, _ => .error (.hold ((va :: vs).foldl (fun s va => s.missWalk c.wg va) c.s))
      | [], t :: _ => .error (.trap t)
      | [], [] =>
        match xs.findSome? fun x => match x with | .late t => some t | _ => none with
        | some t => .error (.trap t)
        | none => .ok (xs.filterMap fun x => match x with | .acc a => some a | _ => none)

/-- The lanes of an M-form instruction with their addresses. -/
def Ctx.laneAddrs (c : Ctx) (o : MOps) (e : Nat) (isLocal : Bool) : List (Nat × Nat) :=
  (lanesOf c.act).map fun l => (l, c.addrOf o e isLocal l)

/-- The value of an operand of up to four consecutive V registers, or one S register, W register or immediate (R400, R403). -/
def Ctx.rdRegs (c : Ctx) (k : Nat) (x : Src) (regs : Nat) (l : Nat) : Nat :=
  match x.op with
  | .v n =>
    (List.range regs).foldr (fun i acc => c.rd k (.int 32) { x with op := .v (Fin.ofNat 256 (n.val + i)) } l + 2 ^ 32 * acc) 0
  | .w _ => c.rd k (.int 32) x l
  | _ => c.rd k (.int 64) x l

/-- A memory-pipe operation of this issue. -/
def Ctx.pipeOp (c : Ctx) (h : Sched) (kind : PipeKind) (accs : List LaneAcc) (dst : Option Operand := none) (regs : Nat := 1)
    (qual : Qual := .none) (scope : Scope := .lane) (closing : Option LiveIn := none) : PipeOp :=
  { id := c.s.nextId, wg := c.f.wg, slot := c.f.slot, fib := c.f.fib, pc := c.f.pc, lanes := c.act, kind := kind,
    accs := accs, dst := dst, regs := regs, qual := qual, scope := scope, flag := h.setf, closing := closing,
    clk := c.fb.clk, set := c.f.lanes }

/-- The pages of an operation's accesses are looked up in the core's L1 TLB (R256) (DEDUCED, log entry 87). -/
def State.lookUp (s : State) (wg : Workgroup) (op : PipeOp) : State :=
  op.accs.foldl (fun s a => if a.space == .localStore then s else s.l1Look wg.lcore wg.launch.asid a.va) s

/-- An operation enters the memory pipe (R400). -/
def Ctx.enter (c : Ctx) (op : PipeOp) : Res :=
  let s := (c.put c.fb).lookUp c.wg op
  .done { s with pipe := s.pipe ++ [op], nextId := s.nextId + 1 } none

/-- The accesses, then the operation they enter. -/
def Ctx.withAccs (r : Except Res (List LaneAcc)) (body : List LaneAcc → Res) : Res :=
  match r with
  | .ok accs => body accs
  | .error e => e

end Sys2Proof.Machine
end

