-- ==== Sys2Proof/Machine/MemInstr.lean ====
section
/-! DEFINITION. Loads, stores and cache operations (R402 to R405), broadcast stores (R425). The accesses perform later, by
the events of Pipe. -/

namespace Sys2Proof.Machine

/-- The uses of an M-form instruction: base, data with its registers, destination with its registers. -/
def memUses (o : MOps) (isLocal : Bool) (data dst : Option Nat) : Uses :=
  { ops := (o.a.op, regsOf !isLocal) :: (match data with | some n => [(o.b.op, n)] | none => [])
    reads := match data with | some _ => [o.b] | none => []
    writes := match dst with | some n => [(o.d, n)] | none => [] }

/-- LD (R402). -/
def execLd (h : Sched) (o : MOps) (m : ModM) (s : State) : Answer :=
  issue h { late := true } (fun c =>
    let e := sizeBytes m.size
    c.guarded (memUses o false none (some (WF.regs m.size)))
      (Ctx.withAccs (c.globalAccs ⟨{ rd := true }, e, true, false, reachLoad⟩ (c.laneAddrs o e false)) fun accs =>
        c.enter (c.pipeOp h (.load e m.sx) accs (some o.d) (WF.regs m.size) m.qual m.scope))) s

/-- LDS: one access at the uniform address (R402). -/
def execLds (h : Sched) (o : MOps) (m : ModM) (s : State) : Answer :=
  issue h { late := true } (fun c =>
    let e := sizeBytes m.size
    c.guarded (memUses o false none (some 1))
      (Ctx.withAccs
        (c.globalAccs ⟨{ rd := true }, e, true, false, reachLoad⟩ [(c.lane0, c.addrOf o e false c.lane0)]) fun accs =>
        c.enter (c.pipeOp h (.load e m.sx) accs (some o.d) 1 m.qual m.scope))) s

/-- LD.L (R402, R404). -/
def execLdL (h : Sched) (o : MOps) (m : ModM) (s : State) : Answer :=
  issue h { late := true } (fun c =>
    let e := sizeBytes m.size
    c.guarded (memUses o true none (some (WF.regs m.size)))
      (Ctx.withAccs (c.localAccs e (c.laneAddrs o e true)) fun accs =>
        c.enter (c.pipeOp h (.load e m.sx) accs (some o.d) (WF.regs m.size)))) s

/-- The data of a store in its accesses (R400, R403). -/
def Ctx.withData (c : Ctx) (o : MOps) (m : MSize) (accs : List LaneAcc) : List LaneAcc :=
  accs.map fun a => { a with data := c.rdRegs 1 o.b (WF.regs m) a.lane % 256 ^ sizeBytes m }

/-- Whether a store's accesses reach a trigger window page (R177, R223). -/
def hitsWindow (accs : List LaneAcc) : Bool := accs.any fun a => a.space == .device && decide (devicePage a.pa < 80)

/-- ST: a store that reaches a trigger window closes its region, which is found here after translation (R223, R224, R403). -/
def execSt (h : Sched) (o : MOps) (m : ModM) (s : State) : Answer :=
  issue h { late := true } (fun c =>
    let e := sizeBytes m.size
    c.guarded (memUses o false (some (WF.regs m.size)) none)
      (Ctx.withAccs (c.globalAccs ⟨{ w := true }, e, true, false, reachStore⟩ (c.laneAddrs o e false)) fun accs =>
        let go (closing : Option LiveIn) : Res :=
          c.enter (c.pipeOp h (.store e) (c.withData o m.size accs) none 1 m.qual m.scope closing)
        if hitsWindow accs then
          if c.f.lanes != c.fb.live then .trap ⟨.regionRule, 0xFF, 0, 2⟩
          else
            match c.following with
            | .ok l => go (some l)
            | .error r => r
        else go none)) s

/-- ST.L (R403, R404). -/
def execStL (h : Sched) (o : MOps) (m : ModM) (s : State) : Answer :=
  issue h { late := true } (fun c =>
    let e := sizeBytes m.size
    c.guarded (memUses o true (some (WF.regs m.size)) none)
      (Ctx.withAccs (c.localAccs e (c.laneAddrs o e true)) fun accs =>
        c.enter (c.pipeOp h (.store e) (c.withData o m.size accs)))) s

/-- CPF: completes at issue; a lane whose translation fails is skipped (R405). -/
def execCpf (h : Sched) (o : MOps) (m : ModM) (s : State) : Answer :=
  issue h {} (fun c =>
    let e := sizeBytes m.size
    c.guarded (memUses o false none none)
      (Ctx.withAccs (c.globalAccs ⟨{ rd := true }, e, false, true, reachPrefetch⟩ (c.laneAddrs o e false)) fun accs =>
        c.enter { c.pipeOp h .fetchAhead accs with flag := none })) s

/-- CWB and CINV (R405). -/
def cleanInstr (kind : PipeKind) (h : Sched) (o : MOps) (m : ModM) (s : State) : Answer :=
  issue h { late := true } (fun c =>
    let e := sizeBytes m.size
    c.guarded (memUses o false none none)
      (Ctx.withAccs (c.globalAccs ⟨{ rd := true }, e, false, false, reachClean⟩ (c.laneAddrs o e false)) fun accs =>
        c.enter (c.pipeOp h kind accs))) s

/-- CWB (R405). -/
def execCwb (h : Sched) (o : MOps) (m : ModM) (s : State) : Answer := cleanInstr .writeBack h o m s

/-- CINV (R405). -/
def execCinv (h : Sched) (o : MOps) (m : ModM) (s : State) : Answer := cleanInstr .invalidate h o m s

/-- The broadcast window that a lane's access names is one that this die writes, or PAGE_PERM (R252, R425). -/
def Ctx.stbWriter (c : Ctx) (accs : List LaneAcc) : Option Trap :=
  accs.findSome? fun a =>
    match Tab.get none c.s.bwins (a.pa / 2 ^ 40) with
    | some b => if b.writer == c.wg.die then none else some (permTrap c { w := true } a.lane a.va)
    | none => some (permTrap c { w := true } a.lane a.va)

/-- The distinct sectors of a list of accesses. -/
def accSectors (accs : List LaneAcc) : List Nat := (accs.map fun a => a.pa / 64).eraseDups

/-- STB sectors of a die that wait for a frame, or for one frame (R252). -/
def State.stbSectors (s : State) (die : Nat) (frame : Option Nat) : Nat :=
  s.pipe.foldl (fun n op =>
    match op.kind with
    | .stb _ f =>
      if (s.wg op.wg).die == die && (frame == none || frame == some f) then n + (accSectors op.accs).length else n
    | _ => n) 0

/-- The first frame from one on with room for more sectors, of the 18 a frame carries (R252). -/
def State.stbFrame (s : State) (die k : Nat) : Nat → Nat → Nat
  | 0, f => f
  | n + 1, f => if s.stbSectors die (some f) + k ≤ 18 then f else s.stbFrame die k n (f + 1)

/-- STB (R425): sent in the frame that begins next, it performs at the close of the second frame after that (R252). -/
def execStb (h : Sched) (o : MOps) (m : MSize) (s : State) : Answer :=
  issue h { late := true } (fun c =>
    let e := sizeBytes m
    c.closing (memUses o false (some (WF.regs m)) none) fun l =>
      Ctx.withAccs (c.globalAccs ⟨{ w := true }, e, true, false, reachStb⟩ (c.laneAddrs o e false)) fun accs =>
        match c.stbWriter accs with
        | some t => .trap t
        | none =>
          let k := (accSectors accs).length
          if 256 < c.s.stbSectors c.wg.die none + k then .hold c.s
          else
            c.enter { c.pipeOp h (.stb e (c.s.stbFrame c.wg.die k 256 (c.s.sendFrom c.wg.die))) (c.withData o m accs) with
              closing := some l }) s

end Sys2Proof.Machine
end

