-- ==== Sys2Proof/Machine/Atomics.lean ====
section
/-! DEFINITION. Atomics (R406, R407) and the exact-accumulator instructions (R408 to R411). -/

namespace Sys2Proof.Machine

/-- Registers that the data operand of an atomic names (R406). -/
def atomRegs (m : ModAtom) : Nat := (if m.d then 2 else 1) * (if m.op == .cas then 2 else 1)

/-- Data operand and, for CAS, the swap value: the compare value comes first (R406). -/
def Ctx.atomData (c : Ctx) (o : MOps) (m : ModAtom) (l : Nat) : Nat × Nat :=
  let n := if m.d then 64 else 32
  let one (x : Src) : Nat := c.rd 1 (.int n) x l
  if m.op == .cas then
    match o.b.op with
    | .v k => (one o.b, one { o.b with op := .v (Fin.ofNat 256 (k.val + (if m.d then 2 else 1))) })
    | .s k => (one o.b, one { o.b with op := .s (Fin.ofNat 128 (k.val + 1)) })
    | _ => (0, 0)
  else (one o.b, 0)

/-- An atomic of a space: its checks close the region, and its accesses perform once everything before it has (R224, R407). -/
def atomInstr (isLocal : Bool) (h : Sched) (o : MOps) (m : ModAtom) (s : State) : Answer :=
  issue h { late := true } (fun c =>
    let e := if m.d then 8 else 4
    let u := memUses o isLocal (some (atomRegs m)) (if m.nr then none else some (regsOf m.d))
    c.closing u fun l =>
      let addrs := c.laneAddrs o e isLocal
      Ctx.withAccs
        (if isLocal then c.localAccs e addrs
         else c.globalAccs ⟨{ rd := true, w := true, a := true }, e, true, false, reachAtomic⟩ addrs) fun accs =>
        let accs := accs.map fun a => let d := c.atomData o m a.lane; { a with data := d.1, data2 := d.2 }
        c.enter { c.pipeOp h (.atomic m) accs (if m.nr then none else some o.d) (regsOf m.d) with closing := some l }) s

/-- ATOM (R406, R407). -/
def execAtom (h : Sched) (o : MOps) (m : ModAtom) (s : State) : Answer := atomInstr false h o m s

/-- ATOM.L (R406, R407). -/
def execAtomL (h : Sched) (o : MOps) (m : ModAtom) (s : State) : Answer := atomInstr true h o m s

/-- The access of each half of a pair type, or the access itself (R287, R408). -/
def pairAccs (t : AccTy) (accs : List LaneAcc) : List LaneAcc :=
  if t.isPair then
    accs.flatMap fun a => [{ a with data := a.data % 65536 }, { a with va := a.va + 2, pa := a.pa + 2, data := a.data / 65536 }]
  else accs

/-- The value that a lane accumulates, with subnormals made zero under FTZI (R408). -/
def Ctx.faccData (c : Ctx) (o : MOps) (m : ModFacc) (l : Nat) : Nat :=
  let f := m.ty.fmt
  let x := c.rd 1 (if m.ty.isPair then .pk f else .fp f) o.b l
  if m.ty.isPair then flushIn f m.ftzi (x % 65536) + 65536 * flushIn f m.ftzi (x / 65536) else flushIn f m.ftzi x

/-- FACC (R408). -/
def execFacc (h : Sched) (o : MOps) (m : ModFacc) (s : State) : Answer :=
  issue h { late := true } (fun c =>
    let e := m.ty.bytes
    c.closing (memUses o false (some (regsOf (m.ty == .f64))) none) fun l =>
      Ctx.withAccs
        (c.globalAccs ⟨{ rd := true, w := true, a := true }, e, true, false, reachAtomic⟩ (c.laneAddrs o e false)) fun accs =>
        let accs := pairAccs m.ty (accs.map fun a => { a with data := c.faccData o m a.lane })
        c.enter { c.pipeOp h (.accum m.ty) accs with closing := some l }) s

/-- FACCRD: of a pair, the access is that of the named half (R287, R410). -/
def execFaccrd (h : Sched) (o : MOps) (m : ModFaccrd) (s : State) : Answer :=
  issue h { late := true } (fun c =>
    let e := m.ty.bytes
    c.guarded (memUses o false none (some 1))
      (Ctx.withAccs (c.globalAccs ⟨{ rd := true }, e, true, false, reachAtomic⟩ (c.laneAddrs o e false)) fun accs =>
        let half (a : LaneAcc) : LaneAcc := if m.ty.isPair then { a with pa := a.pa + 2 * m.ent.val } else a
        c.enter (c.pipeOp h (.accRead m.ty m.ent.val) (accs.map half) (some o.d)))) s

/-- FACCCLR (R411). -/
def execFaccclr (h : Sched) (o : MOps) (m : AccTy) (s : State) : Answer :=
  issue h { late := true } (fun c =>
    let e := m.bytes
    c.closing (memUses o false none none) fun l =>
      Ctx.withAccs
        (c.globalAccs ⟨{ rd := true, w := true, a := true }, e, true, false, reachAtomic⟩ (c.laneAddrs o e false)) fun accs =>
        c.enter { c.pipeOp h (.accClear m) (pairAccs m accs) with closing := some l }) s

end Sys2Proof.Machine
end

