-- ==== Sys2Proof/Machine/Classes.lean ====
section
/-! DEFINITION. Properties of instructions that the picker uses: sources, destinations, issue classes (R356), which instructions
close a region (R223) or converge (R224), and which cross the halves of a Guyline pair (R115). -/

namespace Sys2Proof

/-- The source fields of a word. -/
def Instr.sources : Instr → List Src
  | .iadd _ o _ | .isub _ o _ | .imul _ o _ | .imulh _ o _ | .imad _ o _ | .imin _ o _ | .imax _ o _ | .iabs _ o _
  | .ineg _ o _ | .and _ o _ | .or _ o _ | .xor _ o _ | .andn _ o _ | .not _ o _ | .shl _ o _ | .shr _ o _ | .sar _ o _
  | .rol _ o _ | .ror _ o _ | .popc _ o _ | .clz _ o _ | .ctz _ o _ | .brev _ o _ | .bfx _ o _ | .bfi _ o _ | .prmb _ o _
  | .icmp _ o _ | .fcmp _ o _ | .sel _ o _ | .mov _ o _ | .rdsp _ o _ | .lperm _ o _ | .vote _ o _ | .iscan _ o _
  | .lred _ o _ | .aadd _ o | .aoff _ o | .aexp _ o _ | .pset _ o _ | .plog _ o _ | .pcnt _ o | .fadd _ o _ | .fsub _ o _
  | .fmul _ o _ | .ffma _ o _ | .fmin _ o _ | .fmax _ o _ | .fdiv _ o _ | .fsqrt _ o _ | .frcp _ o _ | .frsq _ o _
  | .fexp2 _ o _ | .flog2 _ o _ | .fsin _ o _ | .fcos _ o _ | .ftanh _ o _ | .ffrc _ o _ | .frnd _ o _ | .fclass _ o _
  | .cvt _ o _ | .cvtNarrow _ o _ | .qnt _ o _ | .dqnt _ o _ | .brx _ o | .callx _ o | .ret _ o | .wput _ o | .wtake _ o
  | .wpeek _ o | .kind _ o _ | .kmask _ o _ => [o.a, o.b, o.c]
  | .st _ o _ | .stL _ o _ | .atom _ o _ | .atomL _ o _ | .facc _ o _ | .stb _ o _ | .acp _ o _ => [o.a, o.b]
  | .movi _ o _ | .aset _ o | .ascl _ o => [o.a]
  | _ => []

/-- The destination that a word writes, with the most registers it can name. -/
def Instr.dest : Instr → Option (Operand × Nat)
  | .iadd _ o _ | .isub _ o _ | .imul _ o _ | .imulh _ o _ | .imad _ o _ | .imin _ o _ | .imax _ o _ | .iabs _ o _
  | .ineg _ o _ | .and _ o _ | .or _ o _ | .xor _ o _ | .andn _ o _ | .not _ o _ | .shl _ o _ | .shr _ o _ | .sar _ o _
  | .rol _ o _ | .ror _ o _ | .popc _ o _ | .clz _ o _ | .ctz _ o _ | .brev _ o _ | .bfx _ o _ | .bfi _ o _ | .prmb _ o _
  | .icmp _ o _ | .fcmp _ o _ | .sel _ o _ | .mov _ o _ | .rdsp _ o _ | .lperm _ o _ | .vote _ o _ | .iscan _ o _
  | .lred _ o _ | .aexp _ o _ | .pcnt _ o | .fadd _ o _ | .fsub _ o _ | .fmul _ o _ | .ffma _ o _ | .fmin _ o _
  | .fmax _ o _ | .fdiv _ o _ | .fsqrt _ o _ | .frcp _ o _ | .frsq _ o _ | .fexp2 _ o _ | .flog2 _ o _ | .fsin _ o _
  | .fcos _ o _ | .ftanh _ o _ | .ffrc _ o _ | .frnd _ o _ | .fclass _ o _ | .cvt _ o _ | .cvtNarrow _ o _ | .qnt _ o _
  | .dqnt _ o _ | .callx _ o | .wtake _ o | .wpeek _ o | .kind _ o _ | .kmask _ o _ | .nwait _ o | .nrd _ o | .ncan _ o
  | .clock _ o _ => some (o.d, 2)
  | .ld _ o m | .ldL _ o m => some (o.d, WF.regs m.size)
  | .lds _ o _ | .faccrd _ o _ | .npost _ o _ | .ncoll _ o _ => some (o.d, 1)
  | .atom _ o m | .atomL _ o m => if m.nr then none else some (o.d, (if m.d then 2 else 1))
  | .movi _ o _ => some (o.d, 2)
  | .call _ o => some (o.d, 2)
  | .rdsys _ o | .rdperf _ o => some (o.d, 2)
  | .tmov _ o m => if m == .vt then some (o.d, 1) else none
  | _ => none

/-- Issue classes (R356). -/
inductive IssueClass where
  | v | u | n
  deriving DecidableEq, Repr

/-- The class of an opcode whose destination is an S register or not (R356, R363). -/
def issueClass (opc : Nat) (dstS : Bool) : IssueClass :=
  let vu : IssueClass := if dstS then .u else .v
  if opc ≤ 0x026 then vu
  else if opc ≤ 0x042 then .v
  else if opc ≤ 0x04A then vu
  else if opc ≤ 0x053 then .v
  else if opc ≤ 0x05B then .u
  else if opc ≤ 0x062 then .v
  else if opc ≤ 0x0A0 then vu
  else if opc ≤ 0x0A2 then .v
  else if opc == 0x190 || opc == 0x191 then .v
  else .n

/-- The class of a word. -/
def Instr.cls (i : Instr) (opc : Nat) : IssueClass :=
  issueClass opc (match i.dest with | some (.s _, _) => true | _ => false)

/-- Whether an operand names a barrier or a counter handle. -/
def Operand.isSignal : Operand → Bool
  | .b _ | .c _ => true
  | _ => false

/-- The instructions known to close their region from opcode and operands (R223, R224). -/
def Instr.closes : Instr → Bool
  | .atom .. | .atomL .. | .facc .. | .faccclr .. | .barArv .. | .barSync .. | .fbar .. | .npost .. | .ntrig .. | .ncoll ..
  | .ncan .. | .stb .. | .wput .. | .wtake .. | .wclr .. => true
  | .acp _ _ m => m.bar.isSome
  | .tld _ o _ | .tldSlide _ o _ | .tst _ o _ => Operand.isSignal o.c.op
  | .maccld _ o _ => Operand.isSignal o.c.op
  | .mdrain _ o _ => Operand.isSignal o.d
  | _ => false

/-- The instructions under the convergence hold, apart from a store into a trigger window (R224, R455). -/
def Instr.converges (i : Instr) : Bool :=
  i.closes || match i with | .waypt .. | .rolesw .. => true | _ => false

/-- Lane operations, whose data may cross the halves of a Guyline pair (R115, R377 to R380). -/
def Instr.crosses (i : Instr) : Bool :=
  (match i with | .lperm .. | .vote .. | .iscan .. | .lred .. => true | _ => false) ||
  i.sources.any fun x => Machine.permCrosses x.perm && match x.op with | .v _ | .w _ => true | _ => false

end Sys2Proof
end

