-- ==== Sys2Proof/Machine/Freeze.lean ====
section
/-! DEFINITION. The partition freeze (R337) and its read-out image (R338). -/

namespace Sys2Proof.Machine

/-- A section of a read-out image (R338). -/
def dumpPart (kind die core unit : Nat) (bs : List Byte) : List Byte :=
  leBytes 1 kind ++ leBytes 1 0 ++ leBytes 2 die ++ leBytes 2 core ++ leBytes 2 unit ++ leBytes 8 bs.length ++ bs

/-- The entries of a table as numbers. -/
def tabNats {α : Type} (f : α → List Nat) (t : Tab α) : List Nat := t.flatMap fun x => x.1 :: f x.2

/-- The value of a fibre state (R206). -/
def FibSt.num : FibSt → Nat
  | .current => 0
  | .waiting => 1
  | .blocked => 2
  | .frozen => 3
  | .exited => 4

/-- What section FIBRES shows of a fibre. -/
def Fibre.statusNats (fb : Fibre) : List Nat :=
  [fb.st.num] ++ fb.pc ++ [fb.restart, fb.livein.nv, fb.livein.ns, fb.livein.nw, fb.livein.nt, fb.issueIx.toNat] ++
  tabNats (fun n => [n]) fb.f ++ [fb.fpstat.toNat]

/-- What section REGS shows of a fibre. -/
def Fibre.regNats (fb : Fibre) : List Nat :=
  tabNats (fun x => [x.toNat]) fb.v ++ tabNats (fun x => [x.toNat]) fb.s ++
  tabNats (fun x => [x.base.toNat, x.stride.toNat]) fb.a ++ tabNats (fun x => [x.toNat]) fb.p ++
  tabNats (fun x => (if x.valid then 1 else 0) :: x.vals.map (·.toNat)) fb.latches

/-- The workgroups resident on a logical core, with their numbers. -/
def State.wgsOn (s : State) (core : Nat) : List (Nat × Workgroup) :=
  s.wgs.filterMap fun x =>
    match x.2 with
    | some w => if w.lcore == core && w.place == .resident then some (x.1, w) else none
    | none => none

/-- The local store of a core: each workgroup's range at its place (R157, R237). -/
def localStoreBytes (ws : List (Nat × Workgroup)) : List Byte :=
  (List.range 524288).map fun a =>
    match ws.find? fun x => decide (x.2.localBase ≤ a) && decide (a < x.2.localBase + x.2.launch.localBytes) with
    | some x => Tab.get 0 x.2.localMem (a - x.2.localBase)
    | none => 0

/-- A space as numbers. -/
def Space.nats : Space → List Nat
  | .localStore => [0, 0]
  | .global => [1, 0]
  | .broadcast => [2, 0]
  | .pod m => [3, m]
  | .remote m => [4, m]
  | .device => [5, 0]
  | .host => [6, 0]

/-- What section TLB shows of an entry. -/
def TlbEnt.nats (e : TlbEnt) : List Nat :=
  [e.asid, e.page, e.bits] ++ e.leaf.space.nats ++ [e.leaf.base] ++ [e.leaf.x, e.leaf.a, e.leaf.w, e.leaf.rd].map fun b => if b then 1 else 0

/-- The check values of a line's sectors (R34). -/
def State.lineChecks (s : State) (line : Nat) : List Nat :=
  (List.range 4).map fun k => crc16 ((List.range 64).map fun j => Memory.byte s.mem (256 * line + 64 * k + j))

/-- What section BARRIERS shows of a fibre: the mask of a fibre barrier at which it has arrived. -/
def Fibre.arrivalNats (fb : Fibre) : List Nat :=
  match fb.arrival with
  | some a => [1, a.mask.toNat, if a.finished then 1 else 0]
  | none => [0]

/-- The sections of one core (R338) (DESIGN CHOICE, log entry 23). -/
def State.dumpCore (s : State) (core : Nat) : List Byte :=
  let ws := s.wgsOn core
  let die := core / 48
  let opq (kind : Nat) (xs : List Nat) : List Byte := dumpPart kind die core 0 (Config.dumpSection kind xs)
  let perFib (f : Fibre → List Nat) : List Nat :=
    ws.flatMap fun w => tabNats (fun sl => tabNats f sl.fibres) w.2.slots
  opq 1 (perFib Fibre.statusNats) ++ opq 2 (perFib Fibre.regNats) ++
  opq 3 (ws.flatMap fun w => tabNats (fun sl => tabNats (fun x => [x.toNat]) sl.win ++ sl.tags.map (·.1)) w.2.slots) ++
  opq 4 (ws.flatMap fun w =>
    tabNats (fun t => [t.row0.toNat, t.col0.toNat, if t.tb then 1 else 0, t.busy] ++ tabNats (fun b => [b.toNat]) t.data)
      w.2.tiles) ++
  opq 5 (ws.flatMap fun w => tabNats (fun x => [x.toNat]) w.2.accs) ++
  opq 6 (ws.flatMap fun w =>
    tabNats (fun b => [b.expected, b.arrived, if b.phase then 1 else 0, b.count]) w.2.bars ++
    tabNats (fun sl => sl.fbarCount :: tabNats (fun n => [n]) sl.winCount ++ tabNats Fibre.arrivalNats sl.fibres) w.2.slots) ++
  dumpPart 7 die core 0 (localStoreBytes ws) ++
  opq 8 ((s.l1.filter fun x => x.1 / 2 ^ 40 == core).flatMap fun x =>
    [x.1 % 2 ^ 40, (match x.2.st with | .i => 0 | .s => 1 | .m => 2), x.2.fill.toNat, x.2.dirty.toNat] ++
    s.lineChecks (x.1 % 2 ^ 40)) ++
  opq 9 ((Tab.get [] s.l1tlb core).flatMap TlbEnt.nats)

/-- A counter word (R177). -/
def Counter.word (c : Counter) : Nat := c.value.toNat + 2 ^ 48 * c.err.toNat + (if c.ovf then 2 ^ 63 else 0)

/-- The 64 bytes of a posted entry, with REARM and THRESH as they stand; zeros where it is FREE (R178, R180, R185). -/
def Entry.bytes (x : Entry) : List Byte :=
  if x.st == .free then List.replicate 64 0
  else
    let flags := leAt x.img 1 1
    byteSlice x.img 0 1 ++ leBytes 1 (flags - flags % 2 + (if x.rearm then 1 else 0)) ++ byteSlice x.img 2 6 ++ leBytes 6 x.thresh ++ byteSlice x.img 14 50

/-- Section FABRIC of a die for a partition's blocks: their counter words and posted entries (R174, R178, R338). -/
def State.dumpFabric (s : State) (die part : Nat) : List Byte :=
  let bs := (List.range 64).filter fun b => s.blockOwner die b == part + 1
  dumpPart 12 die 0xFFFF 0
    (bs.flatMap fun b =>
      ((List.range 64).flatMap fun k => leBytes 8 (s.counter die (64 * b + k)).word) ++
      ((List.range 256).flatMap fun k => (s.entry die (256 * b + k)).bytes))

/-- The read-out image of a partition freeze (R338). -/
def State.dumpImage (s : State) (part : Nat) : List Byte :=
  let p := s.part part
  (List.range 80).flatMap fun die =>
    let cores := ((p.cores.filter fun c => !c.2).map (·.1)).filter fun c => c / 48 == die
    let cores := (List.range 48).filterMap fun k => if cores.contains (48 * die + k) then some (48 * die + k) else none
    let blocks := (List.range 64).any fun b => s.blockOwner die b == part + 1
    if cores.isEmpty && !blocks then []
    else
      cores.flatMap s.dumpCore ++ (if blocks then s.dumpFabric die part else []) ++
      dumpPart 14 die 0xFFFF 0 (p.faultQ.flatMap fun r => r.2)

/-- The freeze line is asserted for a partition; a frozen one is left as it is (R337) (DEDUCED, log entry 102). -/
def State.freezePart (s : State) (part : Nat) : State :=
  if (s.part part).frozen || s.base.frozen.isSome then s
  else s.modPart part fun p => { p with frozen := true, frozenAt := p.dies.map (fun d => (d, s.now d)), image := some (s.dumpImage part) }

end Sys2Proof.Machine
end

