-- ==== Sys2Proof/Machine/Memory.lean ====
section
/-! DEFINITION. The contents of memory as readers see them: stored bytes with the read-out of exact-accumulator entries above
them (R242, R286), check values (R35 to R37), the accumulator tables and their spilling (R241 to R243), broadcast replicas
(R251, R252), and the local store (R237, R238). -/

namespace Sys2Proof.Machine

/-! ### Accumulator entries -/

/-- The entry of an element, with a spilled one's value taken from its images (R243). -/
def State.accAt (s : State) (pa : Nat) : Option AccEnt :=
  match Tab.get none s.accs pa with
  | none => none
  | some e =>
    match e.spillAt with
    | none => some e
    | some a =>
      let g := AccEnt.ofImages e.ty (Memory.bytes s.mem a (if e.ty == .f64 then 448 else 64))
      some { g with spillAt := some a, touch := e.touch }

/-- The entry whose element holds a byte, with the element's address. -/
def State.accOver (s : State) (a : Nat) : Option (Nat × AccEnt) :=
  if s.accs.isEmpty then none
  else
    (List.range 8).findSome? fun d =>
      if d ≤ a then
        match s.accAt (a - d) with
        | some e => if d < e.ty.bytes then some (a - d, e) else none
        | none => none
      else none

/-- A byte as readers see it (R242, R286). -/
def State.byteAt (s : State) (a : Nat) : Byte :=
  match s.accOver a with
  | some (b, e) => BitVec.ofNat 8 (e.readOut / 256 ^ (a - b))
  | none => Memory.byte s.mem a

/-- The n bytes from an address as readers see them. -/
def State.bytesAt (s : State) (a n : Nat) : List Byte := (List.range n).map fun k => s.byteAt (a + k)

/-- The same as a little-endian number. -/
def State.numAt (s : State) (a n : Nat) : Nat := leNat (s.bytesAt a n)

/-- Write an entry. -/
def State.setAcc (s : State) (pa : Nat) (e : Option AccEnt) : State := { s with accs := Tab.set none s.accs pa e }

/-- The elements with entries that [pa, pa + n) touches. -/
def State.accsIn (s : State) (pa n : Nat) : List (Nat × AccEnt) :=
  s.accs.filterMap fun x =>
    match s.accAt x.1 with
    | some e => if x.1 < pa + n && pa < x.1 + e.ty.bytes then some (x.1, e) else none
    | none => none

/-- Table entries of an element (R241). -/
def AccEnt.cost (e : AccEnt) : Nat := if e.ty == .f64 then 7 else 1

/-! ### Check values (R35 to R37) -/

/-- The sectors that [pa, pa + n) touches. -/
def sectorsIn (pa n : Nat) : List Nat := (List.range ((pa % 64 + n + 63) / 64)).map fun k => pa / 64 + k

/-- The failing sector that the images of a spilled entry meet (R35, R37). -/
def State.spillBad (s : State) (e : AccEnt) : Option Nat :=
  match e.spillAt with
  | some a => (sectorsIn a (64 * e.cost)).find? fun x => s.sectorFails (64 * x)
  | none => none

/-- The first failing sector that a reader of [pa, pa + n) meets, of the range or of a spilled entry's images (R35, R37). -/
def State.badSector (s : State) (pa n : Nat) : Option Nat :=
  ((sectorsIn pa n).find? fun x => s.sectorFails (64 * x)).orElse fun _ => (s.accsIn pa n).findSome? fun x => s.spillBad x.2

/-- The first detection of a failing sector produces a module event (R37). -/
def State.reportSector (s : State) (sector : Nat) : State :=
  if Tab.get false s.reported sector || s.homeFenced (64 * sector) then s
  else
    { s with reported := Tab.set false s.reported sector true }.moduleEvent 0x0105 (leBytes 4 0 ++ leBytes 8 (64 * sector))

/-- A failing sector that a reader met, if it did, is reported. -/
def State.reportBad (s : State) (bad : Option Nat) : State :=
  match bad with
  | some k => s.reportSector k
  | none => s

/-- A sector's mark is set. -/
def State.markSector (s : State) (sector : Nat) : State := { s with failing := Tab.set false s.failing sector true }

/-- A store that writes the whole of a sector clears its mark (R36). -/
def State.clearWhole (s : State) (pa n : Nat) : State :=
  if s.failing.isEmpty then s
  else
    let whole := ((List.range (n / 64 + 1)).map fun k => (pa + 63) / 64 + k).filter fun x => decide (64 * x + 64 ≤ pa + n)
    whole.foldl (fun s x =>
      { s with failing := Tab.set false s.failing x false, reported := Tab.set false s.reported x false }) s

/-- The failing sectors that [pa, pa + n) still touches are detected by a store that writes part of them (R36, R37). -/
def State.detect (s : State) (pa n : Nat) : State :=
  if s.failing.isEmpty then s
  else ((sectorsIn pa n).filter fun x => Tab.get false s.failing x).foldl State.reportSector s

/-! ### Accumulator tables (R241 to R243) -/

/-- The L2 slice of an address, over the package (R234). -/
def sliceOf (pa : Nat) : Nat := 16 * homeDie pa + pa / 256 % 16

/-- Table entries in use at a slice. -/
def State.sliceUse (s : State) (slice : Nat) : Nat :=
  s.accs.foldl (fun n x =>
    match x.2 with
    | some e => if sliceOf x.1 == slice && e.spillAt.isNone then n + e.cost else n
    | none => n) 0

/-- Whether a place in a spill region is free. -/
def State.spillFree (s : State) (a k : Nat) : Bool :=
  s.accs.all fun x =>
    match x.2 with
    | some e => match e.spillAt with
      | some b => decide (a + 64 * k ≤ b) || decide (b + 64 * e.cost ≤ a)
      | none => true
    | none => true

/-- The first free place for images in a partition's spill region (R243). -/
def State.spillPlace (s : State) (part k : Nat) : Option Nat :=
  match (s.part part).spill with
  | none => none
  | some (g, n) =>
    ((List.range (n * 32768)).map fun i => g * 2 ^ 21 + 64 * i).find? fun a =>
      decide (a + 64 * k ≤ (g + n) * 2 ^ 21) && s.spillFree a k

/-- The least recently used entry of a slice that can be spilled, with its place. -/
def State.spillVictim (s : State) (slice : Nat) : Option (Nat × AccEnt × Nat) :=
  let cands := s.accs.filterMap fun x =>
    match x.2 with
    | some e =>
      if sliceOf x.1 == slice && e.spillAt.isNone then
        match s.spillPlace (s.ownerOf x.1 - 1) e.cost with
        | some a => some (x.1, e, a)
        | none => none
      else none
    | none => none
  cands.foldl (fun best x =>
    match best with
    | none => some x
    | some b => if x.2.1.touch < b.2.1.touch then some x else some b) none

/-- An entry's images are written at a place of the spill region, whose sectors are whole then (R36, R243). -/
def State.spillTo (s : State) (pa : Nat) (e : AccEnt) (a : Nat) : State :=
  { s.setAcc pa (some { e with spillAt := some a }) with mem := Memory.write s.mem a e.images }.clearWhole a (64 * e.cost)

/-- Spill entries of a slice until `need` more fit; none when they cannot (R243). -/
def State.makeRoom (s : State) (slice need : Nat) : Nat → Option State
  | 0 => none
  | fuel + 1 =>
    if s.sliceUse slice + need ≤ 4096 then some s
    else
      match s.spillVictim slice with
      | none => none
      | some (pa, e, a) =>
        (s.spillTo pa e a).makeRoom slice need fuel

/-- An entry is touched: a spilled one is brought back where room can be made (R243). -/
def State.touchAcc (s : State) (pa : Nat) : State :=
  match s.accAt pa with
  | none => s
  | some e =>
    if e.spillAt.isNone then s.setAcc pa (some { e with touch := s.tick })
    else
      match s.makeRoom (sliceOf pa) e.cost 4097 with
      | none => s
      | some s1 => s1.setAcc pa (some { e with spillAt := none, touch := s.tick })

/-- Entries that an access meets are touched. -/
def State.touchIn (s : State) (pa n : Nat) : State := (s.accsIn pa n).foldl (fun s x => s.touchAcc x.1) s

/-- Whether an accumulate of a type meets an entry of another type or extent (R288). -/
def State.accClash (s : State) (pa : Nat) (t : AccTy) : Bool :=
  (s.accsIn pa t.scalar.bytes).any fun x => x.1 != pa || x.2.ty != t.scalar

/-! ### Stores -/

/-- The bytes of a list laid over an element's value (R286). -/
def mergeElem (at_ w : Nat) (val pa : Nat) (bs : List Byte) : Nat :=
  leNat ((List.range w).map fun k =>
    let a := at_ + k
    if pa ≤ a && a < pa + bs.length then bs.getD (a - pa) 0 else BitVec.ofNat 8 (val / 256 ^ k))

/-- An entry takes the value that a store leaves in its element: back in its table where there is room, or else in its images. The mark
of failing images that the store replaces only in part stays with the element (R36, R243, R286). -/
def State.storeEntry (s : State) (at_ : Nat) (e : AccEnt) (pa : Nat) (bs : List Byte) : State :=
  let part := decide (at_ < pa) || decide (pa + bs.length < at_ + e.ty.bytes)
  let s0 := if part && (s.spillBad e).isSome then s.markSector (at_ / 64) else s
  let new : AccEnt := { AccEnt.ofValue e.ty (decodeVal e.ty.fmt (mergeElem at_ e.ty.bytes e.readOut pa bs)) with touch := s.tick }
  let s1 := s0.touchAcc at_
  match (s1.accAt at_).bind (·.spillAt) with
  | none => s1.setAcc at_ (some new)
  | some a => s1.spillTo at_ new a

/-- The memory and the entries after a store of bytes to package memory: entries that it meets are replaced exactly (R286). -/
def State.putBytes (s : State) (pa : Nat) (bs : List Byte) : State :=
  (s.accsIn pa bs.length).foldl (fun s x => s.storeEntry x.1 x.2 pa bs)
    { s with
      mem := Memory.write s.mem pa bs
      fresh := s.fresh.filter fun x => pa + bs.length ≤ x.1 || x.1 + x.2 ≤ pa }

/-- A store of bytes to package memory (R36, R286). -/
def State.storeBytes (s : State) (pa : Nat) (bs : List Byte) : State :=
  ((s.putBytes pa bs).clearWhole pa bs.length).detect pa bs.length

/-- A store of bytes to a sector that other bytes of the same store make whole, the last of them or not: the sector is good once all
are there, and the old content is not verified (R36). -/
def State.storeShare (s : State) (pa : Nat) (bs : List Byte) (last : Bool) : State :=
  let s1 := s.putBytes pa bs
  if last then s1.clearWhole (pa / 64 * 64) 64 else s1

/-- Consecutive offsets of a list of bytes, as runs. -/
def byteRuns (xs : List (Nat × Byte)) : List (Nat × List Byte) :=
  xs.foldr (fun x rs =>
    match rs with
    | (o, bs) :: r => if x.1 + 1 == o then (x.1, x.2 :: bs) :: r else (x.1, [x.2]) :: rs
    | [] => [(x.1, [x.2])]) []

/-- A store under a byte mask: bytes present are stored. -/
def State.storeMasked (s : State) (pa : Nat) (bs : List (Option Byte)) : State :=
  (byteRuns ((bs.mapIdx fun k b => b.map fun b => (pa + k, b)).filterMap id)).foldl (fun s r => s.storeBytes r.1 r.2) s

/-! ### Accumulates -/

/-- An accumulate at its home slice (R241, R243, R286, R309): none when no entry can be provided. -/
def State.accumulateAt (s : State) (pa : Nat) (t : AccTy) (f : AccEnt → AccEnt) : Option State :=
  let put (s : State) (e : AccEnt) : State := s.setAcc pa (some { f e with spillAt := none, touch := s.tick })
  match s.accAt pa with
  | some e =>
    if e.spillAt.isNone then some (put s e)
    else
      match s.makeRoom (sliceOf pa) e.cost 4097 with
      | some s1 => some (put s1 e)
      | none => none
  | none =>
    let e : AccEnt := { ty := t.scalar }
    match s.makeRoom (sliceOf pa) e.cost 4097 with
    | some s1 => some (put s1 e)
    | none => none

/-- The failing sector that an accumulate meets, which reads a spilled entry's images (R37, R243). -/
def State.sumBad (s : State) (pa : Nat) : Option Nat := (Tab.get none s.accs pa).bind s.spillBad

/-- The home record of a line. -/
def State.home (s : State) (line : Nat) : Home := Tab.get {} s.homes line
/-- Write the home record of a line. -/
def State.setHome (s : State) (line : Nat) (h : Home) : State := { s with homes := Tab.set {} s.homes line h }

/-- A line whose last entry is gone is no longer pinned (R242). -/
def State.unpin (s : State) (line : Nat) : State :=
  if (s.accsIn (256 * line) 256).isEmpty then
    let h := s.home line
    if h.pinned then s.setHome line { h with pinned := false } else s
  else s

/-- FACCCLR of one element: the entry is removed and its bytes are +0 (R411). -/
def State.clearElem (s : State) (pa : Nat) (t : AccTy) : State :=
  let s1 := { s.setAcc pa none with sums := Tab.set 0 s.sums pa 0 }
  ({ s1 with mem := Memory.write s1.mem pa (List.replicate t.scalar.bytes 0) }.clearWhole pa t.scalar.bytes).unpin (lineOf pa)

/-- The image entry of an element as FACCRD reads it (R410). -/
def State.imageOf (s : State) (pa : Nat) (t : AccTy) : AccEnt :=
  match s.accAt pa with
  | some e => e
  | none => AccEnt.ofValue t.scalar (decodeVal t.fmt (s.numAt pa t.scalar.bytes))

/-- The failing sector that the image of an element meets: an entry's image reads no stored byte, unless it lies spilled
(R37, R243, R286, R410). -/
def State.imageBad (s : State) (pa : Nat) (t : AccTy) : Option Nat :=
  match Tab.get none s.accs pa with
  | some e => s.spillBad e
  | none => s.badSector pa t.scalar.bytes

/-! ### Broadcast replicas -/

/-- The physical address of a window offset on a member die (R251). -/
def BWin.replica (b : BWin) (die o : Nat) : Nat := (80 * (b.row0 + o / 2 ^ 21) + die) * 2 ^ 21 + o % 2 ^ 21

/-- The address that a die reads for an access to a window: its own replica, or the writer's (R252). -/
def State.broadcastPa (s : State) (die pa : Nat) : Nat :=
  match Tab.get none s.bwins (pa / 2 ^ 40) with
  | none => 0
  | some b => b.replica (if b.members.contains die then die else b.writer) (pa % 2 ^ 40)

/-! ### The local store -/

/-- Bytes of a workgroup's local store (R237). -/
def Workgroup.localBytes (w : Workgroup) (o n : Nat) : List Byte := Memory.bytes w.localMem o n
/-- The 64-byte parts of the local store, among n bytes, that are wholly there. -/
def wholeIn (o n : Nat) (x : Nat) : Bool := decide (o ≤ 64 * x) && decide (64 * x + 64 ≤ o + n)

/-- Write bytes of a workgroup's local store; a part written whole is good again (R36, R38). -/
def Workgroup.setLocal (w : Workgroup) (o : Nat) (bs : List Byte) : Workgroup :=
  { w with
    localMem := Memory.write w.localMem o bs
    localBad := w.localBad.filter fun x => !wholeIn o bs.length x }

/-- The part of the local store, among n bytes, whose contents cannot be corrected (R38). -/
def Workgroup.localFails (w : Workgroup) (o n : Nat) : Option Nat := (sectorsIn o n).find? w.localBad.contains

end Sys2Proof.Machine
end

