-- ==== Sys2Proof/Machine/Engine.lean ====
section
/-! DEFINITION. What the copy and matrix engines share: entry of a command into its queue (R280, R420, R436), busy tiles
(R230), the memory rows that a command names (R422, R423, R437, R438), and a tile as a reader sees it while a load into it is
under way (R429, R436). -/

namespace Sys2Proof.Machine

/-! ### Rows in memory -/

/-- The address of a row, in a space of 64 or 32 bits. -/
def engAddr (ls : Bool) (a : Nat) (k : Int) : Nat := wrap (if ls then 32 else 64) (a + k)

/-- The tile rows of a transfer: offset in the tile, and the address, or none for a padding row (R422, R423). -/
def CmdKind.rows : CmdKind → List (Nat × Option Nat)
  | .tld _ ls a rowb rows p | .tst _ ls a rowb rows p =>
    (List.range rows).map fun r => (rowb * r, some (engAddr ls a (r * p)))
  | .slide _ ls a rowb rows p cg st wd x0 =>
    (List.range rows).map fun r =>
      let x := x0 + (r * st : Nat)
      (rowb * r, if 0 ≤ x && x < wd then some (engAddr ls a (x * p + (cg * rowb : Nat))) else none)
  | _ => []

/-- The bytes of each tile row. -/
def CmdKind.rowBytes : CmdKind → Nat
  | .tld _ _ _ n _ _ | .tst _ _ _ n _ _ | .slide _ _ _ n _ _ _ _ _ _ => n
  | _ => 0

/-- The tiles that a command makes busy (R230, R422, R436). -/
def CmdKind.tileList : CmdKind → List Nat
  | .tld t .. | .slide t .. | .tst t .. => [t]
  | .mma _ ta tb ts .. =>
    match ts with
    | some x => [ta, tb, x]
    | none => [ta, tb]
  | _ => []

/-- The pieces of a range, page by page: address and length (R420; R83 and R169 for windows and save records)
(DEDUCED, log entry 99). -/
def pagePieces (va n : Nat) : List (Nat × Nat) :=
  if n == 0 then []
  else (List.range ((va % 65536 + n + 65535) / 65536)).map fun i =>
    let lo := max va (65536 * (va / 65536 + i))
    (lo, min (va + n) (65536 * (va / 65536 + i + 1)) - lo)

/-- Where a translated page of a command puts an address (R420). -/
def Cmd.placeOf (c : Cmd) (va : Nat) : Space × Nat :=
  match c.trans.find? fun x => x.1 == va / 65536 with
  | some (_, sp, pa) => (sp, pa + va % 65536)
  | none => (.localStore, va)

/-- The address in package memory that a die reads for a space (R234, R252). -/
def State.readPa (s : State) (die : Nat) (sp : Space) (pa : Nat) : Nat :=
  match sp with
  | .broadcast => s.broadcastPa die pa
  | _ => pa

/-- The bytes of a pod line as this module holds them; where it holds none, bytes that only the home module knows are free
(R253; DESIGN CHOICE, log entry 8). -/
def State.podByte (s : State) (m a : Nat) : Byte :=
  let l := Tab.get {} s.podLines (m * 2 ^ 40 + a / 256)
  if l.st == .i then (Config.freeValue s.free (2 ^ 30 + a)).truncate 8 else Tab.get 0 l.bytes (a % 256)

/-- Bytes of a space as an agent on a die reads them; remote, host and device bytes arrive by messages. -/
def State.bytesIn (s : State) (wg : Workgroup) (sp : Space) (a n : Nat) : List Byte :=
  match sp with
  | .localStore => wg.localBytes a n
  | .global => s.bytesAt a n
  | .broadcast => s.bytesAt (s.broadcastPa wg.die a) n
  | .pod m => (List.range n).map fun k => s.podByte m (a + k)
  | _ => List.replicate n 0

/-- The bytes of a row of a started command, piece by piece. -/
def State.rowIn (s : State) (wg : Workgroup) (c : Cmd) (ls : Bool) (a n : Nat) : List Byte :=
  if ls then wg.localBytes a n
  else (pagePieces a n).flatMap fun x => let p := c.placeOf x.1; s.bytesIn wg p.1 p.2 x.2

/-- Whether an operand of a command is in the local store. -/
def CmdKind.isLocal : CmdKind → Bool
  | .tld _ ls .. | .slide _ ls .. | .tst _ ls .. | .maccld _ _ ls .. | .mdrain _ _ _ ls .. => ls
  | _ => false

/-- The tile bytes that a tile load writes: runs of bytes with their offsets; padding rows are zero (R422, R423). -/
def State.loadedRows (s : State) (wg : Workgroup) (c : Cmd) : List (Nat × List Byte) :=
  let n := c.kind.rowBytes
  c.kind.rows.map fun r =>
    (r.1, match r.2 with
      | some a => s.rowIn wg c c.kind.isLocal a n
      | none => List.replicate n 0)

/-- Lay runs of bytes over data of a tile. -/
def putRuns (t : Tab Byte) (rs : List (Nat × List Byte)) : Tab Byte := rs.foldl (fun t r => Memory.write t r.1 r.2) t

/-! ### Tiles -/

/-- Change a tile. -/
def Workgroup.modTile (w : Workgroup) (n : Nat) (f : Tile → Tile) : Workgroup := w.setTile n (f (w.tile n))

/-- Whether a started load into a tile is under way. -/
def Cmd.loads (c : Cmd) (wg tile : Nat) : Bool :=
  c.wg == wg && c.started &&
  match c.kind with
  | .tld t .. | .slide t .. => t == tile
  | _ => false

/-- Mix old and new bytes: each aligned 4 bytes is one or the other (R429, R436; DESIGN CHOICE, log entry 8). -/
def mixRuns (free : Nat → Bool) (t : Tab Byte) (rs : List (Nat × List Byte)) : Tab Byte :=
  rs.foldl (fun t r =>
    (List.range ((r.2.length + 3) / 4)).foldl (fun t k =>
      if free (r.1 / 4 + k) then Memory.write t (r.1 + 4 * k) ((r.2.drop (4 * k)).take 4) else t) t) t

/-- A tile's bytes as a reader sees them while loads into it are under way (R429, R436). -/
def State.tileSeen (s : State) (w n : Nat) : Tab Byte :=
  let wg := s.wg w
  ((s.core wg.lcore).copyQ.filter fun c => c.loads w n).foldl
    (fun t c => mixRuns (fun k => (Config.freeValue s.free (2 ^ 20 + 2048 * n + k)).getLsbD 0) t (s.loadedRows wg c))
    (wg.tile n).data

/-! ### Entering a queue -/

/-- The signal that an operand names (R417, R420, R440). -/
def Ctx.signalOf (c : Ctx) (o : Operand) : Signal :=
  match o with
  | .b n => .bar n.val
  | .c k => .ctr (c.wg.launch.ctrBase + k.val)
  | _ => .none

/-- Whether a command closes its region by the signal it names (R223). -/
def Signal.closes : Signal → Bool
  | .none => false
  | _ => true

/-- A counter handle is checked at issue (R352). -/
def signalUses (o : Operand) : List (Operand × Nat) :=
  match o with
  | .c k => [(.c k, 1)]
  | _ => []

/-- A command of this issue; `rest` is the address of the following word (R224, R424). -/
def Ctx.command (c : Ctx) (h : Sched) (kind : CmdKind) (sig : Signal) (closing : Option LiveIn)
    (rest : Nat := nextPc c.f.pc) : Cmd :=
  { id := c.s.nextId, wg := c.f.wg, slot := c.f.slot, fib := c.f.fib, pc := c.f.pc, lanes := c.act, kind := kind,
    flag := h.setf, signal := sig, closing := closing.map fun l => (rest, l) }

/-- The tiles of a command become busy. -/
def Workgroup.occupy (w : Workgroup) (ts : List Nat) : Workgroup :=
  ts.foldl (fun w t => w.modTile t fun x => { x with busy := x.busy + 1 }) w
/-- The tiles of a command are no longer busy with it. -/
def Workgroup.vacate (w : Workgroup) (ts : List Nat) : Workgroup :=
  ts.foldl (fun w t => w.modTile t fun x => { x with busy := x.busy - 1 }) w

/-- A command enters the copy queue or the matrix queue of its core. -/
def State.enqueueCmd (s : State) (matrix : Bool) (cmd : Cmd) : State :=
  let wg := s.wg cmd.wg
  let s1 := s.modCore wg.lcore fun k =>
    if matrix then { k with matQ := k.matQ ++ [cmd] } else { k with copyQ := k.copyQ ++ [cmd] }
  { s1.setWg cmd.wg (wg.occupy cmd.kind.tileList) with nextId := max s1.nextId (cmd.id + 1) }

/-- Enter a command at issue: a full copy queue of 64 commands holds it (R420) (DEDUCED, log entry 79). -/
def Ctx.enterCmd (c : Ctx) (matrix : Bool) (cmd : Cmd) : Res :=
  if !matrix && 64 ≤ (c.s.core c.wg.lcore).copyQ.length then .hold c.s
  else .done ((c.put c.fb).enqueueCmd matrix cmd) none

/-! ### Checks of rows at issue -/

/-- MISALIGNED at an address, with the size that it must be a multiple of. -/
def misalignedAt (a e : Nat) : Guard := .trap ⟨.misaligned, 0xFF, a, e⟩

/-- Every address of a list is a multiple of e. -/
def alignedAll (e : Nat) (as : List Nat) : Guard :=
  match as.find? fun a => a % e != 0 with
  | some a => misalignedAt a e
  | none => .ok

/-- LOCAL_BOUND of ranges of the local store, or HOST_SPACE of addresses with bit 56 set (R231, R237, R401). -/
def Ctx.reachable (c : Ctx) (ls : Bool) (rs : List (Nat × Nat)) : Guard :=
  if ls then
    match rs.find? fun r => decide (c.wg.launch.localBytes < r.1 + r.2) with
    | some r => .trap ⟨.localBound, 0xFF, r.1, c.wg.launch.localBytes⟩
    | none => .ok
  else
    match rs.find? fun r => decide (r.1 < 2 ^ 57) && bitAt r.1 56 with
    | some r => .trap (hostTrap 0xFF r.1)
    | none => .ok

end Sys2Proof.Machine
end

