-- ==== Sys2Proof/Machine/Tile.lean ====
section
/-! DEFINITION. Tile instructions (R428 to R433). -/

namespace Sys2Proof.Machine

/-- The tile that an operand names. -/
def tileOf (o : Operand) : Nat :=
  match o with
  | .t n => n.val
  | _ => 0

/-- Write a tile at issue: a busy tile holds the instruction (R230, R429). -/
def Ctx.writeTile (c : Ctx) (n : Nat) (f : Tile → Tile) : Res :=
  if (c.wg.tile n).busy != 0 then .hold c.s
  else
    let s := c.put c.fb
    .done (s.setWg c.f.wg ((s.wg c.f.wg).modTile n f)) none

/-- The uses of a tile instruction with a tile destination. -/
def tileUses (o : XOps) (srcs : List (Operand × Nat)) : Uses := { ops := srcs, writes := [(o.d, 1)] }

/-- TCFG (R430). -/
def execTcfg (h : Sched) (o : XOps) (m : ModTcfg) (s : State) : Answer :=
  issue h {} (fun c =>
    let x := c.rd 0 (.int 64) o.a c.lane0
    c.guarded (tileUses o [(o.a.op, 2)])
      (c.writeTile (tileOf o.d) fun t =>
        let t := if m.noorg then t else { t with row0 := BitVec.ofNat 32 x, col0 := BitVec.ofNat 32 (x / 2 ^ 32) }
        if m.kt then t else { t with tb := m.t })) s

/-- TZERO (R431). -/
def execTzero (h : Sched) (o : XOps) (s : State) : Answer :=
  issue h {} (fun c => c.guarded (tileUses o []) (c.writeTile (tileOf o.d) fun t => { t with data := [] })) s

/-- The chunk index of TMOV (R432). -/
def Ctx.chunk (c : Ctx) (o : XOps) : Nat := c.rd 1 (.int 64) o.b c.lane0

/-- A chunk index beyond 127 (R432). -/
def chunkRange (k : Nat) : Guard := if 127 < k then regRange 2 (k % 256) else .ok

/-- TMOV (R432): its three modes. -/
def execTmov (h : Sched) (o : XOps) (m : TmovMode) (s : State) : Answer :=
  match m with
  | .tt =>
    issue h {} (fun c =>
      c.guarded (tileUses o [(o.a.op, 1)])
        (c.writeTile (tileOf o.d) fun t =>
          { c.wg.tile (tileOf o.a.op) with data := c.s.tileSeen c.f.wg (tileOf o.a.op), busy := t.busy })) s
  | .tv =>
    issue h {} (fun c =>
      let k := c.chunk o
      let u := tileUses o [(o.a.op, 1), (o.b.op, 2)]
      ((c.checkNames u).and ((chunkRange k).and (c.checkAccess u))).run
        (c.writeTile (tileOf o.d) fun t =>
          { t with data := putRuns t.data ((lanesOf c.act).map fun l => (64 * k + 4 * l, leBytes 4 (c.rd 0 (.int 32) o.a l))) })) s
  | .vt =>
    issue h { lat := 4 } (fun c =>
      let k := c.chunk o
      let u : Uses := { ops := [(o.a.op, 1), (o.b.op, 2)], writes := [(o.d, 1)] }
      let t := c.s.tileSeen c.f.wg (tileOf o.a.op)
      ((c.checkNames u).and ((chunkRange k).and (c.checkAccess u))).run
        (c.result h 4 o.d 32 false fun l => Memory.read t (64 * k + 4 * l) 4)) s

/-- Half bytes of an element of TXP (R433). -/
def txpHalves : TxpEsz → Nat
  | .n => 1
  | .b => 2
  | .h => 4
  | .w => 8
  | .d => 16

/-- A half byte of a tile: bits [3:0] come first (R300). -/
def tileNibble (t : Tab Byte) (k : Nat) : Nat := (Memory.byte t (k / 2)).toNat / 16 ^ (k % 2) % 16

/-- The half byte of the source that half byte `k` of the transposed tile takes: element (i, j) of a view with `w` elements to
a row becomes element (j, i) of the other, whose rows have `v` elements. -/
def txpSource (e v w k : Nat) : Nat :=
  let el := k / e
  e * ((el % v) * w + el / v) + k % e

/-- The transposed data: DIR 0 from 32-element rows to 32 rows, DIR 1 the reverse (R433). -/
def txpData (esz : TxpEsz) (rev : Bool) (t : Tab Byte) : Tab Byte :=
  let e := txpHalves esz
  let r := 16384 / e / 32
  let src (k : Nat) : Nat := if rev then txpSource e 32 r k else txpSource e r 32 k
  if t.isEmpty then []
  else
    (List.range 8192).foldl
      (fun d i => Memory.setByte d i (BitVec.ofNat 8 (tileNibble t (src (2 * i)) + 16 * tileNibble t (src (2 * i + 1))))) []

/-- TXP (R433). -/
def execTxp (h : Sched) (o : XOps) (m : TxpEsz) (s : State) : Answer :=
  issue h {} (fun c =>
    c.guarded (tileUses o [(o.a.op, 1)])
      (c.writeTile (tileOf o.d) fun t =>
        let a := c.wg.tile (tileOf o.a.op)
        { data := txpData m (o.fsa.val == 1) (c.s.tileSeen c.f.wg (tileOf o.a.op)), row0 := a.row0, col0 := a.col0,
          tb := !a.tb, busy := t.busy })) s

end Sys2Proof.Machine
end

