-- ==== Sys2Proof/Machine/Matrix.lean ====
section
/-! DEFINITION. Matrix-engine commands at issue (R434 to R440); the events of the engines start and perform them. -/

namespace Sys2Proof.Machine

/-- The accumulator that an operand names. -/
def accOf (o : Operand) : Nat :=
  match o with
  | .acc n => n.val
  | _ => 0

/-- ILLEGAL_OP of an opcode (R328). -/
def illegalOp (opc : Nat) : Guard := .trap ⟨.illegalOp, 0xFF, 0, opc⟩

/-- The depth K of an operand format (R434). -/
def Fmt.depth : Fmt → Nat
  | .fp64 => 32
  | .fp32 => 64
  | .bf16 | .fp16 => 128
  | .e4m3 | .e5m2 | .int8 | .int8x | .e3m2 | .e2m3 => 256
  | .e2m1 | .int4 => 512
  | .tern => 1280

/-- The scale tile that SRCC names (R434). -/
def scaleTile (o : XOps) : Option Nat :=
  match o.c.op with
  | .t n => some n.val
  | _ => none

/-- The operand rules of MMA that the launch decides (R317, R434). -/
def mmaLegal (wg : Workgroup) (o : XOps) : Bool :=
  let a := wg.fmtSlot o.fsa.val
  let b := wg.fmtSlot o.fsb.val
  match a.format, b.format with
  | some fa, some fb =>
    Fmt.depth fa == Fmt.depth fb && (scaleTile o).isSome == (a.bsz || b.bsz) && !(fa == .fp64 && accOf o.d % 2 == 1)
  | _, _ => false

/-- Whether MMA acts on a pair of accumulators (R434). -/
def mmaWide (wg : Workgroup) (o : XOps) : Bool := (wg.fmtSlot o.fsa.val).format == some .fp64

/-- The uses of MMA. -/
def mmaUses (wg : Workgroup) (o : XOps) : Uses :=
  { ops := [(o.d, regsOf (mmaWide wg o)), (o.a.op, 1), (o.b.op, 1)] ++
      (match scaleTile o with | some _ => [(o.c.op, 1)] | none => []) }

/-- The command of an MMA word. -/
def mmaKind (o : XOps) (m : ModMma) : CmdKind :=
  .mma (accOf o.d) (tileOf o.a.op) (tileOf o.b.op) (scaleTile o) o.fsa.val o.fsb.val m

/-- The checks of an MMA word (R326 steps 2 and 3). -/
def Ctx.mmaCheck (c : Ctx) (o : XOps) : Guard :=
  if mmaLegal c.wg o then c.checkNames (mmaUses c.wg o) else illegalOp 0x188

/-- MMA (R434 to R436). -/
def execMma (h : Sched) (o : XOps) (m : ModMma) (s : State) : Answer :=
  issue h { late := true } (fun c =>
    (c.mmaCheck o).run (c.enterCmd true (c.command h (mmaKind o m) .none none))) s

/-- Bytes of an element of MACCLD, and of its rows of 32 (R437). -/
def maccldBytes : MaccldTy → Nat
  | .f32 => 4
  | .bf16 => 2
  | .f64 => 8
  | .zero => 0

/-- The addresses of the 32 rows of an accumulator. -/
def accRows (ls : Bool) (a : Nat) (p : Int) : List Nat := (List.range 32).map fun i => engAddr ls a (p * (i : Nat))

/-- MACCLD (R437): the pitch word's other bits are reserved, and ignored (R9; DEDUCED, log entry 22). -/
def execMaccld (h : Sched) (o : XOps) (m : ModMaccld) (s : State) : Answer :=
  issue h { late := true } (fun c =>
    let sig := c.signalOf o.c.op
    let u : Uses := { ops := (o.d, regsOf (m.ty == .f64)) :: signalUses o.c.op }
    let a := c.rd 0 (.int (if m.ls then 32 else 64)) o.a c.lane0
    let w := c.rd 1 (.int 64) o.b c.lane0
    let p := sextInt 32 w
    let e := maccldBytes m.ty
    c.maybeClosing sig.closes u fun closing =>
      let cmd := c.command h (.maccld (accOf o.d) m.ty m.ls a p) sig closing
      if m.ty == .zero then c.enterCmd true cmd
      else
        ((alignedAll e [a]).and ((if wrap e.log2 p != 0 then misalignedAt a e else .ok).and
          (c.reachable m.ls ((accRows m.ls a p).map fun x => (x, 32 * e))))).run (c.enterCmd true cmd)) s

/-- Whether a mode of MDRAIN reads a pair of accumulators (R438). -/
def drainWide : MdrainMode → Bool
  | .f64 | .f64q => true
  | .f32 | .bf16 | .q => false

/-- Whether a mode of MDRAIN goes through a format slot (R438). -/
def drainSlot : MdrainMode → Bool
  | .q | .f64q => true
  | .f32 | .bf16 | .f64 => false

/-- The runs of bytes of a row that a drain writes: offset and length (R300, R438). -/
def drainRuns (mode : MdrainMode) (f : Fmt) (plane : Nat) : List (Nat × Nat) :=
  match mode with
  | .f32 => [(0, 128)]
  | .bf16 => [(0, 64)]
  | .f64 => [(0, 256)]
  | .q | .f64q =>
    match f with
    | .e4m3 | .e5m2 | .int8 | .int8x => [(0, 32)]
    | .e2m1 | .int4 => [(0, 16)]
    | .e3m2 | .e2m3 => [(0, 16), (plane, 8)]
    | .tern => [(0, 7)]
    | .bf16 | .fp16 => [(0, 64)]
    | .fp32 => [(0, 128)]
    | .fp64 => [(0, 256)]

/-- The distance of the 2-bit plane in memory (R300). -/
def FmtSlot.plane (f : FmtSlot) : Nat := 2 ^ f.pln

/-- The address of a row's scale byte: in the side area, or at the slot's distance from the elements (R439). -/
def scaleAddr (fs : FmtSlot) (ls : Bool) (a side i : Nat) : Nat :=
  if fs.soff == 0 then engAddr ls side (16 + i : Nat) else engAddr ls a (fs.soff.toNat + i : Nat)

/-- All ranges that a drain writes (R438, R439). -/
def drainRanges (mode : MdrainMode) (fs : FmtSlot) (ls : Bool) (a : Nat) (p : Int) (side : Nat) : List (Nat × Nat) :=
  let f := fs.format.getD .fp32
  ((accRows ls a p).flatMap fun x => (drainRuns mode f fs.plane).map fun r => (engAddr ls x (r.1 : Nat), r.2)) ++
  (if drainSlot mode then
    (side, 16) :: (if fs.bsz then (List.range 32).map fun i => (scaleAddr fs ls a side i, 1) else [])
   else [])

/-- Register k beyond the descriptor of MDRAIN. -/
def nextS (x : Src) (k : Nat) : Src :=
  match x.op with
  | .s n => { x with op := .s (Fin.ofNat 128 (n.val + k)) }
  | _ => x

/-- MDRAIN (R438, R439). -/
def execMdrain (h : Sched) (o : XOps) (m : MdrainMode) (s : State) : Answer :=
  issue h { late := true } (fun c =>
    let sig := c.signalOf o.d
    let fs := c.wg.fmtSlot o.fsa.val
    let u : Uses := { ops := (o.c.op, regsOf (drainWide m)) :: signalUses o.d }
    let w := c.rd 1 (.int 64) o.b c.lane0
    let ls := bitAt w 63
    let a := c.rd 0 (.int (if ls then 32 else 64)) o.a c.lane0
    let side := c.rd 1 (.int (if ls then 32 else 64)) (nextS o.b 1) c.lane0
    let off := c.rd 1 (.int 64) (nextS o.b 2) c.lane0
    let p := sextInt 32 w
    let six := drainSlot m && (fs.format == some .e3m2 || fs.format == some .e2m3)
    let e := if six then 32 else 4
    if drainSlot m && fs.format.isNone then .trap ⟨.illegalOp, 0xFF, 0, 0x18A⟩
    else
      c.maybeClosing sig.closes u fun closing =>
        ((alignedAll e [a]).and
          ((if wrap e.log2 p != 0 || field w 32 31 != 0 then misalignedAt a e else .ok).and
            ((if drainSlot m then alignedAll 16 [side] else .ok).and
              (c.reachable ls (drainRanges m fs ls a p side))))).run
          (c.enterCmd true
            (c.command h
              (.mdrain (accOf o.c.op) o.fsa.val m ls a p side (BitVec.ofNat 32 off) (BitVec.ofNat 32 (off / 2 ^ 32)))
              sig closing))) s

end Sys2Proof.Machine
end

