-- ==== Sys2Proof/Machine/Copy.lean ====
section
/-! DEFINITION. Copy-engine commands at issue (R420 to R424); the events of the engines start and perform them. -/

namespace Sys2Proof.Machine

/-! ### Host addresses (R86, R232) -/

/-- The host target that a host address names, for a partition's data function: entry and offset, or the DETAIL of HOST_SPACE
(R86, R328). -/
def State.hostTarget (s : State) (part va n : Nat) : Except Nat (Nat × HostTarget × Nat) :=
  if field va 48 8 != 0 then .error 5
  else
    match (s.part part).dataFn with
    | none => .error 2
    | some fn =>
      match Tab.get none (s.func fn).targets (field va 40 8) with
      | none => .error 3
      | some t => let off := field va 0 40
          if t.len < off + n then .error 4 else .ok (fn, t, off)

/-- The place in a host target that a copy reaches: the entry as the copy read it when it was issued, or else the entry of now (R86,
R108). -/
def State.hostPlace (s : State) (hosts : List HostRead) (part va n : Nat) : Except Nat (Nat × HostTarget × Nat) :=
  match hosts.find? fun h => h.index == field va 40 8 with
  | some h => if h.entry.len < field va 0 40 + n then .error 4 else .ok (h.func, h.entry, field va 0 40)
  | none => s.hostTarget part va n

/-- The host target entries that host addresses name now (R108). -/
def State.readHosts (s : State) (part : Nat) (vas : List Nat) : List HostRead :=
  vas.filterMap fun va =>
    match s.hostTarget part va 0 with
    | .ok (fn, t, _) => some ⟨field va 40 8, fn, t⟩
    | .error _ => none

/-- HOST_SPACE of a copy operand (R86, R328). -/
def Ctx.hostCopy (c : Ctx) (lane va n : Nat) : Guard :=
  if va < 2 ^ 57 && bitAt va 56 then
    match c.s.hostTarget c.wg.part va n with
    | .error d => .trap ⟨.hostSpace, lane, va, d⟩
    | .ok _ => .ok
  else .ok

/-- Bytes that a lane of ACP copies (R421). -/
def acpBytes : AcpSize → Nat
  | .w => 4
  | .d => 8
  | .q => 16

/-- LOCAL_BOUND of a copy operand (R237). -/
def Ctx.localCopy (c : Ctx) (lane a n : Nat) : Guard :=
  if a + n ≤ c.wg.launch.localBytes then .ok else .trap ⟨.localBound, lane, a, c.wg.launch.localBytes⟩

/-- The lane addresses of an ACP: lane, source, destination (R421). -/
def Ctx.acpPairs (c : Ctx) (o : MOps) (m : ModAcp) (e : Nat) : List (Nat × Nat × Nat) :=
  (lanesOf c.act).map fun l => (l, c.rd 1 (.int (if m.ls then 32 else 64)) o.b l, c.addrOf o e m.ld l)

/-- The checks of step 8 on an ACP (R326, R420, R421) (DEDUCED, log entry 81). -/
def Ctx.acpCheck (c : Ctx) (m : ModAcp) (e : Nat) (ps : List (Nat × Nat × Nat)) : Guard :=
  (Guard.all ps fun p =>
    if p.2.2 % e != 0 then .trap ⟨.misaligned, p.1, p.2.2, e⟩
    else if p.2.1 % e != 0 then .trap ⟨.misaligned, p.1, p.2.1, e⟩
    else .ok).and
  ((Guard.all ps fun p =>
    (if m.ld then c.localCopy p.1 p.2.2 e else .ok).and (if m.ls then c.localCopy p.1 p.2.1 e else .ok)).and
   (Guard.all ps fun p =>
    (if m.ld then .ok else c.hostCopy p.1 p.2.2 e).and (if m.ls then .ok else c.hostCopy p.1 p.2.1 e)))

/-- The signal of an ACP's barrier field (R421). -/
def acpSignal (m : ModAcp) : Signal :=
  match m.bar with
  | some b => .bar b.val
  | none => .none

/-- ACP (R421). -/
def execAcp (h : Sched) (o : MOps) (m : ModAcp) (s : State) : Answer :=
  issue h { late := true } (fun c =>
    let e := acpBytes m.sz
    let u : Uses := { ops := [(o.a.op, regsOf !m.ld), (o.b.op, regsOf !m.ls)], reads := [o.a, o.b] }
    let ps := c.acpPairs o m e
    c.maybeClosing (acpSignal m).closes u fun closing =>
      (c.acpCheck m e ps).run (c.enterCmd false (c.command h (.acp e m.ld m.ls ps) (acpSignal m) closing))) s

/-! ### Tile transfers -/

/-- The fields of a descriptor (R422). -/
structure TileDesc where
  rowb : Nat
  rows : Nat
  pitch : Int
  clean : Bool
  deriving DecidableEq, Repr

/-- Read a descriptor (R422). -/
def tileDesc (d : Nat) : TileDesc :=
  ⟨field d 48 14, field d 32 12, sextInt 32 d, field d 62 2 == 0 && field d 44 4 == 0⟩

/-- The alignment rules of a descriptor (R422). -/
def TileDesc.check (d : TileDesc) (a : Nat) : Guard :=
  if !d.clean || d.rowb == 0 || d.rowb % 4 != 0 || 8192 < d.rowb then misalignedAt a 4 else .ok

/-- The checks of a tile transfer after its descriptor's (R422, R423): the base address too for TLD and TST, and only the rows
inside the image for TLD.SLIDE. -/
def Ctx.rowCheck (c : Ctx) (kind : CmdKind) (ls : Bool) (d : TileDesc) (a : Nat) : Guard :=
  let rs := kind.rows.filterMap (·.2)
  let base : List Nat := match kind with | .slide .. => [] | _ => [a]
  (d.check a).and ((alignedAll 4 (base ++ rs)).and (c.reachable ls (rs.map fun x => (x, d.rowb))))

/-- REG_RANGE of a transfer of more than a tile (R422). -/
def TileDesc.fits (d : TileDesc) (t : Nat) : Guard := if 8192 < d.rows * d.rowb then regRange 2 t else .ok

/-- The MMA word that follows a load with FM: its operands with its scheduling fields, or how the load stops (R424). Its flag is
counted with the load's own, so a count that both would carry beyond 15 holds them (R209). -/
def Ctx.followOn (c : Ctx) (load : Sched) (opc : Nat) : Except Res (Sched × XOps × ModMma) :=
  let bad : Except Res (Sched × XOps × ModMma) := .error (.trap ⟨.illegalOp, 0xFF, 0, opc⟩)
  let at_ := nextPc c.f.pc
  match fetchWord c.s c.wg at_ with
  | .fault t => .error (.trap t)
  | .miss va => .error (.hold (c.s.queueWalk c.wg.die c.wg.launch.asid va))
  | .word w _ =>
    if wordOpcode w != 0x188 || field w 82 3 != 7 || field w 81 1 != 0 || field w 85 1 != 0 || field w 69 12 != 0 ||
        field w 66 3 != 0 then bad
    else
      match decodeWord w with
      | .ok (.mma h o m) =>
        match c.mmaCheck o with
        | .ok => if h.setf.any (fun n => decide (15 ≤ Tab.get 0 c.fb.f n.val + (if load.setf == some n then 1 else 0))) then .error (.hold c.s) else .ok (h, o, m)
        | .trap t => .error (.trapAt at_ t)
        | .block b => .error (.block b)
      | _ => .error (.trapAt at_ ⟨.illegalOp, 0xFF, 0, 0x188⟩)

/-- Add the follow-on MMA of a load that has entered its queue (R424, R436) (DEDUCED, log entry 79). -/
def Ctx.withFollow (c : Ctx) (mma : Option (Sched × XOps × ModMma)) (r : Res) : Res :=
  match mma, r with
  | some (h, o, m), .done s latch =>
    let cmd := { c.command h (mmaKind o m) .none none with
      id := c.s.nextId + 1, pc := nextPc c.f.pc, after := some c.s.nextId }
    let s1 := s.enqueueCmd true cmd
    .done (match h.setf with | some n => s1.modFibOf c.f fun fb => fb.countUp n | none => s1) latch
  | _, r => r

/-- A tile transfer (R422 to R424). -/
def Ctx.transfer (c : Ctx) (h : Sched) (o : XOps) (m : ModTld) (opc : Nat) (store : Bool)
    (kind : Nat → TileDesc → CmdKind) : Res :=
  let sig := c.signalOf o.c.op
  let u : Uses :=
    if store then { ops := (o.d, 1) :: signalUses o.c.op } else { ops := signalUses o.c.op, writes := [(o.d, 1)] }
  let a := c.rd 0 (.int (if m.ls then 32 else 64)) o.a c.lane0
  let d := tileDesc (c.rd 1 (.int 64) o.b c.lane0)
  let go (mma : Option (Sched × XOps × ModMma)) : Res :=
    let rest := if mma.isSome then nextPc (nextPc c.f.pc) else nextPc c.f.pc
    c.maybeClosing sig.closes u (fun closing =>
      (c.rowCheck (kind a d) m.ls d a).run
        (c.withFollow mma (c.enterCmd false (c.command h (kind a d) sig closing rest)))) (d.fits (tileOf o.d)) rest
  if m.fm then
    match c.followOn h opc with
    | .ok x => go (some x)
    | .error r => r
  else go none

/-- TLD (R422, R424) (DEDUCED, log entry 79). -/
def execTld (h : Sched) (o : XOps) (m : ModTld) (s : State) : Answer :=
  issue h { late := true, pair := m.fm } (fun c =>
    c.transfer h o m 0x161 false fun a d => .tld (tileOf o.d) m.ls a d.rowb d.rows d.pitch) s

/-- TLD.SLIDE (R423, R424). -/
def execTldSlide (h : Sched) (o : XOps) (m : ModTld) (s : State) : Answer :=
  issue h { late := true, pair := m.fm } (fun c =>
    let w := c.rd 1 (.int 64) (nextS o.b 1) c.lane0
    c.transfer h o m 0x162 false fun a d =>
      .slide (tileOf o.d) m.ls a d.rowb d.rows d.pitch (field w 48 16) (field w 40 8) (field w 24 16) (sextInt 24 w)) s

/-- TST (R422). -/
def execTst (h : Sched) (o : XOps) (m : ModTld) (s : State) : Answer :=
  issue h { late := true } (fun c =>
    c.transfer h o m 0x163 true fun a d => .tst (tileOf o.d) m.ls a d.rowb d.rows d.pitch) s

end Sys2Proof.Machine
end

