-- ==== Sys2Proof/Machine/Random.lean ====
section
/-! DEFINITION. The Kindle instructions (R441, R442). -/

namespace Sys2Proof.Machine

/-- The value that KIND computes for a lane (R441). -/
def Ctx.kindleAt (c : Ctx) (o : GOps) (m : ModKind) (l : Nat) : Word :=
  let b := c.rd 1 (.int 64) o.b l
  if m.sl then
    let fs := c.wg.fmtSlot m.fs.val
    let rc := mapCoords fs fs.row0 fs.col0 false (b / 2 ^ 32) (b % 2 ^ 32)
    kindle fs.key (coordCtr rc.1 rc.2)
  else kindle (BitVec.ofNat 64 (c.rd 0 (.int 64) o.a l)) (BitVec.ofNat 64 b)

/-- The slot rule of KIND and KMASK (R317, R441). -/
def Ctx.kindSlot (c : Ctx) (m : ModKind) (opc : Nat) : Guard :=
  if m.sl && (c.wg.fmtSlot m.fs.val).fmt == 0 then illegalOp opc else .ok

/-- The uses of KIND and KMASK. -/
def kindUses (o : GOps) (m : ModKind) (withT : Bool) : Uses :=
  { ops := (if m.sl then [] else [(o.a.op, 2)]) ++ (o.b.op, 2) :: (if withT then [(o.c.op, 1)] else [])
    writes := [(o.d, 1)] }

/-- KIND (R441). -/
def execKind (h : Sched) (o : GOps) (m : ModKind) (s : State) : Answer :=
  issue h { lat := 4 } (fun c =>
    ((c.kindSlot m 0x190).and (c.check (kindUses o m false))).run
      (c.result h 4 o.d 32 false fun l => (c.kindleAt o m l).toNat)) s

/-- KMASK (R442). -/
def execKmask (h : Sched) (o : GOps) (m : ModKind) (s : State) : Answer :=
  issue h { lat := 4 } (fun c =>
    let below (l : Nat) : Bool := (c.kindleAt o m l).toNat < c.rd 2 (.int 32) o.c l
    ((c.kindSlot m 0x191).and (c.check (kindUses o m true))).run
      (c.result h 4 o.d 32 false fun l =>
        if below l then (match o.d with | .p _ => 1 | _ => 2 ^ 32 - 1) else 0)) s

end Sys2Proof.Machine
end

