-- ==== Sys2Proof/Machine/System.lean ====
section
/-! DEFINITION. The system instructions (R450 to R456) and the state of a fibre at its role's entry (R159). -/

namespace Sys2Proof.Machine

/-! ### The state at a role entry (R159) -/

/-- A role's entry in PC form (R150). -/
def Launch.entryPc (l : Launch) (r : Role) : Nat := l.codeBase + 64 * (r.entry.toNat / 8) + r.entry.toNat % 8

/-- The S registers at entry (R159). -/
def entryS (w : Workgroup) (r : Role) : Tab Dword :=
  let l := w.launch
  let x := if l.gx == 0 then 0 else w.index % l.gx
  let y := if l.gx == 0 || l.gy == 0 then 0 else w.index / l.gx % l.gy
  let z := if l.gx == 0 || l.gy == 0 then 0 else w.index / l.gx / l.gy
  let vals : List Dword :=
    [BitVec.ofNat 64 x, BitVec.ofNat 64 y, BitVec.ofNat 64 z, BitVec.ofNat 64 w.gangIx] ++
    ((List.range 5).map fun k => l.params.getD k 0) ++ [l.paramPtr, r.rparam]
  (List.range 11).foldl (fun t k => Tab.set 0 t k (vals.getD k 0)) []

/-- A fibre's registers as at entry; lanes, counts and status are kept (R159, R455). -/
def Fibre.enterRole (fb : Fibre) (w : Workgroup) (n : Nat) : Fibre :=
  let r := w.role n
  let pc := w.launch.entryPc r
  { fb.moveTo fb.live (fun _ => pc) with
    role := n, v := [], s := entryS w r, a := [], p := [], f := [], timers := [], latches := [], hist := [],
    restart := pc, livein := {}, arrival := none, pairOpen := false, second := [], atEntry := true }

/-! ### Traps -/

/-- TRAP (R450). -/
def execTrap (h : Sched) (o : IOps) (s : State) : Answer :=
  issue h {} (fun _ => .trap ⟨.trap, 0xFF, 0, o.imm.toNat⟩) s

/-- BKPT (R450). -/
def execBkpt (h : Sched) (_o : GOps) (s : State) : Answer := issue h {} (fun _ => .trap ⟨.bkpt, 0xFF, 0, 0⟩) s

/-! ### System registers, counters, clocks -/

/-- The completion-flag counts, four bits each (R451). -/
def Fibre.flagWord (fb : Fibre) : Nat :=
  (List.range 12).foldl (fun x n => x + 16 ^ n * (Tab.get 0 fb.f n % 16)) 0

/-- A system register (R451). -/
def Ctx.sysReg (c : Ctx) (n : Nat) : Nat :=
  match n with
  | 0 => c.fb.fpstat.toNat
  | 1 => c.fb.restart
  | 2 => c.fb.livein.nv + 256 * c.fb.livein.ns + 65536 * c.fb.livein.nw + 16777216 * c.fb.livein.nt
  | 3 => c.fb.flagWord
  | 4 => c.fb.issueIx.toNat
  | 0x10 => (c.s.part c.wg.part).wdog
  | _ => if (c.s.part c.wg.part).priv then 1 else 0

/-- The registers of 64 bits (R451). -/
def sysWide (n : Nat) : Bool := n == 1 || n == 3 || n == 4

/-- RDSYS (R451). -/
def execRdsys (h : Sched) (o : YOps) (s : State) : Answer :=
  issue h { lat := 4 } (fun c =>
    let wide := sysWide o.sysn.toNat
    c.guarded { writes := [(o.d, regsOf wide)] }
      (c.result h 4 o.d (if wide then 64 else 32) false fun _ => c.sysReg o.sysn.toNat)) s

/-- WRSYS of FPSTAT, the one register that can be written (R306, R451). -/
def execWrsys (h : Sched) (o : YOps) (s : State) : Answer :=
  issue h {} (fun c =>
    c.guarded { ops := [(o.a.op, 1)], reads := [o.a] }
      (.done (c.put { c.fb with fpstat := BitVec.ofNat 32 (c.rd 0 (.int 32) o.a c.lane0) &&& 0x3F }) none)) s

/-- A performance counter (R452). -/
def Ctx.perf (c : Ctx) (n : Nat) : Nat :=
  let k := c.s.core c.wg.lcore
  match n with
  | 0 => c.s.cyclesOf c.wg.lcore
  | 1 => k.issued.toNat
  | 2 => k.macs.toNat
  | 3 => k.copyBytes.toNat
  | 4 => k.l1Miss.toNat
  | 5 => k.tlbMiss.toNat
  | 6 => k.handoffs.toNat
  | 7 => k.noCurrent.toNat
  | 0x100 => c.fb.issued.toNat
  | 0x101 => c.fb.handoffs.toNat
  | _ => c.fb.stalls.toNat

/-- RDPERF (R452). -/
def execRdperf (h : Sched) (o : YOps) (s : State) : Answer :=
  issue h { lat := 4 } (fun c =>
    c.guarded { writes := [(o.d, 2)] } (c.result h 4 o.d 64 false fun _ => c.perf o.sysn.toNat)) s

/-- CLOCK (R453). -/
def execClock (h : Sched) (o : GOps) (ns : Bool) (s : State) : Answer :=
  issue h { lat := 4 } (fun c =>
    c.guarded { writes := [(o.d, 2)] }
      (c.result h 4 o.d 64 false fun _ => if ns then c.s.stamp else c.s.cyclesOf c.wg.lcore)) s

/-! ### Privileged instructions -/

/-- The privilege check of ROLESW and HALT (R454). -/
def Ctx.privileged (c : Ctx) (opc : Nat) : Guard :=
  if (c.s.part c.wg.part).priv then .ok else illegalOp opc

/-- The range checks of ROLESW (R455). -/
def Ctx.roleCheck (c : Ctx) (n : Nat) : Guard :=
  let r := c.wg.role n
  if c.wg.launch.roles.length ≤ n then regRange 0 n
  else if c.role.vregs < r.vregs then regRange 0 n
  else if c.role.wreg < r.wreg then regRange 1 n
  else .ok

/-- ROLESW (R455): its drain is a wait of the step; lanes that stand apart make REGION_RULE, as at WAYPT. -/
def execRolesw (h : Sched) (o : GOps) (s : State) : Answer :=
  issue h { enters := true } (fun c =>
    let n := c.rd 0 (.int 64) o.a c.lane0
    ((c.privileged 0x1D6).and (c.roleCheck n)).run
      (if c.f.lanes != c.fb.live then .trap ⟨.regionRule, 0xFF, 0, 2⟩ else .done (c.put (c.fb.enterRole c.wg n)) none)) s

/-- HALT (R456): its drain is a wait of the step (DEDUCED, log entry 102). -/
def execHalt (h : Sched) (_o : GOps) (s : State) : Answer :=
  issue h {} (fun c =>
    (c.privileged 0x1D7).run
      (.done
        (((c.put c.fb).freezePart c.wg.part).partEvent c.wg.part 0x0006
          (leBytes 2 c.wg.vcore ++ leBytes 1 c.f.slot ++ leBytes 1 c.f.fib ++ leBytes 8 (pcForm c.f.pc))) none)) s

end Sys2Proof.Machine
end

