-- ==== Sys2Proof/Machine/Network.lean ====
section
/-! DEFINITION. The network instructions at issue (R443 to R449): NPOST, NTRIG, NCOLL and NCAN enter the partition's network
queue on the workgroup's die and perform there in queue order (R184); NWAIT and NRD read a counter. -/

namespace Sys2Proof.Machine

/-- The die counter that a handle operand names (R149). -/
def Ctx.ctrOf (c : Ctx) (x : Src) : Nat :=
  match x.op with
  | .c k => c.wg.launch.ctrBase + k.val
  | _ => 0

/-- An operation enters the pipe and the network queue (R184, R443). -/
def Ctx.enterNet (c : Ctx) (op : PipeOp) : Res :=
  match c.enter op with
  | .done s latch => .done (s.setNet c.wg.die c.wg.part (s.net c.wg.die c.wg.part ++ [.op op.id])) latch
  | r => r

/-- The destination's registers: an S register, or one V register (R443). -/
def netUses (d : Operand) (ops : List (Operand × Nat)) : Uses := { ops := ops, writes := [(d, 1)] }

/-- The handles of an image that are handle numbers: TCTR, and CCTR unless it is 0xFFFF (R444) (DEDUCED, log entry 82). -/
def imageHandles (img : List Byte) : List Nat :=
  leAt img 2 2 :: (if leAt img 4 2 == 0xFFFF then [] else [leAt img 4 2])

/-- A handle at or beyond NCTR (R443) (DEDUCED, log entry 82). -/
def Launch.handleRange (l : Launch) (hs : List Nat) : Guard :=
  match hs.find? fun k => decide (l.nctr ≤ k) with
  | some k => regRange 4 k
  | none => .ok

/-- The address of a parameter block or image: E is its size (R444, R448). -/
def Ctx.imageAccs (c : Ctx) (o : MOps) (e : Nat) : Except Res (List LaneAcc) :=
  c.globalAccs ⟨{ rd := true }, e, true, false, reachImage⟩ [(c.lane0, c.addrOf o e false c.lane0)]

/-- The image of NPOST.REG: lane l gives bytes 4l to 4l + 3, active or not (R444). -/
def Ctx.regImage (c : Ctx) (o : MOps) : List Byte := (List.range 16).flatMap fun l => leBytes 4 (c.rd 1 (.int 32) o.b l)

/-- NPOST (R444). -/
def execNpost (h : Sched) (o : MOps) (m : ModNpost) (s : State) : Answer :=
  issue h { late := true } (fun c =>
    if m.reg then
      let img := c.regImage o
      c.closing (netUses o.d [(o.b.op, 1)]) (fun l =>
        c.enterNet (c.pipeOp h (.npost m.hnd (some img)) [] (some o.d) (closing := some l)))
        (if m.hnd then c.wg.launch.handleRange (imageHandles img) else .ok)
    else
      c.closing (netUses o.d []) fun l =>
        Ctx.withAccs (c.imageAccs o 64) fun accs =>
          c.enterNet (c.pipeOp h (.npost m.hnd none) accs (some o.d) (closing := some l))) s

/-- NTRIG (R445). -/
def execNtrig (h : Sched) (o : GOps) (set : Bool) (s : State) : Answer :=
  issue h { late := true } (fun c =>
    let v := c.rd 1 (.int 64) o.b c.lane0 % 2 ^ 48
    c.closing { ops := [(o.a.op, 1)] } fun l =>
      c.enterNet (c.pipeOp h (.ntrig (c.ctrOf o.a) set v) [] (closing := some l))) s

/-- Whether the condition of NWAIT holds, or its handle no longer names an owned counter (R446). -/
def Ctx.nwaitReady (c : Ctx) (o : GOps) : Bool :=
  let k := c.s.counter c.wg.die (c.ctrOf o.a)
  decide (c.rd 1 (.int 64) o.b c.lane0 % 2 ^ 48 ≤ k.value.toNat) || k.err != 0 ||
  (match c.inRange o.a.op 1 with | .ok => false | _ => true)

/-- The destination of NWAIT: an S register, or none (R446). -/
def sDest (d : Operand) : Option Operand :=
  match d with
  | .s n => some (.s n)
  | _ => none

/-- NWAIT (R446): it issues once its condition holds, and then reads the counter word. -/
def execNwait (h : Sched) (o : GOps) (s : State) : Answer :=
  issue h { late := true } (fun c =>
    c.guarded { ops := [(o.a.op, 1)], writes := (match sDest o.d with | some d => [(d, 1)] | none => []) }
      (if c.nwaitReady o then c.enter (c.pipeOp h (.nrd (c.ctrOf o.a)) [] (sDest o.d)) else .hold c.s)) s

/-- NRD (R447). -/
def execNrd (h : Sched) (o : GOps) (s : State) : Answer :=
  issue h { late := true } (fun c =>
    c.guarded { ops := [(o.a.op, 1)], writes := [(o.d, 2)] }
      (c.enter (c.pipeOp h (.nrd (c.ctrOf o.a)) [] (some o.d) 2))) s

/-- NCOLL (R448). -/
def execNcoll (h : Sched) (o : MOps) (hnd : Bool) (s : State) : Answer :=
  issue h { late := true } (fun c =>
    c.closing (netUses o.d []) fun l =>
      Ctx.withAccs (c.imageAccs o 128) fun accs =>
        c.enterNet (c.pipeOp h (.ncoll hnd) accs (some o.d) (closing := some l))) s

/-- NCAN (R449). -/
def execNcan (h : Sched) (o : GOps) (s : State) : Answer :=
  issue h { late := true } (fun c =>
    let e := c.rd 0 (.int 64) o.a c.lane0
    c.closing (netUses o.d []) fun l =>
      c.enterNet (c.pipeOp h (.ncan e) [] (some o.d) (closing := some l))) s

end Sys2Proof.Machine
end

