-- ==== Sys2Proof/Machine/Order.lean ====
section
/-! DEFINITION. The order of the memory accesses of a lane (R259 to R279): which access waits for which, at what scope, and what an access
that has performed ahead of an earlier one, as its scope allows (R261), keeps other agents of the scope from. -/

namespace Sys2Proof.Machine

/-! ### Operations of the memory pipe -/

/-- Operations that a drain does not wait for: a prefetch has completed, and a division is no memory access (R385, R405). -/
def PipeKind.ofMemory : PipeKind → Bool
  | .fetchAhead | .divide _ => false
  | _ => true

/-- Loads (R268, R405, R426). -/
def PipeKind.isLoad : PipeKind → Bool
  | .load .. | .accRead .. | .nrd _ | .writeBack | .invalidate => true
  | _ => false

/-- Bytes of one access. -/
def PipeKind.size : PipeKind → Nat
  | .load n _ | .store n | .stb n _ => n
  | .atomic m => if m.d then 8 else 4
  | .accum t | .accClear t | .accRead t _ => t.scalar.bytes
  | _ => 1

/-- Operations whose accesses write. -/
def PipeKind.writes : PipeKind → Bool
  | .store _ | .atomic _ | .accum _ | .accClear _ | .stb .. => true
  | _ => false

/-- Operations whose accesses read what they meet. -/
def PipeKind.observes : PipeKind → Bool
  | .load .. | .atomic _ | .accRead .. => true
  | _ => false

/-- Whether an operation or a command belongs to a fibre. -/
def PipeOp.ofFib (o : PipeOp) (w k f : Nat) : Bool := o.wg == w && o.slot == k && o.fib == f
/-- The same for a command. -/
def Cmd.ofFib (o : Cmd) (w k f : Nat) : Bool := o.wg == w && o.slot == k && o.fib == f

/-- The lanes in whose program order an access stands: a uniform access is made for every active lane (R259, R402, R410). -/
def PipeOp.agents (o : PipeOp) (a : LaneAcc) : Lanes :=
  match o.kind, o.dst with
  | .load .., some (.s _) => o.lanes
  | .accRead .., _ => o.lanes
  | _, _ => 1#16 <<< a.lane

/-- Whether two accesses touch a common byte. -/
def LaneAcc.meets (a : LaneAcc) (n : Nat) (b : LaneAcc) (m : Nat) : Bool :=
  a.space == b.space && decide (a.pa < b.pa + m) && decide (b.pa < a.pa + n)

/-- The operations of the fibre of an operation that issued before it (DESIGN CHOICE, log entry 83). -/
def State.before (s : State) (o : PipeOp) : List PipeOp :=
  s.pipe.filter fun x => decide (x.id < o.id) && x.ofFib o.wg o.slot o.fib && x.kind.ofMemory

/-! ### Order by spaces and bytes (R264, R274, R278) -/

/-- Whether a later access of a lane must always wait for an earlier one: by its space, or for a common byte, except that a lane's own load
may read its pending store (R263, R264, R274, R278) (DESIGN CHOICE, log entry 32). -/
def mustFollow (o : PipeOp) (a : LaneAcc) (p : PipeOp) (b : LaneAcc) : Bool :=
  (a.space == .localStore && b.space == .localStore) || (a.space == .device && b.space == .device) ||
  (a.meets o.kind.size b p.kind.size &&
    !(match o.kind, p.kind with | .store _, .load .. => p.agents b == o.agents a | _, _ => false))

/-! ### Order by qualifiers and fences, at a scope (R260, R261, R266, R268) -/

/-- The value of a scope (R260). -/
def Scope.num : Scope → Nat
  | .lane => 0 | .core => 1 | .quad => 2 | .die => 3 | .pkg => 4 | .pod => 5 | .sys => 6

/-- Whether a fence orders an operation that it found in the pipe before a later one (R268). -/
def Fenced.orders (f : Fenced) (x o : PipeOp) (lanes : Lanes) : Bool :=
  decide (f.after ≤ o.id) && f.lanes &&& lanes != 0 &&
  match f.kind with
  | .full => true
  | .acq => x.kind.isLoad
  | .rel => o.kind.writes

/-- The widest scope at which an operation waits for an earlier one of its lanes; 0 where none is named (R261, R266, R268)
(DESIGN CHOICE, log entry 83). -/
def orderedAt (x o : PipeOp) (lanes : Lanes) : Nat :=
  x.fences.foldl (fun m f => if f.orders x o lanes then max m (Scope.num f.scope) else m)
    (max (if x.qual == .acq then Scope.num x.scope else 0) (if o.qual == .rel then Scope.num o.scope else 0))

/-- An agent that may observe an order: those of a core, a die's fabric engine and bank units, or another module (R259, R260). -/
inductive Agent where
  | core (c : Nat)
  | die (d : Nat)
  | module
  deriving DecidableEq, Repr

/-- Whether a scope named on a core holds an agent (R260). -/
def scopeHolds (scope core : Nat) : Agent → Bool
  | .core c =>
    match scope with
    | 0 => false
    | 1 => c == core
    | 2 => c / 4 == core / 4
    | 3 => c / 48 == core / 48
    | _ => true
  | .die d => if scope == 3 then d == core / 48 else decide (4 ≤ scope)
  | .module => decide (5 ≤ scope)

/-- The scopes at which an access of an operation is ordered after earlier ones that have not performed (R261). -/
def State.aheadOf (s : State) (p : PipeOp) (lanes : Lanes) : List Nat :=
  (s.before p).filterMap fun x =>
    if x.accs.any fun c => !c.done && x.agents c &&& lanes != 0 then
      (match orderedAt x p lanes with
       | 0 => none
       | n => some n)
    else none

/-- Whether an agent is kept from bytes of a place: by an access that has performed ahead of one that its scope orders before it. The
agents of that scope may read nothing that it wrote, and write nothing that it read, until the order has been made good. So they
observe the order, and no other agent does (R261, R267) (DESIGN CHOICE, log entry 83). -/
def State.shut (s : State) (who : Agent) (w : Nat) (read write : Bool) (sp : Space) (pa n : Nat) (own : PipeOp → LaneAcc → Bool) : Bool :=
  s.pipe.any fun p =>
    ((p.kind.writes && read) || (p.kind.observes && write)) &&
    p.accs.any fun b =>
      b.done && b.space == sp && (sp != .localStore || p.wg == w) && decide (b.pa < pa + n) && decide (pa < b.pa + p.kind.size) &&
      !own p b && (s.aheadOf p (p.agents b)).any fun k => scopeHolds k (s.wg p.wg).lcore who

/-- The same for an access of the pipe: a lane is not kept from its own bytes. -/
def State.accShut (s : State) (o : PipeOp) (a : LaneAcc) : Bool :=
  s.shut (.core (s.wg o.wg).lcore) o.wg o.kind.observes o.kind.writes a.space a.pa o.kind.size fun p b =>
    p.ofFib o.wg o.slot o.fib && p.agents b == o.agents a

/-- Whether an access stands behind an earlier one of its lane by the order that both name: always at SYS scope; at POD scope unless both
are of package memory, whose lines this module can keep from the others; and at a narrower one where that one itself is kept waiting
(R261, R266, R268) (DESIGN CHOICE, log entry 83). -/
def State.standsBehind (s : State) (x : PipeOp) (b : LaneAcc) (o : PipeOp) (a : LaneAcc) : Bool :=
  match orderedAt x o (x.agents b &&& o.agents a) with
  | 0 => false
  | n => decide (6 ≤ n) || (n == 5 && !(a.space == .global && b.space == .global)) || s.accShut x b

/-- Whether an operation has performed ahead of one that it is ordered after (R261). -/
def State.ahead (s : State) (o : PipeOp) : Bool := !(s.aheadOf o o.lanes).isEmpty

end Sys2Proof.Machine
end

