-- ==== Sys2Proof/Machine/Pick.lean ====
section
/-! DEFINITION. Which instruction issues next: the conditions of R203, pairs (R205), the current fibre of a slot and the
hand-off (R206 to R208), lane sets (R213, R214, R224), and the picker (R202, R204). -/

namespace Sys2Proof.Machine

/-! ### The word at an address -/

/-- The scheduling fields of a word, legal or not (R343, R354). -/
def rawSched (w : Nat) : Sched :=
  { pass := bitAt w 85
    pred := Fin.ofNat 8 (field w 82 3)
    pneg := bitAt w 81
    wait := BitVec.ofNat 12 (field w 69 12)
    dist := Fin.ofNat 8 (field w 66 3)
    setf := if field w 62 4 == 0 || 12 < field w 62 4 then none else some (Fin.ofNat 12 (field w 62 4 - 1))
    nwb := bitAt w 61 }

/-- What stands at a lane set's address: a legal word, an illegal one with its opcode, a fault of the fetch, or a page to be
walked. -/
inductive Stands where
  | instr (h : Sched) (i : Instr)
  | illegal (h : Sched) (opc : Nat)
  | fault (t : Trap)
  | miss (va : Nat)
  deriving DecidableEq, Repr

/-- Fetch for issue: the line's checks, then the decode (R324, R326, R340, R342). -/
def State.standsAt (s : State) (wg : Workgroup) (pc : Nat) : Stands :=
  match fetchLine s wg (pcLine pc) with
  | .miss va => .miss va
  | .fault t => .fault t
  | .word bits lw =>
    let w := field bits (96 * (pc % 8)) 96
    let bad := Stands.illegal (rawSched w) (wordOpcode w)
    if lineReserved lw then bad
    else
      match decodeWord w with
      | .ok i => .instr (rawSched w) i
      | .error _ => bad

/-- The fault of the first fetch at a role entry that is no branch target (R325). -/
def State.entryTrap (s : State) (f : Focus) : Option Trap :=
  if (s.fibOf f).atEntry then
    (match fetchLine s (s.wg f.wg) (pcLine f.pc) with
     | .word _ lw => if lineTarget lw (f.pc % 8) then none else some ⟨.illegalTarget, lowestLane f.lanes, pcForm f.pc, 0⟩
     | _ => none)
  else none

/-! ### Drains (R203, R221, R224, R268, R281) -/

/-- Whether every earlier memory instruction and engine command of a fibre has performed (R219, R221, R224). -/
def State.drained (s : State) (w k f : Nat) : Bool :=
  let c := s.core (s.wg w).lcore
  !(s.pipe.any fun o => o.ofFib w k f && o.kind.ofMemory) && !(c.copyQ.any fun o => o.ofFib w k f) &&
  !(c.matQ.any fun o => o.ofFib w k f)

/-- Whether every earlier result has been written as well (R221). -/
def State.settled (s : State) (w k f : Nat) : Bool :=
  s.drained w k f && !(s.pipe.any fun o => o.ofFib w k f) && decide ((s.fib w k f).writeAt ≤ s.wgNow w)

/-- Whether an operation reads or writes for one of the lanes of a mask. -/
def PipeOp.touches (o : PipeOp) (lanes : Lanes) : Bool := (o.lanes &&& lanes) != 0

/-- Whether a copy's operands lie in the remote or host space, or are not known yet (R268) (DEDUCED, log entry 86). -/
def Cmd.farOrUnknown (c : Cmd) : Bool :=
  match c.kind with
  | .mma .. => false
  | _ => !c.started || c.trans.any fun x => match x.2.1 with | .remote _ | .host => true | _ => false

/-- Whether an address of a partition's ASID lies in the remote space. -/
def State.remoteAt (s : State) (part asid va : Nat) : Bool :=
  match walk s part asid va with
  | .leaf _ l => (match l.space with | .remote _ => true | _ => false)
  | .fail .. => false

/-- Whether an entry moves data from or to the remote space: its ASID stands at byte 6, its two addresses at bytes 16 and 24 (R178). -/
def State.farEntry (s : State) (x : Entry) : Bool :=
  s.remoteAt x.part (leAt x.img 6 2) (leAt x.img 16 8) || s.remoteAt x.part (leAt x.img 6 2) (leAt x.img 24 8)

/-- The fired entries that a fibre has posted and that have not completed (R184, R268, R281) (DEDUCED, log entry 86). -/
def State.firedBy (s : State) (w k f : Nat) : List Entry :=
  s.entries.filterMap fun x =>
    if x.2.poster == some (w, k, f) && (x.2.st == .queued || x.2.st == .inflight) then some x.2 else none

/-- The condition of a FENCE for the lanes that issue it. At SYS scope it waits for what it orders; at a narrower one the order is kept as
that scope's agents see it, and nothing stands against issue (R261, R268, R412) (DESIGN CHOICE, log entry 83)
(DEDUCED, log entry 86). -/
def State.fenceReady (s : State) (f : Focus) (act : Lanes) (m : ModFence) : Bool :=
  if m.scope != .sys then true
  else
    let far :=
      ((s.core (s.wg f.wg).lcore).copyQ.any fun c => c.ofFib f.wg f.slot f.fib && c.farOrUnknown) ||
      (s.firedBy f.wg f.slot f.fib).any s.farEntry
    let near := s.pipe.any fun o =>
      o.ofFib f.wg f.slot f.fib && o.kind.ofMemory && o.touches act && (m.kind != .acq || o.kind.isLoad)
    !near && !far

/-- The condition of a QFENCE (R281, R413). -/
def State.qfenceReady (s : State) (f : Focus) (m : BitVec 4) : Bool :=
  let c := s.core (s.wg f.wg).lcore
  let mine (o : Cmd) : Bool := o.ofFib f.wg f.slot f.fib
  let ops := s.pipe.filter fun o => o.ofFib f.wg f.slot f.fib && o.kind.ofMemory
  !(m.getLsbD 0 && ops.any fun o => !o.kind.ofNetwork) && !(m.getLsbD 1 && c.copyQ.any mine) &&
  !(m.getLsbD 2 && c.matQ.any mine) && !(m.getLsbD 3 && (ops.any (fun o => o.kind.ofNetwork) || !(s.firedBy f.wg f.slot f.fib).isEmpty))

/-- Whether the drain that an instruction waits for is complete; a barrier that has arrived already needs none (R225)
(DEDUCED, log entry 76). -/
def State.drainReady (s : State) (c : Ctx) (i : Instr) : Bool :=
  let f := c.f
  match i with
  | .fence _ _ m => s.fenceReady f c.act m
  | .qfence _ _ m => s.qfenceReady f m
  | .nwait _ o => c.act == 0 || c.nwaitReady o
  | .waypt .. | .rolesw .. => s.settled f.wg f.slot f.fib
  | .exit .. | .halt .. => s.drained f.wg f.slot f.fib
  | .barSync .. | .fbar .. => c.fb.arrival.isSome || s.drained f.wg f.slot f.fib
  | i => !i.closes || s.drained f.wg f.slot f.fib

/-! ### Conditions against issue (R203) -/

/-- Whether nothing, a wait condition, or a hold stands against issue. -/
inductive Verdict where
  | go | wait | hold
  deriving DecidableEq, Repr

/-- WAIT, DIST and SETF (R203). -/
def Fibre.waits (fb : Fibre) (tick : Nat) (h : Sched) : Bool :=
  ((List.range 12).any fun n => h.wait.getLsbD n && Tab.get 0 fb.f n != 0) ||
  (fb.issued != 0 && decide (tick < fb.lastIssue + h.dist.val)) ||
  (match h.setf with
   | some n => decide (15 ≤ Tab.get 0 fb.f n.val)
   | none => false)

/-- A latch that is not yet ready (R212). -/
def Fibre.latchPending (fb : Fibre) (tick : Nat) (i : Instr) : Bool :=
  i.sources.any fun x =>
    match x.op with
    | .l n => let l := Tab.get {} fb.latches n.val
        l.valid && decide (tick < l.ready)
    | _ => false

/-- Whether two destinations meet (DEDUCED, log entry 84). -/
def destsMeet (a : Operand) (n : Nat) (b : Operand) (m : Nat) : Bool :=
  match a, b with
  | .v x, .v y => decide (x.val < y.val + m) && decide (y.val < x.val + n)
  | .s x, .s y => x == y
  | _, _ => false

/-- The write-after-write interlock (R211) (DEDUCED, log entry 84). -/
def State.writePending (s : State) (f : Focus) (i : Instr) : Bool :=
  match i.dest with
  | none => false
  | some (d, n) => s.pipe.any fun o =>
      o.ofFib f.wg f.slot f.fib && match o.dst with | some e => destsMeet d n e o.regs | none => false

/-- The Guyline cross-half delay of two cycles (R115). -/
def State.crossDelay (s : State) (c : Ctx) (h : Sched) (i : Instr) : Bool :=
  (s.cairnOf c.wg.lcore).partner.isSome && i.crosses && c.fb.issued != 0 &&
  decide (c.now < c.fb.lastIssue + max h.dist.val 1 + 2)

/-- Whether a store of this issue reaches a trigger window (R223, R224). -/
def Ctx.storesToWindow (c : Ctx) (i : Instr) : Bool :=
  match i with
  | .st _ o m =>
    match c.globalAccs ⟨{ w := true }, sizeBytes m.size, true, false, reachStore⟩ (c.laneAddrs o (sizeBytes m.size) false) with
    | .ok accs => hitsWindow accs
    | .error _ => false
  | _ => false

/-- The distinct program counters of a fibre's live lanes, lowest first, with their lanes (R213). -/
def Fibre.laneSets (fb : Fibre) : List (Nat × Lanes) :=
  let pcs := (lanesOf fb.live).map fun l => fb.pc.getD l 0
  let rec insert (x : Nat) : List Nat → List Nat
    | [] => [x]
    | y :: r => if x < y then x :: y :: r else if x == y then y :: r else y :: insert x r
  (pcs.foldl (fun acc x => insert x acc) []).map fun pc =>
    (pc, maskOf ((lanesOf fb.live).filter fun l => fb.pc.getD l 0 == pc))

/-- The focus of a lane set. -/
def mkFocus (w k f : Nat) (x : Nat × Lanes) : Focus := ⟨w, k, f, x.2, x.1⟩

/-- Whether every lane set of a fibre stands at an instruction under the convergence hold; a store that reaches a trigger window closes
its region too (R223, R224). -/
def State.allConverge (s : State) (f : Focus) : Bool :=
  (s.fibOf f).laneSets.all fun x =>
    let g := mkFocus f.wg f.slot f.fib x
    match s.standsAt (s.wg g.wg) g.pc with
    | .instr h i => i.converges || (issueCtx s g h).storesToWindow i
    | _ => false

/-- The verdict on a lane set, with its PASS bit (R203, R213, R224) (DESIGN CHOICE, log entry 6)
(DEDUCED, log entry 76). -/
def State.verdict (s : State) (f : Focus) : Verdict × Bool :=
  let fb := s.fibOf f
  match s.standsAt (s.wg f.wg) f.pc with
  | .miss _ => (.hold, false)
  | .fault _ => (.go, false)
  | .illegal h _ => (if fb.waits (s.wgNow f.wg) h then .wait else .go, h.pass)
  | .instr h i =>
    let c := issueCtx s f h
    let apart := f.lanes != fb.live && (i.converges || c.storesToWindow i) && !s.allConverge f
    let held := s.held.contains (f.wg, f.slot, f.fib, f.pc)
    if fb.waits (s.wgNow f.wg) h || !s.drainReady c i then (.wait, h.pass)
    else if fb.latchPending (s.wgNow f.wg) i || s.writePending f i || s.crossDelay c h i || apart || held then (.hold, h.pass)
    else (.go, h.pass)

/-! ### Lane sets and fibres (R207, R208, R213, R214) -/

/-- The lane set of a fibre that issues first in a cycle: the lowest that nothing stands against (R213). -/
def State.readySet (s : State) (w k f : Nat) : Option Focus :=
  let fb := s.fib w k f
  (fb.laneSets.map (mkFocus w k f)).find? fun x => (s.verdict x).1 == .go

/-- Whether a lane set stands at a slot whose TARGET bit is set (R213). -/
def State.atTarget (s : State) (f : Focus) : Bool :=
  match fetchLine s (s.wg f.wg) (pcLine f.pc) with
  | .word _ lw => lineTarget lw (f.pc % 8)
  | _ => false

/-- The lane sets that the second fetch port may issue in the cycle in which `f` issues, in the order in which it takes them: those above
it that nothing stands against and that are at no target; after 255 cycles without an issue of the highest set, that set first
(R213, R214) (DESIGN CHOICE, log entry 12). -/
def State.secondSets (s : State) (f : Focus) : List (Nat × Lanes) :=
  let fb := s.fibOf f
  if f.lanes == fb.live then []
  else
    let up := (fb.laneSets.filter fun x => decide (f.pc < x.1)).map (mkFocus f.wg f.slot f.fib)
    let ok (x : Focus) : Bool := (s.verdict x).1 == .go
    let top := if 255 ≤ fb.streak then up.getLast?.filter ok else none
    (top.toList ++ up.filter fun x => ok x && !s.atTarget x).map fun x => (x.pc, x.lanes)

/-- The verdict on a fibre's next instruction: that of its lowest lane set. -/
def State.fibVerdict (s : State) (w k f : Nat) : Verdict × Bool :=
  match (s.fib w k f).laneSets with
  | x :: _ => s.verdict (mkFocus w k f x)
  | [] => (.hold, false)

/-- The fibres of a slot in cyclic order after one of them (R207, R208). -/
def cyclicAfter (n f : Nat) : List Nat := (List.range n).map fun k => (f + 1 + k) % n

/-- The fibre that becomes CURRENT in a slot that has none (R208). -/
def State.nextFibre (s : State) (w k : Nat) : Option Nat :=
  let sl := s.slot w k
  let ws := (cyclicAfter sl.count sl.lastFib).filter fun f => (sl.fib f).st == .waiting
  match ws.find? fun f => (s.fibVerdict w k f).1 != .wait with
  | some f => some f
  | none => ws.head?

/-- The fibre that a hand-off under R207 would choose. -/
def State.handOffTo (s : State) (w k : Nat) : Option Nat :=
  let sl := s.slot w k
  match sl.current with
  | none => none
  | some f =>
    if (s.fibVerdict w k f) == (.wait, true) && (s.readySet w k f).isNone then
      ((cyclicAfter sl.count f).filter fun g => g != f && (sl.fib g).st == .waiting).find? fun g =>
        (s.fibVerdict w k g).1 != .wait
    else none

/-- A fibre of a slot becomes CURRENT (R206). -/
def State.makeCurrent (s : State) (w k f : Nat) : State :=
  s.modSlot w k fun sl => { sl.setFib f { sl.fib f with st := .current } with current := some f }

/-- A hand-off: the current fibre becomes WAITING with its latches invalid, and the chosen fibre CURRENT (R207, R452). -/
def State.handOff (s : State) (w k g : Nat) : State :=
  match (s.slot w k).current with
  | none => s
  | some f =>
    let s1 := (s.leaveCurrent w k f).modFib w k f fun fb => { fb with st := .waiting, handoffs := fb.handoffs + 1 }
    (s1.makeCurrent w k g).modCore (s.wg w).lcore fun c => { c with handoffs := c.handoffs + 1 }

/-- HAND_OFF (R207): a slot whose condition does not stand is left as it is. -/
def execHandOff (w k : Nat) (s : State) : Answer :=
  .next (match s.handOffTo w k with
    | some g => s.handOff w k g
    | none => s)

/-! ### The slots that may issue -/

/-- A resident slot: workgroup, slot, core, quarter, position. -/
structure Seat where
  wg : Nat
  slot : Nat
  core : Nat
  quarter : Nat
  position : Nat
  deriving DecidableEq, Repr

/-- The members of a workgroup's gang that have not ended (R149). -/
def State.gangOf (s : State) (w : Workgroup) : List (Nat × Workgroup) :=
  s.wgs.filterMap fun x =>
    match x.2 with
    | some y =>
      if y.graph == w.graph && y.runSeq == w.runSeq && y.node == w.node && y.index / max 1 w.launch.gang == w.index / max 1 w.launch.gang &&
         y.place != .ended then some (x.1, y) else none
    | none => none

/-- Whether a resident workgroup must leave its core: its partition is being suspended, or its core has been quarantined or is isolated
(R125, R135, R138, R168). -/
def State.mustLeave (s : State) (w : Workgroup) : Bool :=
  w.place == .resident &&
  ((s.part w.part).st == .suspending || (s.cairnOf w.lcore).sick || s.base.isolated.contains (w.lcore / 48))

/-- Whether a workgroup leaves with its gang (R168). -/
def State.leaving (s : State) (w : Workgroup) : Bool := (s.gangOf w).any fun x => s.mustLeave x.2

/-- Whether a workgroup's fibres may issue: resident and not leaving, its store zeroed, its partition not frozen, in a core cycle of its
die (R31, R159, R168, R337). -/
def State.runs (s : State) (w : Workgroup) : Bool :=
  w.place == .resident && decide (w.readyAt ≤ s.now w.die) && !(s.part w.part).frozen && s.ticks w.die && !s.leaving w

/-- The seats whose slots may issue. -/
def State.seats (s : State) : List Seat :=
  s.wgs.flatMap fun x =>
    match x.2 with
    | none => []
    | some w =>
      if s.runs w then
        (List.range w.launch.slots).map fun k => ⟨x.1, k, w.lcore, (w.slot k).quarter, (w.slot k).position⟩
      else []

/-- The slots with no current fibre that have a WAITING one (R208). -/
def State.emptySeat (s : State) : Option (Nat × Nat × Nat) :=
  s.seats.findSome? fun x =>
    if (s.slot x.wg x.slot).current.isNone then
      match s.nextFibre x.wg x.slot with
      | some f => some (x.wg, x.slot, f)
      | none => none
    else none

/-- The slot passes without PASS (R208, R452). -/
def State.fillSeat (s : State) (w k f : Nat) : State :=
  let prev := (s.slot w k).lastFib
  let s1 := (s.makeCurrent w k f).modFib w k prev fun fb => { fb with handoffs := fb.handoffs + 1 }
  s1.modCore (s.wg w).lcore fun c => { c with handoffs := c.handoffs + 1 }

/-- Whether a slot has issued in this cycle. -/
def State.issuedNow (s : State) (x : Seat) : Bool := (s.slot x.wg x.slot).lastIssue == s.wgNow x.wg + 1

/-- The seats of a core's quarter in rotating order after the position that its picker took last (R204). -/
def State.rotated (s : State) (core quarter : Nat) (q : List Seat) : List Seat :=
  let last := Tab.get 15 (s.core core).picker quarter
  (List.range 16).flatMap fun i => q.filter fun x => x.position == (last + 1 + i) % 16

/-- The focus that a seat offers (DESIGN CHOICE, log entry 12). -/
def State.offer (s : State) (x : Seat) : Option Focus :=
  match (s.slot x.wg x.slot).current with
  | some f => s.readySet x.wg x.slot f
  | none => none

/-- The next instruction to issue in this cycle: one slot of each quarter, lower quarters first, so that the write of a higher one
to a shared tile takes effect last (R202, R204, R230) (DESIGN CHOICE, log entry 6)
(DESIGN CHOICE, log entry 12). -/
def State.pick (s : State) : Option Focus :=
  let seats := s.seats
  ((List.range 4).flatMap fun k => seats.filter fun x => x.quarter == k).findSome? fun x =>
    let q := seats.filter fun y => y.core == x.core && y.quarter == x.quarter
    if q.any s.issuedNow then none else (s.rotated x.core x.quarter q).findSome? s.offer

/-! ### Pairs (R205) -/

/-- Whether the instruction at a focus may open a pair, and the one after it close it (R205, R341). -/
def State.pairAt (s : State) (f : Focus) : Bool :=
  let wg := s.wg f.wg
  let fb := s.fibOf f
  match fetchLine s wg (pcLine f.pc) with
  | .word bits lw =>
    let word (k : Nat) := field bits (96 * k) 96
    let k := f.pc % 8
    if linePairs lw k && f.lanes == fb.live && !lineReserved lw then
      match decodeWord (word k), decodeWord (word (k + 1)) with
      | .ok a, .ok b =>
        let ca := Instr.cls a (wordOpcode (word k))
        let cb := Instr.cls b (wordOpcode (word (k + 1)))
        let latch := fb.issueIx.toNat % 4
        ((ca == .v && cb == .u) || (ca == .u && cb == .v)) && (rawSched (word (k + 1))).dist.val == 0 &&
          !(b.sources.any fun x => match x.op with | .l n => n.val == latch | _ => false)
      | _, _ => false
    else false
  | _ => false

/-- The slots whose current fibre has issued the first of a pair in this cycle. -/
def State.openPair (s : State) : Option (Nat × Nat × Nat) :=
  s.seats.findSome? fun x =>
    match (s.slot x.wg x.slot).current with
    | some f => if (s.fib x.wg x.slot f).pairOpen then some (x.wg, x.slot, f) else none
    | none => none

/-- The second of an open pair, if nothing stands against it (R205). -/
def State.pairSecond (s : State) (w k f : Nat) : Option Focus :=
  let fb := s.fib w k f
  match fb.laneSets with
  | [x] => let fo := mkFocus w k f x
      if (s.slot w k).lastIssue == s.wgNow w + 1 && (s.verdict fo).1 == .go then some fo else none
  | _ => none

/-! ### The second fetch port (R213) -/

/-- The slots whose current fibre has issued a lane set in this cycle and has one for the second port. -/
def State.openSecond (s : State) : Option (Nat × Nat × Nat) :=
  s.seats.findSome? fun x =>
    match (s.slot x.wg x.slot).current with
    | some f => if !(s.fib x.wg x.slot f).second.isEmpty then some (x.wg, x.slot, f) else none
    | none => none

/-- The lane set of the second port: the first that nothing stands against after the first port has issued; the cycles since the previous
issue have been tested with the first (R203, R213). -/
def State.secondFocus (s : State) (w k f : Nat) : Option Focus :=
  let fb := s.fib w k f
  let s1 := s.modFib w k f fun fb => { fb with issued := 0 }
  if (s.slot w k).lastIssue == s.wgNow w + 1 then
    (fb.second.map (mkFocus w k f)).find? fun fo =>
      ((lanesOf fo.lanes).all fun l => laneIn fb.live l && fb.pc.getD l 0 == fo.pc) && (s1.verdict fo).1 == .go
  else none

end Sys2Proof.Machine
end

