-- ==== Sys2Proof/Machine/Sync.lean ====
section
/-! DEFINITION. Fences (R412, R413), workgroup barriers (R414 to R416), fibre barriers (R218, R418) and window registers
(R215 to R217, R419). -/

namespace Sys2Proof.Machine

/-! ### Barriers as objects -/

/-- One phase completes: the expected count leaves the arrivals, the phase toggles, a pending count takes effect (R414). -/
def Bar.complete (b : Bar) : Bar :=
  { b with
    arrived := b.arrived - b.expected
    phase := !b.phase
    expected := b.pending.getD b.expected
    pending := none
    count := 0 }

/-- Whether a phase is complete (R414). -/
def Bar.full (b : Bar) : Bool := b.expected != 0 && decide (b.expected ≤ b.arrived)

/-- Write a barrier; if its phase is complete it completes once, and its blocked fibres go on in the next cycle (R414). -/
def Workgroup.settleBar (w : Workgroup) (n : Nat) (b : Bar) : Workgroup :=
  if b.full then (w.setBar n b.complete).wake (· == .barrier n) else w.setBar n b

/-- One arrival (R414, R417). -/
def Workgroup.arrive (w : Workgroup) (n : Nat) : Workgroup :=
  let b := w.bar n
  w.settleBar n { b with arrived := b.arrived + 1, count := 0 }

/-- An arrival at a workgroup's barrier. -/
def State.arriveAt (s : State) (w n : Nat) : State := s.setWg w ((s.wg w).arrive n)

/-- The barrier that an operand names. -/
def barOf (x : Src) : Nat :=
  match x.op with
  | .b n => n.val
  | _ => 0

/-- A mask with one bit set or clear. -/
def setBit16 (m : BitVec 16) (n : Nat) (b : Bool) : BitVec 16 :=
  let one : BitVec 16 := 1#16 <<< n
  if b then m ||| one else m &&& ~~~one

/-! ### Fences -/

/-- The operations of a fibre in the pipe keep that a fence of some lanes has issued after them (R268). -/
def State.fenced (s : State) (f : Focus) (lanes : Lanes) (m : ModFence) : State :=
  { s with
    pipe := s.pipe.map fun o =>
      if o.ofFib f.wg f.slot f.fib then { o with fences := o.fences ++ [⟨m.kind, m.scope, lanes, s.nextId⟩] } else o }

/-- FENCE (R268, R412): the wait of one at SYS scope is a condition of the step. -/
def execFence (h : Sched) (_o : GOps) (m : ModFence) (s : State) : Answer :=
  issue h {} (fun c => .done ((c.put c.fb).fenced c.f c.act m) none) s

/-- QFENCE (R413): its condition is a wait of the step. -/
def execQfence (h : Sched) (_o : GOps) (_m : BitVec 4) (s : State) : Answer := issue h {} (fun c => .done (c.put c.fb) none) s

/-! ### Workgroup barriers -/

/-- The effect of BAR.INIT with a count (R415). -/
def Workgroup.initBar (w : Workgroup) (n e : Nat) : Workgroup :=
  let b := w.bar n
  if b.expected == 0 || b.arrived == 0 then w.settleBar n { b with expected := e } else w.setBar n { b with pending := some e }

/-- BAR.INIT (R415). -/
def execBarInit (h : Sched) (o : GOps) (s : State) : Answer :=
  issue h {} (fun c =>
    let x := c.rd 1 (.int 32) o.b c.lane0 % 4096
    c.guarded { ops := [(o.b.op, 1)], reads := [o.b] }
      (let s := c.put c.fb
       .done (s.setWg c.f.wg ((s.wg c.f.wg).initBar (barOf o.a) (if x == 0 then 4096 else x))) none)) s

/-- A fibre's arrival: it records the phase before the arrival is counted (R416). -/
def Ctx.barArrive (c : Ctx) (fb : Fibre) (n : Nat) : State :=
  let s := c.put { fb with recPhase := setBit16 fb.recPhase n (c.wg.bar n).phase }
  s.arriveAt c.f.wg n

/-- Whether the phase that a fibre recorded has completed, in a state (R416). -/
def phaseOver (s : State) (f : Focus) (n : Nat) : Bool := ((s.wg f.wg).bar n).phase != (s.fibOf f).recPhase.getLsbD n

/-- The region of a performed closing instruction ends (R225). -/
def Ctx.close (c : Ctx) (s : State) (l : LiveIn) : State := s.modFibOf c.f (·.closeRegion c.f.pc l)

/-- BAR.ARV (R416). -/
def execBarArv (h : Sched) (o : GOps) (_m : Scope) (s : State) : Answer :=
  issue h {} (fun c => c.closing {} fun l => .done (c.close (c.barArrive c.fb (barOf o.a)) l) none) s

/-- BAR.WAIT (R416). -/
def execBarWait (h : Sched) (o : GOps) (_m : Scope) (s : State) : Answer :=
  issue h {} (fun c =>
    if phaseOver c.s c.f (barOf o.a) then .done (c.put c.fb) none else .block (.barrier (barOf o.a))) s

/-- BAR.SYNC (R416): an arrival, once, and the wait; the region ends when the wait completes (R225)
(DEDUCED, log entry 80). -/
def execBarSync (h : Sched) (o : GOps) (_m : Scope) (s : State) : Answer :=
  issue h {} (fun c =>
    let n := barOf o.a
    match c.fb.arrival with
    | some a => if phaseOver c.s c.f n then .done (c.close (c.put c.fb) a.live) none else .block (.barrier n)
    | none =>
      c.closing {} fun l =>
        let s1 := c.barArrive c.fb n
        if phaseOver s1 c.f n then .done (c.close s1 l) none
        else .park (c.barArrive { c.s.fibOf c.f with arrival := some ⟨0, false, l⟩ } n) (.barrier n)) s

/-! ### Fibre barriers -/

/-- The fibres that a mask names. -/
def fibresOf (m : BitVec 4) : List Nat := (List.range 4).filter fun k => m.getLsbD k

/-- Whether a fibre has arrived with a mask and waits (R218). -/
def Fibre.waitsAt (fb : Fibre) (m : BitVec 4) : Bool :=
  match fb.arrival with
  | some a => a.mask == m && !a.finished
  | none => false

/-- The fibre barrier of a mask completes: the fibres that wait at it go on (R218). -/
def SlotSt.fbarDone (sl : SlotSt) (m : BitVec 4) : SlotSt :=
  let go (fb : Fibre) : Fibre :=
    if fb.waitsAt m then { fb with arrival := fb.arrival.map fun a => { a with finished := true } } else fb
  SlotSt.wake { sl with fibres := sl.fibres.map fun x => (x.1, go x.2) } (· == .fbar m)

/-- FBAR (R218, R418) (DEDUCED, log entry 80). -/
def execFbar (h : Sched) (_o : GOps) (m : BitVec 4) (s : State) : Answer :=
  issue h {} (fun c =>
    if !m.getLsbD c.f.fib || (fibresOf m).any (fun k => decide (c.sl.count ≤ k)) then
      .trap ⟨.regRange, 0xFF, 0, 5 + 256 * m.toNat⟩
    else
      match c.fb.arrival with
      | some a => if a.finished then .done (c.close (c.put c.fb) a.live) none else .block (.fbar m)
      | none =>
        c.closing {} fun l =>
          if (fibresOf m).all (fun k => k == c.f.fib || (c.sl.fib k).waitsAt m) then
            let s1 := (c.put c.fb).modSlot c.f.wg c.f.slot fun sl => { sl.fbarDone m with fbarCount := 0 }
            .done (c.close s1 l) none
          else
            let s1 := c.s.modFibOf c.f fun fb => { fb with arrival := some ⟨m, false, l⟩ }
            .park (s1.modSlot c.f.wg c.f.slot fun sl => { sl with fbarCount := 0 }) (.fbar m)) s

/-! ### Window registers -/

/-- The window register that an operand names. -/
def winOf (d : Operand) : Fin 64 :=
  match d with
  | .w n => n
  | _ => 0

/-- A tag changes: fibres blocked on the register go on in the next cycle (R215, R216, R333). -/
def SlotSt.setTag (sl : SlotSt) (n : Nat) (full : Bool) : SlotSt :=
  if Tab.get false sl.tags n == full then sl
  else
    SlotSt.wake { sl with tags := Tab.set false sl.tags n full, winCount := Tab.set 0 sl.winCount n 0 } fun b =>
      match b with
      | .window k _ _ => k == n
      | _ => false

/-- The lanes of a mask of a window register are written. -/
def SlotSt.putWin (sl : SlotSt) (n : Nat) (mask : Lanes) (val : Nat → Nat) : SlotSt :=
  { sl with win := (lanesOf mask).foldl (fun t l => Tab.set 0 t (16 * n + l) (BitVec.ofNat 32 (val l))) sl.win }

/-- WPUT (R216, R419). -/
def execWput (h : Sched) (o : GOps) (s : State) : Answer :=
  issue h {} (fun c =>
    let n := winOf o.d
    c.closing { ops := [(o.d, 1), (o.a.op, 1)], reads := [o.a] } (extra := c.windowReady n false) fun l =>
      let s1 := (c.put c.fb).modSlot c.f.wg c.f.slot fun sl =>
        (sl.putWin n.val c.act (c.rd 0 (.int 32) o.a)).setTag n.val true
      .done (c.close s1 l) none) s

/-- WTAKE (R216, R419). -/
def execWtake (h : Sched) (o : GOps) (s : State) : Answer :=
  issue h { lat := 4 } (fun c =>
    c.closing { ops := [(o.a.op, 1)], reads := [o.a], writes := [(o.d, 1)] } fun l =>
      match c.result h 4 o.d 32 false fun l => c.rd 0 (.int 32) o.a l with
      | .done s1 latch =>
        .done (c.close (s1.modSlot c.f.wg c.f.slot fun sl => sl.setTag (winOf o.a.op).val false) l) latch
      | r => r) s

/-- WPEEK (R216, R419). -/
def execWpeek (h : Sched) (o : GOps) (s : State) : Answer :=
  issue h { lat := 4 } (fun c =>
    c.guarded (usesOf o 1 false false) (c.result h 4 o.d 32 false fun l => c.rd 0 (.int 32) o.a l)) s

/-- WCLR (R216, R419). -/
def execWclr (h : Sched) (o : GOps) (s : State) : Answer :=
  issue h {} (fun c =>
    c.closing { ops := [(o.a.op, 1)] } fun l =>
      .done (c.close ((c.put c.fb).modSlot c.f.wg c.f.slot fun sl => sl.setTag (winOf o.a.op).val false) l) none) s

end Sys2Proof.Machine
end

