-- ==== Sys2Proof/Machine/Clock.lean ====
section
/-! DEFINITION. The end of a core cycle: flags that count down (R209), status bits (R306), further phases of a barrier (R414),
watchdog counts (R333) and the cycle counters of R452. -/

namespace Sys2Proof.Machine

/-- A BLOCKED fibre that nothing blocks any more becomes WAITING (R206, R414). -/
def Fibre.unblocked (fb : Fibre) : Fibre := if fb.st == .blocked && fb.block.isNone then { fb with st := .waiting } else fb

/-- What a cycle's end does to a fibre: due flags count down, due status bits are set, one that nothing blocks any more waits, and a
current fibre that has not issued counts a stall (R206, R209, R306, R452). -/
def Fibre.endCycle (fb : Fibre) (tick : Nat) (issued : Bool) : Fibre :=
  let due := fb.timers.filter fun x => decide (x.1 ≤ tick)
  let fb1 := due.foldl (fun fb x => fb.countDown x.2) { fb with timers := fb.timers.filter fun x => decide (tick < x.1) }
  let fb2 := if fb1.status.isEmpty then fb1 else fb1.settleStatus tick
  if fb2.st == .current && !issued then { fb2 with stalls := fb2.stalls + 1 } else fb2.unblocked

/-- Whether a fibre of a slot is BLOCKED on an object. -/
def SlotSt.blockedOn (sl : SlotSt) (p : Block → Bool) : Bool :=
  sl.fibres.any fun x => x.2.st == .blocked && match x.2.block with | some b => p b | none => false

/-- The window registers of a slot on which a fibre is BLOCKED. -/
def SlotSt.blockedWins (sl : SlotSt) : List Nat :=
  (sl.fibres.filterMap fun x =>
    match x.2.st, x.2.block with
    | .blocked, some (.window n _ _) => some n
    | _, _ => none).eraseDups

/-- A fibre barrier is one of the block reasons. -/
def Block.isFbar : Block → Bool
  | .fbar _ => true
  | _ => false

/-- What a cycle's end does to a slot (R333). -/
def SlotSt.endCycle (sl : SlotSt) (tick : Nat) : SlotSt :=
  let issued := sl.lastIssue == tick + 1
  let sl1 : SlotSt := { sl with fibres := sl.fibres.map fun x => (x.1, x.2.endCycle tick issued) }
  let sl2 := if sl1.blockedOn Block.isFbar then { sl1 with fbarCount := sl1.fbarCount + 1 } else sl1
  { sl2 with winCount := sl2.blockedWins.foldl (fun t n => Tab.modify 0 t n (· + 1)) sl2.winCount }

/-- Whether a fibre of a workgroup is BLOCKED on a barrier. -/
def Workgroup.barBlocked (w : Workgroup) (n : Nat) : Bool := w.slots.any fun x => x.2.blockedOn (· == .barrier n)

/-- A barrier at a cycle's end: a further phase completes, or the watchdog counts (R333, R414). -/
def Workgroup.endBar (w : Workgroup) (n : Nat) : Workgroup :=
  let b := w.bar n
  if b.full then w.settleBar n b
  else if w.barBlocked n then w.setBar n { b with count := b.count + 1 }
  else w

/-- What a cycle's end does to a workgroup. -/
def Workgroup.endCycle (w : Workgroup) (tick : Nat) : Workgroup :=
  let w1 : Workgroup := { w with slots := w.slots.map fun x => (x.1, x.2.endCycle tick) }
  (List.range 16).foldl Workgroup.endBar w1

/-- Slots of a workgroup with no current fibre (R452). -/
def Workgroup.idleSlots (w : Workgroup) : Nat :=
  ((List.range w.launch.slots).filter fun k => (w.slot k).current.isNone).length

/-- The cycle's end for one workgroup. -/
def State.endWgCycle (s : State) (i : Nat) (w : Workgroup) : State :=
  if s.runs w then
    let s1 := s.setWg i (w.endCycle (s.now w.die))
    match w.idleSlots with
    | 0 => s1
    | n => s1.modCore w.lcore fun c => { c with noCurrent := c.noCurrent + BitVec.ofNat 64 n }
  else s

/-- The controller's heartbeat counter, which runs while the module has power (R198) (DESIGN CHOICE, log entry 63). -/
def State.beat (s : State) : State := { s with base := { s.base with heartbeat := s.base.heartbeat + 1 } }

/-- The end of a core cycle (DESIGN CHOICE, log entry 3) (DESIGN CHOICE, log entry 12). -/
def State.endCycle (s : State) : State :=
  let s1 := s.wgs.foldl (fun s x => match x.2 with | some w => s.endWgCycle x.1 w | none => s) s
  State.beat { s1 with tick := s.tick + 1, held := [] }

end Sys2Proof.Machine
end

