-- ==== Sys2Proof/Machine/Answers.lean ====
section
/-! DEFINITION. Answers: the response to a Trailhead command (R88 to R91, R102), and the answer that a message or host transfer
gives to whoever waits for it (R73, R87, R183, R420). -/

namespace Sys2Proof.Machine

/-! ### Responses (R90, R91, R102) -/

/-- Statuses of a Trailhead response (R93). -/
inductive Status where
  | ok | busy | denied | badop | badarg | nospace | badgraph | badpatch | sealed | gone | notSwitched | noSlot | badsig
  | mismatch
  deriving DecidableEq, Repr

/-- The value of a status (R93). -/
def Status.num : Status → Nat
  | .ok => 0 | .busy => 1 | .denied => 2 | .badop => 3 | .badarg => 4 | .nospace => 5 | .badgraph => 6 | .badpatch => 7
  | .sealed => 8 | .gone => 9 | .notSwitched => 10 | .noSlot => 11 | .badsig => 12 | .mismatch => 13

/-- One response: it leaves on the Ethernet port, is cached, and the command is no longer in progress (R90). -/
def State.respondOne (s : State) (fn seq : Nat) (st : Status) (payload : List Byte) : State :=
  let f := s.func fn
  match f.busy.find? fun b => b.1 == seq with
  | none => s
  | some (_, ip, udp) =>
    let cache := f.cache ++ [(seq, st.num, payload)]
    (s.setFunc fn { f with busy := f.busy.filter (fun b => b.1 != seq), cache := cache.drop (cache.length - 64) }).send
      (.reply fn ip udp seq st.num payload)

/-- A function with a key: the SEQ window restarts, and no command has been accepted since (R90, R101, R102). -/
def Func.withKey (f : Func) (k : BitVec 256) : Func :=
  { f with key := some k, newKey := none, keyCmd := none, top := 0, seen := 0, cache := [], lastAddr := none }

/-- A key waiting for a function's commands to be answered takes effect, and names the KEYSET to answer (R102)
(DESIGN CHOICE, log entry 115). -/
def State.settleKey (s : State) (fn : Nat) : State × Option (Nat × Nat) :=
  let f := s.func fn
  match f.newKey with
  | some k => if f.busy.isEmpty then (s.setFunc fn (f.withKey k), f.keyCmd) else (s, none)
  | none => (s, none)

/-- Answer a command of a function (R90); a key that waited for it takes effect, and its KEYSET is answered (R102). -/
def State.respond (s : State) (fn seq : Nat) (st : Status) (payload : List Byte := []) : State :=
  match (s.respondOne fn seq st payload).settleKey fn with
  | (s1, none) => s1
  | (s1, some (g, q)) => ((s1.respondOne g q .ok []).settleKey g).1

/-- Answer the command that a record names, if there is one. -/
def State.respondTo (s : State) (cmd : Option (Nat × Nat)) (st : Status) (payload : List Byte := []) : State :=
  match cmd with
  | none => s
  | some (fn, seq) => s.respond fn seq st payload

/-! ### Statuses of network operations (R183) -/

/-- Statuses of a completion and of NERR (R183). -/
inductive NetStatus where
  | ok | linkDown | noTarget | perm | dataCheck | misaligned | accCapacity | badop
  deriving DecidableEq, Repr

/-- The value of a status (R183). -/
def NetStatus.num : NetStatus → Nat
  | .ok => 0 | .linkDown => 1 | .noTarget => 2 | .perm => 3 | .dataCheck => 4 | .misaligned => 5 | .accCapacity => 6 | .badop => 7

/-- The first failure of two statuses. -/
def firstStatus (a b : Nat) : Nat := if a == 0 then b else a

/-- The fault that a refused message raises against an instruction or command: the manual names DATA_CHECK for an unreachable
target (R72) and leaves the others to the operation's kind (DESIGN CHOICE, log entry 26) (DEDUCED, log entry 77). -/
def netTrap (status lane va asid : Nat) (n : Need) (size : Nat) : Trap :=
  match status with
  | 3 => xlatTrap .pagePerm asid 7 false n lane va
  | 4 => ⟨.dataCheck, lane, va / 64 * 64, 0⟩
  | 5 => ⟨.misaligned, lane, va, size⟩
  | 6 => ⟨.accCapacity, lane, va, 0⟩
  | _ => ⟨.dataCheck, lane, va / 64 * 64, 1⟩

/-! ### Pipe operations that end -/

/-- Remove a pipe operation. -/
def State.dropOp (s : State) (id : Nat) : State := { s with pipe := s.pipe.filter fun o => o.id != id }

/-- A pipe operation ends with a fault at performing: no register is written, its flag counts down (R209, R227, R326). -/
def State.failOp (s : State) (o : PipeOp) (t : Trap) : State :=
  ((s.dropOp o.id).flagDown o.wg o.slot o.fib o.flag).raiseFault o.wg o.slot o.fib o.pc o.lanes 0 t

/-- The ASID of a workgroup. -/
def State.asidOf (s : State) (w : Nat) : Nat := (s.wg w).launch.asid

/-! ### Answers to those who wait -/

/-- Change a command of a core's queues. -/
def Core.modCmd (c : Core) (id : Nat) (f : Cmd → Cmd) : Core :=
  let g (x : Cmd) : Cmd := if x.id == id then f x else x
  { c with copyQ := c.copyQ.map g, matQ := c.matQ.map g }

/-- One message of a waiting party has been answered with a status; the lane and address are those of its part. -/
def State.answer (s : State) (w : Waiter) (status : Nat) (lane va : Nat := 255) : State :=
  match w with
  | .entry die e =>
    let x := s.entry die e
    s.setEntry die e { x with left := x.left - 1, status := firstStatus x.status status }
  | .cmd core id =>
    s.modCore core fun c => c.modCmd id fun x =>
      { x with left := x.left - 1, trap := x.trap.orElse fun _ => if status == 0 then none else some (status, lane, va) }
  | .op id =>
    match s.pipe.find? fun o => o.id == id with
    | some o =>
      if status == 0 then s
      else s.failOp o (netTrap status lane va (s.asidOf o.wg) { rd := true, w := true, a := true } o.kind.size)
    | none => s
  | .node h n => s.modNode h n fun x => { x with left := x.left - 1, status := firstStatus x.status (if status == 0 then 0 else 7) }

/-- The workgroup of a waiting command. -/
def State.waiterWg (s : State) (w : Waiter) : Nat :=
  match w with
  | .cmd core id =>
    match ((s.core core).copyQ ++ (s.core core).matQ).find? fun c => c.id == id with
    | some c => c.wg
    | none => 0
  | _ => 0

end Sys2Proof.Machine
end

