-- ==== Sys2Proof/Machine/Link.lean ====
section
/-! DEFINITION. The Yilbel ports (R42 to R65, R71, R74, R75): status and faults, the sending of messages in flits with credits,
retry and keys, and bundles of ports. -/

namespace Sys2Proof

/-- Whether a message carries a mask granule (R54, R67): WBM, WRS, PUT, ACCP, and DATA with modified bytes. -/
def Msg.masked (m : Msg) : Bool :=
  (m.chan == 2 && (m.opc == 5 || m.opc == 6)) || (m.chan == 7 && (m.opc == 1 || m.opc == 4)) || (m.chan == 4 && m.mask != 0)

/-- Whether data granules follow: DATA, PUT, ATOM, ACCP and GDATA (R67, R73, R186); in the others SMASK only names sectors. -/
def Msg.carriesData (m : Msg) : Bool :=
  m.chan == 4 || (m.chan == 7 && (m.opc == 1 || m.opc == 3 || m.opc == 4)) || (m.chan == 8 && m.opc == 2)

/-- Whether a message is an ACCP of images (R186). -/
def Msg.images (m : Msg) : Bool := m.chan == 7 && m.opc == 4 && m.arg.getLsbD 7

/-- Granules of a message: header, mask granule where one is carried, and two for each sector of data (R54). -/
def Msg.granules (m : Msg) : Nat :=
  1 + (if m.masked then 1 else 0) + (if m.carriesData then 2 * Machine.popCount m.smask.toNat 4 else 0)

/-- The 64 bytes of each data sector in the order sent (R54, R186). -/
def Msg.sectors (m : Msg) : List (List Byte) :=
  if !m.carriesData then []
  else
    let ks := (List.range 4).filter fun k => m.smask.getLsbD k
    if m.images then ks.zipIdx.map fun x => Machine.byteSlice m.data (64 * x.2) 64
    else ks.map fun k => Machine.byteSlice m.data (64 * k) 64

/-- CHK: the check value of each present sector, in order; absent entries zero (R34, R54) (DESIGN CHOICE, log entry 89). -/
def Msg.checkValues (m : Msg) : BitVec 64 :=
  BitVec.ofNat 64 ((m.sectors.zipIdx.map fun x => Machine.crc16 x.1 * 2 ^ (16 * x.2)).sum)

/-- A message with its check values. -/
def Msg.checked (m : Msg) : Msg := { m with chk := m.checkValues }

/-- Whether a message's data agree with their check values (R35, R54) (DESIGN CHOICE, log entry 89). -/
def Msg.intact (m : Msg) : Bool := m.chk == m.checkValues

/-- The sectors of a line message whose data fail their check values (R35, R54) (DESIGN CHOICE, log entry 89). -/
def Msg.badSectors (m : Msg) : List Nat :=
  (((List.range 4).filter fun k => m.smask.getLsbD k).zipIdx.filter fun x =>
    m.chk.toNat / 2 ^ (16 * x.2) % 65536 != m.checkValues.toNat / 2 ^ (16 * x.2) % 65536).map (·.1)

/-- Messages of the coherent channels (R55). -/
def Msg.coherent (m : Msg) : Bool := 2 ≤ m.chan && m.chan ≤ 6

/-- Whether a channel and opcode are defined and may arrive on the port, with no mask bit of an absent sector (R54, R55, R67,
R73). -/
def Msg.legal (m : Msg) (fixed : Bool) : Bool :=
  (match m.chan with
   | 1 => true
   | 2 => fixed && 1 ≤ m.opc && m.opc ≤ 6
   | 3 => fixed && 1 ≤ m.opc && m.opc ≤ 3
   | 4 => fixed && m.opc == 1
   | 5 => fixed && 1 ≤ m.opc && m.opc ≤ 2
   | 6 => fixed && 1 ≤ m.opc && m.opc ≤ 2
   | 7 => 1 ≤ m.opc && m.opc ≤ 5
   | 8 => 1 ≤ m.opc && m.opc ≤ 4
   | _ => false) &&
  (List.range 4).all fun k => m.smask.getLsbD k || m.mask.toNat / 2 ^ (64 * k) % 2 ^ 64 == 0

/-- The messages of a flit: those whose granules fit in its payload of 15 (R51). -/
def fittingMsgs : Nat → List Msg → List Msg
  | _, [] => []
  | room, m :: r => if m.granules ≤ room then m :: fittingMsgs (room - m.granules) r else []

end Sys2Proof

namespace Sys2Proof.Machine

/-! ### Status (R47, R74) -/

/-- The value of a port state (R47). -/
def PortSt.num : PortSt → Nat
  | .down => 0 | .train => 1 | .ident => 2 | .active => 3 | .drain => 4 | .hold => 5 | .verify => 6 | .fault => 7 | .disabled => 8

/-- The events of YPSTAT (R74). -/
inductive PortEv where
  | carrierLoss | replayExhaust | peerMismatch | trainFail | laneDown | keyMiss | badChan | keyExhaust
  deriving DecidableEq, Repr

/-- The bit of an event in YPSTAT (R74). -/
def PortEv.bit : PortEv → Nat
  | .carrierLoss => 9 | .replayExhaust => 10 | .peerMismatch => 11 | .trainFail => 12 | .laneDown => 13 | .keyMiss => 14
  | .badChan => 15 | .keyExhaust => 16

/-- A Boolean as a bit. -/
def b2n (b : Bool) : Nat := if b then 1 else 0

/-- YPSTAT (R74). -/
def Port.stat (p : Port) : Nat :=
  p.st.num * 2 ^ 28 + p.rate % 4 * 2 ^ 26 + p.lanes.toNat * 2 ^ 24 + b2n p.ktx * 2 ^ 23 + b2n (!p.rekeys.isEmpty || !p.rxNew.isEmpty) * 2 ^ 22 +
  b2n (p.carrier != 0) * 2 ^ 21 + b2n p.fixed * 2 ^ 20 + p.events.toNat * 2 ^ 9 + b2n p.lossDir * 2 ^ 8 + min 255 p.retry

/-- Change a port. -/
def State.modPort (s : State) (n : Nat) (f : Port → Port) : State := s.setPort n (f (s.port n))

/-- The module event PORT: the number of the YPSTAT bit, YPSTAT, and the completion message of a YRESUME under way (R100)
(DESIGN CHOICE, log entry 105). -/
def State.portReport (s : State) (n bit : Nat) : State :=
  s.moduleEvent 0x0106
    (leBytes 1 n ++ leBytes 1 bit ++ leBytes 2 0 ++ leBytes 4 (s.port n).stat ++ leBytes 4 0 ++ byteSlice (s.port n).note 0 32)

/-- An event of a port sets its bit and produces a module event (R74, R100). -/
def State.portEvent (s : State) (n : Nat) (e : PortEv) : State :=
  (s.modPort n fun p => { p with events := p.events ||| (1#8 <<< (e.bit - 9)) }).portReport n e.bit

/-- A detection of R198 produces a module event PEER_FAIL: means 1 carrier, 2 retry or check, 3 heartbeat. -/
def State.peerFail (s : State) (n means : Nat) : State := s.moduleEvent 0x010A (leBytes 1 n ++ leBytes 1 means)

/-! ### Bundles (R71; DEDUCED, log entry 25) -/

/-- The port that the module route table names (R94, R181); the table holds the port plus one, and 0 for none. -/
def State.routeOf (s : State) (module_ : Nat) : Option Nat :=
  match Tab.get 0 s.base.routes module_ with
  | 0 => none
  | n + 1 => some n

/-- The fixed ports of a bundle: those with the same expected peer as one of them (DEDUCED, log entry 25). -/
def State.mates (s : State) (r : Nat) : List Nat :=
  if !(s.port r).fixed then []
  else (List.range 96).filter fun n => n == r || ((s.port n).fixed && (s.port n).peer != 0 && (s.port n).peer == (s.port r).peer)

/-- The fixed ports to a module: those whose expected peer is that of the routed port (DEDUCED, log entry 25). -/
def State.bundle (s : State) (module_ : Nat) : List Nat :=
  match s.routeOf module_ with
  | none => []
  | some r => s.mates r

/-- Whether a port carries traffic. -/
def Port.works (p : Port) : Bool := p.st == .active

/-- Whether a port is being moved to a new peer: what is aimed at it waits (R63). -/
def Port.moving (p : Port) : Bool := p.st == .drain || p.st == .hold || p.st == .verify

/-- A list from one of its places on, cyclically. -/
def fromPlace {α : Type} (k : Nat) (xs : List α) : List α := xs.drop k ++ xs.take k

/-- The port that a bundle gives a line: the one that address bits [11:8] select, or the next working port in port order (R71). -/
def State.portOfLine (s : State) (b : List Nat) (line : Nat) : Option Nat :=
  if b.isEmpty then none else (fromPlace (line % 16 % b.length) b).find? fun n => (s.port n).works

/-- The port of a line of a module (R71) (DEDUCED, log entry 25). -/
def State.podPort (s : State) (module_ line : Nat) : Option Nat := s.portOfLine (s.bundle module_) line

/-! ### Sending (R51 to R57, R61) -/

/-- The last FCTR value under which a flit is sent (R53). -/
def fctrLimit : Nat := 0xFFFFFFFF0000

/-- Whether a transmit key is installed at an index. -/
def Port.hasTx (p : Port) (ttag i : Nat) : Bool := (Tab.get none p.txKeys (2 * ttag + i)).isSome

/-- The key index of a tag's next flit: the other one once a key stands there and the old one is not being retired (R61). -/
def Port.txIndex (p : Port) (ttag : Nat) : Option Nat :=
  let i := Tab.get 0 p.inUse ttag
  if p.hasTx ttag (1 - i) && !(p.rekeys.any fun r => r.1 == ttag) then some (1 - i)
  else if p.hasTx ttag i then some i
  else none

/-- The port with a tag's next flit under an index: a flip starts its FCTR at 0, and is a rekey where an old key stands (R61). -/
def Port.useKey (p : Port) (ttag j : Nat) : Port :=
  let i := Tab.get 0 p.inUse ttag
  if i == j then p
  else
    { p with
      inUse := Tab.set 0 p.inUse ttag j
      fctr := Tab.set 0 p.fctr (2 * ttag + j) 0
      ktx := j == 1
      rekeys := if p.hasTx ttag i then p.rekeys ++ [(ttag, j, false)] else p.rekeys }

/-- Whether a new flit of a tag may leave: there is room to keep it, and the key of its index is not exhausted (R53, R58, R59). -/
def Port.keyReady (p : Port) (ttag : Nat) : Bool :=
  decide (p.replay.length < 256) &&
  (match p.txIndex ttag with
   | some i => decide (Tab.get 0 (p.useKey ttag i).fctr (2 * ttag + i) < fctrLimit)
   | none => false)

/-- Whether a port is established: it takes flits, and may retrain (R47, R49, R65). -/
def Port.retrains (p : Port) : Bool := p.st == .active || p.st == .drain

/-- Whether a port sends traffic: not while a retrain pauses it (R47, R49). -/
def Port.flows (p : Port) : Bool := p.retrains && p.training.isNone

/-- Whether a message may leave now: the port carries traffic, its key is good, and its credit covers it (R49, R53, R56, R58). -/
def Port.canSend (p : Port) (ttag : Nat) (m : Msg) : Bool :=
  p.flows && p.keyReady ttag && decide (Tab.get 0 p.used m.chan + m.granules ≤ 1024)

/-- Whether a control message may leave in the port's state (R46 to R50, R62); it needs the link key and no credit (R56, R59). -/
def Port.canPost (p : Port) (c : Ctl) : Bool :=
  p.keyReady 0 &&
  (match c with
   | .training .. => p.st == .train || p.st == .verify
   | .identity .. => p.st == .ident || p.st == .verify
   | .carrierLoss => p.st == .fault
   | .retrain _ => p.retrains
   | _ => p.flows)

/-- The channel whose credits the next flit returns: the first that owes any (R52) (DESIGN CHOICE, log entry 27). -/
def Port.creditChan (p : Port) : Nat := (p.owed.headD (0, 0)).1

/-- ACKSEQ of the next flit: the SEQ before the one expected (R52). -/
def Port.ackSeq (p : Port) : Nat := (p.rxSeq + 65535) % 65536

/-- A flit leaves under a tag (R51 to R53, R58; DESIGN CHOICE, log entry 27). -/
def Port.emit (p0 : Port) (ttag : Nat) (l : Load) : Port :=
  let i := (p0.txIndex ttag).getD 0
  let p := p0.useKey ttag i
  let k := 2 * ttag + i
  let c := p.creditChan
  let g := min 4095 (Tab.get 0 p.owed c)
  { p with
    txSeq := (p.txSeq + 1) % 65536
    fctr := Tab.modify 0 p.fctr k (· + 1)
    owed := Tab.modify 0 p.owed c (· - g)
    replay := p.replay ++
      [{ seq := p.txSeq, ttag := ttag, kidx := i, fctr := Tab.get 0 p.fctr k, ackseq := p.ackSeq, cchan := c, cgran := g,
         load := l }] }

/-- A flit with one message leaves, and takes the channel's credit (R56; DESIGN CHOICE, log entry 27). -/
def Port.emitMsg (p : Port) (ttag : Nat) (m : Msg) : Port :=
  { p with used := Tab.modify 0 p.used m.chan (· + m.granules) }.emit ttag (.msgs [m])

/-- Send the control messages that wait, in order, under the link key (R57, R59). -/
def Port.pumpCtl (p : Port) : List Ctl → Port
  | [] => { p with ctl := [] }
  | c :: r => if p.canPost c then (p.emit 0 (.ctl c)).pumpCtl r else { p with ctl := c :: r }

/-- Send every waiting message that may leave; messages of one channel and tag keep their order (R57)
(DESIGN CHOICE, log entry 27). -/
def Port.pumpList (hold : Msg → Bool) (p : Port) (blocked : List (Nat × Nat)) : List (Nat × Msg) → Port × List (Nat × Msg)
  | [] => (p, [])
  | (t, m) :: r =>
    if !blocked.contains (t, m.chan) && !hold m && p.canSend t m then Port.pumpList hold (p.emitMsg t m) blocked r
    else
      let x := Port.pumpList hold p ((t, m.chan) :: blocked) r
      (x.1, (t, m) :: x.2)

/-- The messages of a sent flit. -/
def SentFlit.msgs (f : SentFlit) : List Msg :=
  match f.load with
  | .msgs ms => ms
  | .ctl _ => []

/-- Whether a port has a coherent message about a line that is not acknowledged, or not sent yet. -/
def Port.hasLine (p : Port) (line : Nat) : Bool :=
  let about (m : Msg) : Bool := m.coherent && m.addr / 256 == line
  (p.waiting.any fun w => about w.2) || p.replay.any fun f => f.msgs.any about

/-- Whether a line's message is held on the port that the bundle gives the line: a substitute still has one for it (R71). -/
def State.holdLine (s : State) (n : Nat) (m : Msg) : Bool :=
  m.coherent && s.portOfLine (s.mates n) (m.addr / 256) == some n &&
  (s.mates n).any fun k => k != n && (s.port k).hasLine (m.addr / 256)

/-- Every port sends what may leave. -/
def State.pump (s : State) : State :=
  s.ports.foldl (fun s x =>
    let p := s.port x.1
    if p.waiting.isEmpty && p.ctl.isEmpty then s
    else
      let q := p.pumpCtl p.ctl
      let r := Port.pumpList (s.holdLine x.1) q [] q.waiting
      s.setPort x.1 { r.1 with waiting := r.2 }) s

/-- A control message is to leave on a port. -/
def Port.post (p : Port) (c : Ctl) : Port := { p with ctl := p.ctl ++ [c] }

/-- Send a control message on a port. -/
def State.sendCtl (s : State) (n : Nat) (c : Ctl) : State := (s.modPort n fun p => p.post c).pump

/-- Send a message on a port under a tag. -/
def State.sendMsg (s : State) (n ttag : Nat) (m : Msg) : State :=
  (s.modPort n fun p => { p with waiting := p.waiting ++ [(ttag, m.checked)] }).pump

/-- The tenant tag that a partition has on a port: the lowest (R60). -/
def State.tagOf (s : State) (n part : Nat) : Option Nat :=
  (List.range 256).find? fun t => Tab.get 0 s.ttags (256 * n + t) == part + 1

/-- The partition mapped to a tag of a port (R60). -/
def State.msgPart (s : State) (n t : Nat) : Option Nat :=
  match Tab.get 0 s.ttags (256 * n + t) with
  | 0 => none
  | p + 1 => some p

/-- A message without data. -/
def mkMsg (chan opc addr : Nat) (mtag : Nat := 0) (arg : Nat := 0) : Msg :=
  { chan := chan, opc := opc, smask := 0, chk := 0, mtag := mtag % 65536, srcmod := Config.moduleNumber, addr := addr,
    arg := BitVec.ofNat 84 arg, mask := 0, data := [] }

/-! ### Resending and acknowledgement (R58) -/

/-- Whether SEQ `a` is at or before `b`, counting modulo 2^16. -/
def seqUpTo (a b : Nat) : Bool := decide ((b + 65536 - a) % 65536 < 32768)

/-- Flits that ACKSEQ covers leave the replay buffer. -/
def Port.acked (p : Port) (ackseq : Nat) : Port := { p with replay := p.replay.filter fun f => !seqUpTo f.seq ackseq }

/-- Step 5 of R61: once acknowledged, with nothing of the old index unacknowledged, the old entry is cleared and retired
(DEDUCED, log entry 62). -/
def Port.retireKeys (p : Port) : Port :=
  let done := p.rekeys.filter fun r => r.2.2 && !(p.replay.any fun f => f.ttag == r.1 && f.kidx != r.2.1)
  { p with
    rekeys := p.rekeys.filter fun r => !done.contains r
    txKeys := done.foldl (fun t r => Tab.set none t (2 * r.1 + (1 - r.2.1)) none) p.txKeys
    ctl := p.ctl ++ done.map fun r => .keyRetire r.1 }

/-! ### Entering FAULT (R44, R72, R75) -/

/-- Requests of a port complete with LINK_DOWN: those outstanding, and at a fault also those that wait for a resume (R63, R64,
R75). -/
def State.linkDown (s : State) (n : Nat) (fault : Bool) : State :=
  let mine (r : NetReq) : Bool := r.port == n && (fault || r.held.isEmpty)
  (s.netReqs.filter mine).foldl (fun s r => s.answer r.who NetStatus.linkDown.num r.lane r.va)
    { s with netReqs := s.netReqs.filter fun r => !mine r }

/-- A module is unreachable when no port of its bundle works (R72). -/
def State.podReachable (s : State) (m : Nat) : Bool := (s.bundle m).any fun n => (s.port n).works

/-- Lines of unreachable modules are invalidated, each with a module event (R72) (DEDUCED, log entry 77). -/
def State.losePodLines (s : State) : State :=
  let lost := s.podLines.filter fun x => x.2.st != .i && !s.podReachable (x.1 / 2 ^ 40)
  lost.foldl (fun s x =>
    { s with
      podLines := Tab.set {} s.podLines x.1 {}
      l1 := s.l1.filter fun c => cacheLine (.pod (x.1 / 2 ^ 40)) (256 * (x.1 % 2 ^ 40)) != some (c.1 % 2 ^ 40) }.moduleEvent 0x0107
      (leBytes 2 (x.1 / 2 ^ 40) ++ leBytes 2 0 ++ leBytes 8 (256 * (x.1 % 2 ^ 40))))
    { s with podReqs := s.podReqs.filter fun r => s.podReachable r.home }

/-- Coherent messages of a port that has failed, unacknowledged or waiting, move to the next working port of the bundle, under the
tag that their partition has there (R60, R71); those of a module that no port reaches are given up. -/
def State.moveWaiting (s : State) (n : Nat) : State :=
  let p := s.port n
  let ws := ((p.replay.flatMap fun f => f.msgs.map fun m => (f.ttag, m)) ++ p.waiting).filter fun w => w.2.coherent
  let s1 := s.modPort n fun p => { p with waiting := [], ctl := [], replay := [] }
  let next := (fromPlace (n + 1) (List.range 96)).find? fun k => k != n && (s.mates n).contains k && (s.port k).works
  ws.foldl (fun s w =>
    match next, s.msgPart n w.1 with
    | some k, some q =>
      (match s.tagOf k q with
       | some t => s.sendMsg k t w.2
       | none => s)
    | _, _ => s) s1

/-- The port enters FAULT; a quiesce or resume request under way is answered BUSY (DESIGN CHOICE, log entry 104). -/
def State.portFault (s : State) (n : Nat) : State :=
  let s1 := s.modPort n fun p =>
    { p with st := .fault, lanes := 0, training := none, heldRates := [], quiescing := false, peerDone := false, note := [] }
  let s2 := s1.respondTo (s.port n).cmd .busy
  ((s2.modPort n fun p => { p with cmd := none }).linkDown n true).moveWaiting n |>.losePodLines

/-! ### Control messages (R46 to R50, R58, R61, R62) -/

/-- The state of a port's transmission at the start of a connection: SEQ starts at 0, credits are full (R56, R62)
(DESIGN CHOICE, log entry 27). -/
def Port.fresh (p : Port) : Port :=
  { p with txSeq := 0, rxSeq := 0, replay := [], used := [], owed := [], ctl := [], misses := 0, silent := 0, training := none,
           heldRates := [], quiescing := false, peerDone := false, note := [] }

/-! ### Received flits (R51 to R61) -/

/-- Data that fail their check at the exit of a link are a first detection, which names the address (R35, R37). -/
def State.linkCheck (s : State) (addr : Nat) : State := s.moduleEvent 0x0105 (leBytes 4 0 ++ leBytes 8 addr)

/-- Deliver a flit's messages: their granules are free again, and a bad one is discarded and recorded (R54 to R56)
(DESIGN CHOICE, log entry 89). -/
def State.deliver (s : State) (n ttag : Nat) (m : Msg) : State :=
  if m.chan == 1 then s
  else
    let s1 := s.modPort n fun p => { p with owed := Tab.modify 0 p.owed m.chan (· + m.granules) }
    if m.legal (s.port n).fixed then { s1 with inbox := s1.inbox ++ [(n, ttag, m)] } else s1.portEvent n .badChan

/-- Whether a flit is the first of a rekey: its index is not the one in use, whose key still stands, and the last rekey of the tag
is retired (R61). -/
def Port.newIndex (p : Port) (f : Flit) : Bool :=
  f.kidx != Tab.get 0 p.rxUse f.ttag && !Tab.get false p.rxNew f.ttag &&
  (Tab.get none p.rxKeys (2 * f.ttag + Tab.get 0 p.rxUse f.ttag)).isSome

/-- The receipt of a good flit by its port: SEQ, acknowledgement, credits, and the key-acknowledge of a new index (R52, R61). -/
def Port.accept (p : Port) (f : Flit) : Port :=
  let p1 := { p.acked f.ackseq with
    rxSeq := (f.seq + 1) % 65536, misses := 0, used := Tab.modify 0 p.used f.cchan (· - f.cgran) }
  let p2 :=
    if p.newIndex f then
      { p1.post (.keyAck f.ttag) with rxUse := Tab.set 0 p.rxUse f.ttag f.kidx, rxNew := Tab.set false p.rxNew f.ttag true }
    else p1
  p2.retireKeys

/-- A flit without a mapped tag or a key is discarded; after 16 in a row the port faults (R60). -/
def State.keyMiss (s : State) (n : Nat) : State :=
  let s1 := (s.modPort n fun p => { p with misses := p.misses + 1 }).portEvent n .keyMiss
  if 16 ≤ (s1.port n).misses then s1.portFault n else s1

/-- Whether a flit's tag is mapped, or is the link's own, and its receive entry holds a key (R60). -/
def State.flitKnown (s : State) (n : Nat) (f : Flit) : Bool :=
  (f.ttag == 0 || Tab.get 0 s.ttags (256 * n + f.ttag) != 0) && (Tab.get none (s.port n).rxKeys (2 * f.ttag + f.kidx)).isSome

/-- Send an acknowledgement where nothing else has left that carries ACKSEQ (R52, R55; DESIGN CHOICE, log entry 27). -/
def State.acknowledge (s : State) (n seq : Nat) : State :=
  if (s.port n).retrains && (s.port n).txSeq == seq then s.sendCtl n .ack else s

/-- Take a flit in an established port: discard it whole, with a retry request or as a KEY_MISS, or accept it and let its
content act; `quiet` tells that it asks for no acknowledgement (R58, R60). -/
def State.takeFlit (s : State) (n : Nat) (f : Flit) (quiet : Bool) (body : State → State) : State :=
  let p := s.port n
  if !p.retrains then s
  else if !s.flitKnown n f then s.keyMiss n
  else if !f.ok || f.seq != p.rxSeq then s.sendCtl n .retry
  else
    let s1 := (body (s.modPort n fun p => p.accept f)).pump
    if quiet then s1 else s1.acknowledge n p.txSeq

/-- A control flit: it travels under the link key (R55, R59). -/
def ctlFlit (f : Flit) : Flit := { f with ttag := 0, msgs := [] }

/-- A control flit of an established link. -/
def State.takeCtl (s : State) (n : Nat) (f : Flit) (body : State → State) : State := s.takeFlit n (ctlFlit f) false body

/-- A control flit that comes outside the order of a connection: of training, of identity, of carrier loss. It needs the link key;
one that fails its check is discarded where `lost` is not told what to do (R48, R50, R60; DESIGN CHOICE, log entry 27). -/
def State.takeLoose (s : State) (n : Nat) (f : Flit) (body lost : State → State) : State :=
  if !s.flitKnown n (ctlFlit f) then s.keyMiss n
  else if f.ok then body (s.modPort n fun p => { p with misses := 0 })
  else lost s

/-! ### Carrier and lanes -/

/-- A carrier mask with a lane. -/
def setLane (m : BitVec 2) (lane : Nat) : BitVec 2 := m ||| (1#2 <<< lane)

/-- Training flits on the lanes that receive carrier (R48). -/
def Port.sendTraining (p : Port) (lanes : BitVec 2) : Port :=
  { p with ctl := p.ctl ++ ((List.range 2).filter fun k => lanes.getLsbD k).map fun k => .training k p.ownRate }

/-- RECEIVED_CARRIER (R45, R48, R62): a port that is DISABLED takes no carrier; one that trains sends training flits with the
highest rate it requests, which its firmware chooses. -/
def execReceivedCarrier (n : Nat) (c : LaneCarrier) (s : State) : Answer :=
  .next (State.pump (s.modPort n fun p =>
    let q := { p with carrier := setLane p.carrier c.lane }
    match p.st with
    | .disabled => p
    | .down => { q with st := .train, ownRate := c.ownRate % 3 }.sendTraining (setLane 0 c.lane)
    | .train => q.sendTraining (setLane 0 c.lane)
    | .verify =>
      if p.lanes == 0 then { q with ownRate := if p.carrier == 0 then c.ownRate % 3 else p.ownRate }.sendTraining (setLane 0 c.lane)
      else q
    | _ => q))

/-- CARRIER_LOSS (R45, R46, R74, R198): in HOLD it is no fault; elsewhere it is recorded and the port enters FAULT, where its first
control flit is the notice. The loss of received carrier is a loss of the transmit direction (DEDUCED, log entry 88). -/
def execCarrierLoss (n : Nat) (s : State) : Answer :=
  .next (
    let p := s.port n
    if p.carrier == 0 then s
    else
      let s1 := s.modPort n fun p => { p with carrier := 0 }
      match p.st with
      | .hold | .disabled => s1
      | .fault => (s1.modPort n fun p => { p with lossDir := false }).portEvent n .carrierLoss
      | _ =>
        let s2 := s1.modPort n fun p => { p with lossDir := false }
        (((s2.portEvent n .carrierLoss).peerFail n 1).portFault n).sendCtl n .carrierLoss)

/-- CARRIER_LOSS_NOTICE (R46): the peer's direction, which this port receives on, has failed; traffic stops
(DEDUCED, log entry 88). -/
def execCarrierLossNotice (x : PortFlit) (s : State) : Answer :=
  .next (
    match (s.port x.port).st with
    | .disabled | .hold => s
    | .fault => s.takeLoose x.port x.flit (fun s => s.modPort x.port fun p => { p with lossDir := true }) id
    | _ =>
      s.takeLoose x.port x.flit (fun s =>
        ((s.modPort x.port fun p => { p with lossDir := true }).portEvent x.port .carrierLoss |>.peerFail x.port 1).portFault x.port) id)

/-- LANE_DOWN (R44). -/
def execLaneDown (n lane : Nat) (s : State) : Answer :=
  .next (
    let p := s.port n
    let left := p.lanes &&& ~~~(1#2 <<< lane)
    if left == p.lanes then s
    else
      let s1 := (s.modPort n fun p => { p with lanes := left }).portEvent n .laneDown
      if left == 0 then s1.portFault n else s1)

/-! ### Training and identity -/

/-- Whether a port trains: in TRAIN, or in VERIFY with carrier and no lane up yet (R48, R62). -/
def Port.trains (p : Port) : Bool := (p.st == .train || (p.st == .verify && p.lanes == 0)) && p.carrier != 0

/-- TRAINING_FLIT (R48): rates are numbered from the highest, so the lower of two requests is the larger number. -/
def execTrainingFlit (x : PortFlit) (peerRate : Nat) (s : State) : Answer :=
  .next (
    if (s.port x.port).trains then
      s.takeLoose x.port x.flit (fun s =>
        (s.modPort x.port fun p =>
          { p with
            peerRate := peerRate % 3
            rate := max p.ownRate (peerRate % 3)
            lanes := p.carrier
            st := if p.st == .train then .ident else .verify }).sendCtl x.port (.identity Config.moduleIdentity x.port)) id
    else s)

/-- TRAIN_FAIL (R48). -/
def execTrainFail (n : Nat) (s : State) : Answer :=
  .next (if (s.port n).trains then (s.portEvent n .trainFail).portFault n else s)

/-- Whether a port waits for an identity flit (R50, R62). -/
def Port.identifies (p : Port) : Bool := p.st == .ident || (p.st == .verify && p.lanes != 0)

/-- Whether an identity matches YPEER (R50). -/
def Port.matches (p : Port) (id : Dword) : Bool := p.peer == 0 || p.peer == id

/-- Requests that waited for a port's resume are sent, in the order issued (R63). -/
def State.sendHeld (s : State) (n : Nat) : State :=
  (s.netReqs.filter fun r => r.port == n).foldl (fun s r => r.held.foldl (fun s m => s.sendMsg n r.ttag m) s)
    { s with netReqs := s.netReqs.map fun r => if r.port == n then { r with held := [] } else r }

/-- The port becomes ACTIVE with its peer; a resume request is answered, and its completion message is reported (R50, R62, R94)
(DESIGN CHOICE, log entry 105). -/
def State.peerMatched (s : State) (n : Nat) (id : Dword) : State :=
  let p := s.port n
  let s1 := s.modPort n fun p => { p.fresh with st := .active, peer := id, cmd := none, note := p.note }
  let s2 := if p.st == .verify then s1.portReport n 0 else s1
  let s3 := s2.modPort n fun p => { p with note := [] }
  (s3.pump.sendHeld n).respondTo p.cmd .ok (leBytes 4 (s3.port n).stat)

/-- A wrong or unauthenticated peer: FAULT, or from VERIFY back to HOLD with the resume request failed (R50, R64). -/
def State.peerMismatched (s : State) (n : Nat) : State :=
  let p := s.port n
  let s1 := s.portEvent n .peerMismatch
  if p.st == .ident then s1.portFault n
  else (s1.modPort n fun p => { p with st := .hold, lanes := 0, cmd := none, note := [], ctl := [] }).respondTo p.cmd .mismatch

/-- IDENTITY_FLIT (R50, R62, R64). -/
def execIdentityFlit (n : Nat) (f : Flit) (id : Dword) (s : State) : Answer :=
  .next (
    if (s.port n).identifies then
      s.takeLoose n f (fun s => if (s.port n).matches id then s.peerMatched n id else s.peerMismatched n) (·.peerMismatched n)
    else s)

/-! ### Retraining (R49) -/

/-- The rate that a retrain adopts: at most the lower rate of the last training. -/
def Port.adopt (p : Port) (rate : Nat) : Nat := max (rate % 3) (max p.ownRate p.peerRate)

/-- A retrain to a target rate begins, or is held until those before it complete. -/
def Port.startRetrain (p : Port) (rate : Nat) : Port :=
  if p.training.isSome then { p with heldRates := p.heldRates ++ [rate] } else { p with training := some (p.adopt rate) }

/-- A peer's request: `same` tells that it was sent in the flit interval of our own last one, and then both retrain to the lower
target; otherwise it starts a retrain, or is held. -/
def Port.asked (p : Port) (rate : Nat) (same : Bool) : Port :=
  match p.training, same with
  | some r, true => { p with training := some (max r (p.adopt rate)) }
  | _, _ => p.startRetrain rate

/-- RETRAIN (R49): a request from the peer. -/
def execRetrain (x : PortFlit) (rate : Nat) (same : Bool) (s : State) : Answer :=
  .next (s.takeCtl x.port x.flit fun s => s.modPort x.port fun p => p.asked rate same)

/-- RETRAIN_REQUEST (R49): firmware's request. -/
def execRetrainRequest (n rate : Nat) (s : State) : Answer :=
  .next (
    if (s.port n).retrains then (s.sendCtl n (.retrain (rate % 3))).modPort n fun p => p.startRetrain rate else s)

/-- The replay buffer is resent: one more round, and every flit in it one resend more. -/
def Port.resent (p : Port) : Port :=
  { p with retry := p.retry + 1, replay := p.replay.map fun f => { f with resends := f.resends + 1 } }

/-- A retrain ends: its rate holds, a held quiesce begins, and unacknowledged flits are resent (R49, R65). -/
def Port.retrained (p : Port) (r : Nat) : Port :=
  let p1 := { p with rate := r, training := none, st := if p.quiescing then .drain else p.st }
  if p.replay.isEmpty then p1 else p1.resent

/-- RETRAIN_COMPLETE (R49, R65): a held request starts a new retrain. -/
def execRetrainComplete (n : Nat) (s : State) : Answer :=
  .next (
    match (s.port n).training with
    | none => s
    | some r =>
      let s1 := (s.modPort n fun p => p.retrained r).pump
      match (s1.port n).heldRates with
      | k :: ks => s1.modPort n fun p => { p with heldRates := ks }.startRetrain k
      | [] => s1)

/-! ### Message flits and resending (R55, R58, R60, R61) -/

/-- MESSAGE_FLIT (R51, R54 to R61): one without messages is idle or an acknowledgement. -/
def execMessageFlit (n : Nat) (f : Flit) (s : State) : Answer :=
  .next (s.takeFlit n f f.msgs.isEmpty fun s => (fittingMsgs 15 f.msgs).foldl (fun s m => s.deliver n f.ttag m) s)

/-- The replay buffer is resent, unless a flit in it has been resent 8 times already (R58) (DEDUCED, log entry 88). -/
def State.resend (s : State) (n : Nat) : State :=
  if (s.port n).replay.any fun f => decide (8 ≤ f.resends) then
    ((s.portEvent n .replayExhaust).peerFail n 2).portFault n
  else s.modPort n Port.resent

/-- RETRY_REQUEST (R58): it acknowledges what its ACKSEQ covers; the rest is resent. -/
def execRetryRequest (n : Nat) (f : Flit) (s : State) : Answer :=
  .next (s.takeCtl n f fun s => if (s.port n).replay.isEmpty then s else s.resend n)

/-- ACK_TIMEOUT (R58) (DESIGN CHOICE, log entry 63). -/
def execAckTimeout (n : Nat) (s : State) : Answer :=
  .next (if (s.port n).flows && !(s.port n).replay.isEmpty then s.resend n else s)

/-! ### Keys (R53, R61) -/

/-- KEY_EXHAUST (R53). -/
def execKeyExhaust (n tag kidx : Nat) (s : State) : Answer :=
  .next (
    let p := s.port n
    if Tab.get 0 p.inUse tag == kidx && fctrLimit ≤ Tab.get 0 p.fctr (2 * tag + kidx) && !p.spent.contains (2 * tag + kidx) then
      (s.modPort n fun p => { p with spent := p.spent ++ [2 * tag + kidx] }).portEvent n .keyExhaust
    else s)

/-- The peer has acknowledged a tag's new key (R61). -/
def Port.keyAcked (p : Port) (tag : Nat) : Port :=
  Port.retireKeys { p with rekeys := p.rekeys.map fun r => if r.1 == tag then (r.1, r.2.1, true) else r }

/-- KEY_ACKNOWLEDGE (R61) (DEDUCED, log entry 62). -/
def execKeyAcknowledge (x : PortFlit) (tag : Nat) (s : State) : Answer :=
  .next (s.takeCtl x.port x.flit fun s => s.modPort x.port fun p => p.keyAcked tag)

/-- Step 6 of R61: the receive entry that is not in use is cleared. -/
def Port.keyRetired (p : Port) (tag : Nat) : Port :=
  if Tab.get false p.rxNew tag then
    { p with rxKeys := Tab.set none p.rxKeys (2 * tag + (1 - Tab.get 0 p.rxUse tag)) none, rxNew := Tab.set false p.rxNew tag false }
  else p

/-- KEY_RETIRE (R61). -/
def execKeyRetire (x : PortFlit) (tag : Nat) (s : State) : Answer :=
  .next (s.takeCtl x.port x.flit fun s => s.modPort x.port fun p => p.keyRetired tag)

/-! ### Quiesce and resume (R62 to R65) -/

/-- Whether a flit only acknowledges: nothing waits for its own acknowledgement (DESIGN CHOICE, log entry 27). -/
def SentFlit.acks (f : SentFlit) : Bool := f.load == .ctl .ack || f.load == .ctl .retry

/-- Whether a draining port has nothing left to send or to wait for (R62, R65). -/
def State.drainedPort (s : State) (n : Nat) : Bool :=
  let p := s.port n
  p.waiting.isEmpty && p.ctl.isEmpty && p.replay.all SentFlit.acks && p.rekeys.isEmpty && p.rxNew.isEmpty && p.training.isNone &&
  !(s.netReqs.any fun r => r.port == n && r.held.isEmpty)

/-- The port enters HOLD and the quiesce request completes (R62). -/
def State.enterHold (s : State) (n : Nat) : State :=
  let s1 := s.modPort n fun p => { p with st := .hold, lanes := 0, ctl := [], quiescing := false, peerDone := false, cmd := none }
  s1.respondTo (s.port n).cmd .ok (leBytes 4 (s1.port n).stat)

/-- A drained port sends its quiesce-done flit, and holds if the peer's has come (R62). -/
def State.sendQuiesceDone (s : State) (n : Nat) : State :=
  let s1 := (s.modPort n fun p => { p with quiescing := false }).sendCtl n .quiesceDone
  if (s.port n).peerDone then s1.enterHold n else s1

/-- The ports in DRAIN that have drained and have not said so. -/
def State.quiesceReady (s : State) : Option Nat :=
  (s.ports.find? fun x => x.2.st == .drain && x.2.quiescing && s.drainedPort x.1).map (·.1)

/-- QUIESCE_DONE (R62): the peer's flit; the port holds once it has sent its own (DESIGN CHOICE, log entry 2). -/
def execQuiesceDone (x : PortFlit) (s : State) : Answer :=
  .next (
    if (s.port x.port).st != .drain then s
    else
      s.takeCtl x.port x.flit fun s =>
        if (s.port x.port).quiescing then s.modPort x.port fun p => { p with peerDone := true } else s.enterHold x.port)

/-- DRAIN_LIMIT (R64): messages accepted and not sent stay, for after the resume (DESIGN CHOICE, log entry 104). -/
def execDrainLimit (n : Nat) (s : State) : Answer :=
  .next (if (s.port n).st == .drain then (s.linkDown n false).enterHold n else s)

/-- HOLD_LIMIT (R64). -/
def execHoldLimit (n : Nat) (s : State) : Answer := .next (if (s.port n).st == .hold then s.portFault n else s)

/-! ### Heartbeats (R198) -/

/-- HEARTBEAT_INTERVAL (R198): 10 µs have passed (DESIGN CHOICE, log entry 63). -/
def execHeartbeatInterval (n : Nat) (s : State) : Answer :=
  .next (
    if (s.port n).st == .active then (s.modPort n fun p => { p with silent := p.silent + 1 }).sendCtl n .heartbeat else s)

/-- HEARTBEAT (R198). -/
def execHeartbeat (x : PortFlit) (s : State) : Answer :=
  .next (
    if (s.port x.port).st == .active then s.takeCtl x.port x.flit fun s => s.modPort x.port fun p => { p with silent := 0 } else s)

/-- PEER_SILENT (R198). -/
def execPeerSilent (n : Nat) (s : State) : Answer :=
  .next (if (s.port n).st == .active && 100 ≤ (s.port n).silent then (s.peerFail n 3).portFault n else s)

end Sys2Proof.Machine
end

