-- ==== Sys2Proof/Machine/Ridgeline.lean ====
section
/-! DEFINITION. The Ridgeline order lanes and the copies of a line (R20, R39, R239, R240, R244 to R250): sending a request, what
every die and the home do at its order point, and line data on the mesh. Values are coherent in State.mem, so a copy is its
state and masks. -/

namespace Sys2Proof.Machine

/-! ### Copies -/

/-- The key of a line in a table of copies, by die, core or module. -/
def lineKey (unit line : Nat) : Nat := unit * 2 ^ 40 + line

/-- A die's copy of a line (DESIGN CHOICE, log entry 78). -/
def State.dieLine (s : State) (die line : Nat) : DieLine := Tab.get {} s.lines (lineKey die line)
/-- Write a die's copy. -/
def State.setDieLine (s : State) (die line : Nat) (x : DieLine) : State :=
  { s with lines := Tab.set {} s.lines (lineKey die line) x }

/-- Whether an entry of the L1 table is a copy of a line in a core of a die. -/
def l1Of (die line key : Nat) : Bool := key % 2 ^ 40 == line && key / 2 ^ 40 / 48 == die

/-- The dirty bytes of a die's L1s are collected by its slice (R240). -/
def State.collectL1 (s : State) (die line : Nat) : State :=
  let m := s.l1.foldl (fun m x => if l1Of die line x.1 then m ||| x.2.dirty else m) 0
  if m == 0 then s
  else
    let d := s.dieLine die line
    { s.setDieLine die line { d with dirty := d.dirty ||| m } with
      l1 := s.l1.map fun x => if l1Of die line x.1 then (x.1, { x.2 with dirty := 0 }) else x }

/-- Every L1 of a die drops a line, its dirty bytes collected (R240). -/
def State.dropL1 (s : State) (die line : Nat) : State :=
  let s1 := s.collectL1 die line
  { s1 with l1 := s1.l1.filter fun x => !l1Of die line x.1 }

/-- An L1 in M goes to S, its dirty bytes collected (R240). -/
def State.shareL1 (s : State) (die line : Nat) : State :=
  let s1 := s.collectL1 die line
  { s1 with l1 := s1.l1.map fun x => if l1Of die line x.1 && x.2.st == .m then (x.1, { x.2 with st := .s }) else x }

/-- The lines of an L1: 128 KiB (R239) (DESIGN CHOICE, log entry 78). -/
def l1Lines : Nat := 512

/-- A full L1 evicts its first other line before it takes a new one: dirty bytes go to the slice (R235, R239)
(DESIGN CHOICE, log entry 78). -/
def State.l1Evict (s : State) (core line : Nat) : State :=
  let mine := s.l1.filter fun x => x.1 / 2 ^ 40 == core
  if mine.length < l1Lines || mine.any fun x => x.1 % 2 ^ 40 == line then s
  else
    match mine with
    | [] => s
    | (k, c) :: _ =>
      let die := core / 48
      let d := s.dieLine die (k % 2 ^ 40)
      let s1 := if c.dirty == 0 then s else s.setDieLine die (k % 2 ^ 40) { d with dirty := d.dirty ||| c.dirty }
      { s1 with l1 := Tab.set {} s1.l1 k {} }

/-- A core's L1 gets a line in S with sectors: sectors not there are misses (R240, R452). -/
def State.l1Read (s : State) (core line : Nat) (sectors : BitVec 4) : State :=
  let k := lineKey core line
  let c : L1Line := Tab.get {} s.l1 k
  let new := sectors &&& ~~~c.fill
  if new == 0 then s
  else
    let s1 := (s.l1Evict core line).shareL1 (core / 48) line
    let c1 : L1Line := Tab.get {} s1.l1 k
    { s1 with l1 := Tab.set {} s1.l1 k { c1 with st := (if c1.st == L1St.i then L1St.s else c1.st), fill := c1.fill ||| sectors } }.modCore core
      fun k => { k with l1Miss := k.l1Miss + BitVec.ofNat 64 (popCount new.toNat 4) }

/-- A core's L1 gets a line in M for a store of some bytes; it fetches nothing (R235, R240). -/
def State.l1Own (s : State) (core line : Nat) (mask : BitVec 256) : State :=
  let k := lineKey core line
  let c : L1Line := Tab.get {} s.l1 k
  if c.st == .m then { s with l1 := Tab.set {} s.l1 k { c with dirty := c.dirty ||| mask } }
  else
    let s1 := (s.l1Evict core line).dropL1 (core / 48) line
    { s1 with l1 := Tab.set {} s1.l1 k { c with st := .m, dirty := mask } }

/-! ### Stations and frames (R20, R39, R244) -/

/-- The station number of a physical die (R20). -/
def stationOf (pdie : Nat) : Nat :=
  let y := pdie / 7
  let x := pdie % 7
  if y % 2 == 0 then 7 * y + x else 7 * y + 6 - x

/-- The station number of a logical die; a die without a place orders last. -/
def State.station (s : State) (ldie : Nat) : Nat :=
  match s.physDie ldie with
  | some p => stationOf p
  | none => 84

/-- Slots of a lane that carry requests in a frame: three where slot 3 is reserved (R39). -/
def laneSlots (lane frame : Nat) : Nat := if frame % 16 == 4 * lane % 16 then 3 else 4

/-- The first frame from one on with a free slot of a station on a lane (DESIGN CHOICE, log entry 100). -/
def freeFrame (q : List OrderReq) (die lane : Nat) : Nat → Nat → Nat
  | 0, f => f
  | n + 1, f =>
    let used := (q.filter fun r => r.die == die && laneOfLine r.line == lane && r.frame == f).length
    if used < laneSlots lane f then f else freeFrame q die lane n (f + 1)

/-- Whether a die has a request for a line on its way to its order point. -/
def State.requested (s : State) (die line : Nat) : Bool := s.orderQ.any fun r => r.die == die && r.line == line

/-- Whether it has one of a kind. -/
def State.asked (s : State) (kind : OrderKind) (die line : Nat) : Bool :=
  s.orderQ.any fun r => r.kind == kind && r.die == die && r.line == line

/-- Whether a die's station is silent because the die is fenced in the field (R141). -/
def State.stationFenced (s : State) (die : Nat) : Bool := s.fencedDies.contains die

/-- Whether a request may be added now: one of a kind at a time for a line of a die, and at most 64 in a station's queue for a lane
(R250) (DESIGN CHOICE, log entry 78). -/
def State.mayRequest (s : State) (kind : OrderKind) (die line : Nat) : Bool :=
  !s.asked kind die line && !s.stationFenced die &&
  decide ((s.orderQ.filter fun r => r.die == die && laneOfLine r.line == laneOfLine line).length < 64)

/-- Send a request in the first frame with a free slot (R244, R250) (DESIGN CHOICE, log entry 78) (DESIGN CHOICE, log entry 100). -/
def State.sendRequest (s : State) (kind : OrderKind) (die line : Nat) (smask : BitVec 4) (part : Nat) : State :=
  if s.mayRequest kind die line then
    { s with
      nextId := s.nextId + 1
      orderQ := s.orderQ ++ [⟨kind, freeFrame s.orderQ die (laneOfLine line) 128 (s.sendFrom die), s.station die, die, line, smask, part,
        s.nextId % 65536⟩] }
  else s

/-- The 256 bits of a request's slot, with their check (R34, R244): KIND, SMASK, LINE, PART, TAG, SCHK. -/
def OrderReq.slot (r : OrderReq) (kind : Nat) : Nat :=
  let x := kind * 2 ^ 252 + r.smask.toNat * 2 ^ 248 + r.line % 2 ^ 44 * 2 ^ 204 + r.part % 32 * 2 ^ 199 + r.tag % 65536 * 2 ^ 183
  x + crc16 (leBytes 30 (x / 65536))

/-- The lines of a slice of an L2: 4 MiB (R23). -/
def sliceLines : Nat := 16384

/-- The copies of a die in a line's slice (R23, R234). -/
def State.sliceCopies (s : State) (die line : Nat) : List (Nat × DieLine) :=
  s.lines.filter fun x => x.1 / 2 ^ 40 == die && x.1 % 16 == line % 16 && (x.2.st != .i || x.2.waiting)

/-- Whether a die's slice has a place for a line. -/
def State.sliceRoom (s : State) (die line : Nat) : Bool :=
  (s.dieLine die line).st != .i || decide ((s.sliceCopies die line).length < sliceLines)

/-- The request of a lane that is ordered next: the least key (frame, station, slot), once its frame has been closed for
FRAME_LAG frames (R244) (DESIGN CHOICE, log entry 100). -/
def State.nextOrdered (s : State) (lane : Nat) : Option OrderReq :=
  let due := s.orderQ.filter fun r => laneOfLine r.line == lane && decide (r.frame + 3 ≤ s.frame)
  due.foldl (fun best r =>
    match best with
    | none => some r
    | some b => if r.frame < b.frame || (r.frame == b.frame && r.station < b.station) then some r else some b) none

/-- Remove the first occurrence of a request. -/
def dropFirst (r : OrderReq) : List OrderReq → List OrderReq
  | [] => []
  | x :: xs => if x == r then xs else x :: dropFirst r xs

/-! ### Order points (R246 to R248, R250) -/

/-- The dies that hold copies of a line, with their copies. -/
def State.holders (s : State) (line : Nat) : List (Nat × DieLine) :=
  s.lines.filterMap fun x =>
    if x.1 % 2 ^ 40 == line && x.2.st != .i then some (x.1 / 2 ^ 40, x.2) else none

/-- States that own a line. -/
def Moesi.owns : Moesi → Bool
  | .m | .o | .e => true
  | .s | .i => false

/-- Whether a state lets a die write (R240). -/
def Moesi.writable : Moesi → Bool
  | .m | .e => true
  | _ => false

/-- A die's copy leaves; what it waits for stays owed to it (R248). -/
def State.invalidate (s : State) (die line : Nat) : State :=
  let d := s.dieLine die line
  (s.dropL1 die line).setDieLine die line { waiting := d.waiting }

/-- A full slice evicts a line: S and a window's or module's line silently, E and M by PUTM, O by PUTO (R235, R246)
(DESIGN CHOICE, log entry 78). -/
def State.evict (s : State) (die line part : Nat) : State :=
  let xs := s.sliceCopies die line
  if xs.any fun x => s.asked .putm die (x.1 % 2 ^ 40) || s.asked .puto die (x.1 % 2 ^ 40) then s
  else
    match xs.find? fun x => !x.2.waiting && !s.requested die (x.1 % 2 ^ 40) with
    | none => s
    | some (k, d) =>
      let v := k % 2 ^ 40
      match d.st with
      | .m | .e => s.sendRequest .putm die v (if d.st == .m then d.fill else 0) part
      | .o => s.sendRequest .puto die v d.fill part
      | _ => s.invalidate die v

/-- Ask for a copy, or for what a copy may do: where the slice has no place for the line, another leaves first (R23, R240, R250)
(DESIGN CHOICE, log entry 100). -/
def State.request (s : State) (kind : OrderKind) (die line : Nat) (smask : BitVec 4) (part : Nat) : State :=
  match kind with
  | .rds | .rdx | .own =>
    if s.sliceRoom die line then s.sendRequest kind die line smask part
    else
      let s1 := s.evict die line part
      if s1.sliceRoom die line then s1.sendRequest kind die line smask part else s1
  | _ => s.sendRequest kind die line smask part

/-- Whether a die may store to a line: it holds it in M or E, or the line is served at its home (R242, R249). -/
def State.mayWrite (s : State) (die line : Nat) : Bool := (s.home line).pinned || (s.dieLine die line).st.writable

/-- Ask for what lets a die store to a line (R240). -/
def State.seekWrite (s : State) (die line part : Nat) : State :=
  if s.mayWrite die line then s else s.request (if (s.dieLine die line).st == .i then .own else .upg) die line 0 part

/-! ### The mesh (R133, R136) -/

/-- The numbers passed in going from one to another, the last one among them. -/
def walkTo (a b : Nat) : List Nat :=
  if a ≤ b then (List.range (b - a)).map fun k => a + 1 + k else (List.range (a - b)).map fun k => a - 1 - k

/-- The physical dies on the way from one to another, along the row first or along the column first. -/
def meshPath (rowFirst : Bool) (a b : Nat) : List Nat :=
  let xs (y : Nat) : List Nat := (walkTo (a % 7) (b % 7)).map fun x => 7 * y + x
  let ys (x : Nat) : List Nat := (walkTo (a / 7) (b / 7)).map fun y => 7 * y + x
  if rowFirst then xs (a / 7) ++ ys (b % 7) else ys (a % 7) ++ xs (b / 7)

/-- Whether every router of a way belongs to a die that is not fenced (R22, R141). -/
def State.pathOpen (s : State) (p : List Nat) : Bool := p.all fun d => (s.die d).st != 1 && (s.die d).st != 3

/-- The dies that a flit passes under a table: the table's route, or else the straight one, along the row first where no fenced die lies
in its way (R22, R133) (DESIGN CHOICE, log entry 116). -/
def State.routeVia (s : State) (t : List Route) (a b : Nat) : List Nat :=
  match t.find? fun r => r.src == a && r.dst == b with
  | some r => r.via
  | none => if s.pathOpen (meshPath true a b) || !s.pathOpen (meshPath false a b) then meshPath true a b else meshPath false a b

/-- Whether a way is a detour for a partition: it passes through the router of a die where the partition has no core (R136). -/
def State.detours (s : State) (part : Nat) (via : List Nat) : Bool :=
  via.dropLast.any fun d =>
    match (s.die d).logical with
    | some l => !(s.part part).dies.contains l
    | none => true

/-- Line data is due from a die to a requester: a further delivery to the same die is merged (R246, R248). Its flits carry the epoch of
now and, on a detour, their owner (R133, R136). -/
def State.sendLine (s : State) (src die line part : Nat) (sectors : BitVec 4) (dirty : BitVec 256) (fromHome : Bool) : State :=
  let via := match s.physDie src, s.physDie die with
    | some a, some b => s.routeVia s.base.table a b
    | _, _ => []
  { s.setDieLine die line { s.dieLine die line with waiting := true } with
    mesh := s.mesh ++ [⟨die, line, sectors, dirty, fromHome, src, s.nextId, part, s.base.epoch, (s.physDie src).getD 84, via, s.detours part via⟩] }

/-- The flits of line data: one for a sector (DESIGN CHOICE, log entry 116). -/
def MeshData.flits (m : MeshData) : Nat := max 1 (popCount m.sectors.toNat 4)

/-- A link direction between two dies as a number. -/
def linkKey (a b : Nat) : Nat := 128 * a + b

/-- Whether a link direction takes detour flits now: no more than 16 in 256 flit times, which are ticks (R136)
(DESIGN CHOICE, log entry 116). -/
def State.vc4Room (s : State) (a b n : Nat) : Bool :=
  decide (((s.base.vc4.filter fun x => x.1 == linkKey a b && decide (s.tick < x.2.1 + 256)).map fun x => x.2.2).sum + n ≤ 16)

/-- Whether line data may leave its sender. What the home owes waits until every earlier transient record of the line has closed. A
forwarder whose own data are due waits for them, and so for the access that it made with them (R248). -/
def State.departs (s : State) (m : MeshData) : Bool :=
  if m.fromHome then
    match (s.home m.line).trans with
    | t :: _ => t.id == m.record
    | [] => true
  else
    match s.mesh.find? fun x => x == m || x.line == m.line && x.die == m.src with
    | some x => x == m
    | none => false

/-- Line data moves one die on, if it has any left to pass. On a detour it travels on VC4 within its cap, waits at the router where it
would exceed it, and is counted by the router that forwards it (R136). -/
def State.hop (s : State) (m : MeshData) : Option State :=
  match m.ahead with
  | [] => none
  | d :: r =>
    let put (s : State) : State := { s with mesh := s.mesh.map fun x => if x == m then { m with place := d, ahead := r } else x }
    if !s.departs m then none
    else if !m.detour then some (put s)
    else if s.vc4Room m.place d m.flits then
      let late := s.base.vc4.filter fun x => decide (s.tick < x.2.1 + 256)
      some (put { s with base := { s.base with
        vc4 := late ++ [(linkKey m.place d, s.tick, m.flits)]
        detours := if r.isEmpty then s.base.detours else s.base.detours + m.flits } })
    else none

/-- The owner of a line other than a die forwards to it (R246). -/
def State.forward (s : State) (die line part : Nat) : State :=
  match (s.holders line).find? fun h => h.1 != die && h.2.st.owns with
  | some h => s.sendLine h.1 die line part h.2.fill h.2.dirty false
  | none => s

/-- The home sends a line's data to a die (R246). -/
def State.homeSend (s : State) (die line part : Nat) (sectors : BitVec 4) : State :=
  s.sendLine (homeDie (256 * line)) die line part sectors 0 true

/-- Every die but one drops its copy. -/
def State.invalidateOthers (s : State) (die line : Nat) : State :=
  (s.holders line).foldl (fun s h => if h.1 == die then s else s.invalidate h.1 line) s

/-- The home opens a transient record, under the number that data of its request carry (R248). -/
def State.openTrans (s : State) (line : Nat) (k : TransKind) (die : Nat) : State :=
  let h := s.home line
  { s.setHome line { h with trans := h.trans ++ [⟨k, die, s.nextId⟩] } with nextId := s.nextId + 1 }

/-- The home's record takes a value. -/
def State.setOwner (s : State) (line : Nat) (o : HomeOwner) : State := s.setHome line { s.home line with owner := o }

/-- Change a die's copy state. -/
def State.setSt (s : State) (die line : Nat) (st : Moesi) : State :=
  s.setDieLine die line { s.dieLine die line with st := st }

/-- A die takes a line in M. -/
def State.takeM (s : State) (die line : Nat) : State := (s.setSt die line .m).setOwner line (.em die)

/-- RDS at its order point (R246 to R248); where an earlier request of the die has given it a copy, it keeps that one (R250). -/
def State.orderRds (s : State) (r : OrderReq) : State :=
  if (s.dieLine r.die r.line).st != .i then s
  else
  let others := (s.holders r.line).filter fun h => h.1 != r.die
  let owner := others.find? fun h => h.2.st.owns
  let s1 := if owner.isSome then s.forward r.die r.line r.part
    else (s.homeSend r.die r.line r.part r.smask).openTrans r.line .isD r.die
  let s2 := others.foldl (fun s h =>
    let s := s.shareL1 h.1 r.line
    match h.2.st with
    | .m => s.setSt h.1 r.line .o
    | .e => s.setSt h.1 r.line .s
    | _ => s) s1
  match (s.home r.line).owner with
  | .none => (s2.setSt r.die r.line .e).setOwner r.line (.em r.die)
  | _ =>
    let s3 := s2.setSt r.die r.line .s
    match owner with
    | some h => s3.setOwner r.line (if h.2.st == .e then .shared else .o h.1)
    | none => s3

/-- RDX, OWN, and UPG whose copy is gone, at their order point; OWN answered by the home carries no data, and a die that owns the line
by an earlier request gets none (R246, R247, R250). -/
def State.orderTake (s : State) (r : OrderReq) (data : Bool) : State :=
  let owned := (s.holders r.line).any fun h => h.1 != r.die && h.2.st.owns
  let s1 := if owned then s.forward r.die r.line r.part
    else if data && !(s.dieLine r.die r.line).st.owns then s.homeSend r.die r.line r.part r.smask else s
  ((s1.openTrans r.line .imAd r.die).invalidateOthers r.die r.line).takeM r.die r.line

/-- UPG at its order point (R246, R250). -/
def State.orderUpg (s : State) (r : OrderReq) : State :=
  match (s.dieLine r.die r.line).st with
  | .s => (((s.forward r.die r.line r.part).openTrans r.line .smA r.die).invalidateOthers r.die r.line).takeM r.die r.line
  | .o => ((s.openTrans r.line .omA r.die).invalidateOthers r.die r.line).takeM r.die r.line
  | _ => s.orderTake { r with smask := 0xF } true

/-- PUTM and PUTO at their order point: the requester ends in I whatever its copy is by then, its data go home where it still owns
them, and a PUT whose line another has taken is stale (R246, R248, R250) (DEDUCED, log entry 90). -/
def State.orderPut (s : State) (r : OrderReq) : State :=
  let s1 := s.invalidate r.die r.line
  match (s.dieLine r.die r.line).st with
  | .m => (s1.setOwner r.line .none).openTrans r.line .miA r.die
  | .e => s1.setOwner r.line .none
  | .o => (s1.setOwner r.line .shared).openTrans r.line .miA r.die
  | .s => s1
  | .i => s

/-- PIN at its order point: every copy is written home and dropped (R242, R246). -/
def State.orderPin (s : State) (r : OrderReq) : State :=
  let s1 := (s.holders r.line).foldl (fun s h => s.invalidate h.1 r.line) s
  s1.setHome r.line { s1.home r.line with owner := .none, pinned := true }

/-- Every die collects the dirty bytes that its L1s hold of a line, before it acts on a request (R240). -/
def State.collectAll (s : State) (line : Nat) : State := (s.holders line).foldl (fun s h => s.collectL1 h.1 line) s

/-- The effect of a request at its order point. A line that has been pinned meanwhile is served at its home (R242). -/
def State.orderEffect (s : State) (r : OrderReq) : State :=
  if (s.home r.line).pinned then s
  else
    let s := s.collectAll r.line
    match r.kind with
    | .rds => s.orderRds r
    | .rdx => s.orderTake r true
    | .own => s.orderTake r false
    | .upg => s.orderUpg r
    | .putm | .puto => s.orderPut r
    | .pin => s.orderPin r

/-! ### Data and completions (R247, R248) -/

/-- Whether line data may arrive: the earlier data of its line for the same die have, and it may leave its sender (R248). -/
def State.meshReady (s : State) (m : MeshData) : Bool :=
  s.departs m &&
  match s.mesh.find? fun x => x.line == m.line && x.die == m.die with
  | some x => x == m
  | none => false

/-- Remove the first record for which a condition holds. -/
def dropTrans (p : Trans → Bool) : List Trans → List Trans
  | [] => []
  | t :: ts => if p t then ts else t :: dropTrans p ts

/-- Close a transient record of a line. -/
def State.closeTrans (s : State) (line : Nat) (p : Trans → Bool) : State :=
  let h := s.home line
  s.setHome line { h with trans := dropTrans p h.trans }

/-- The data of a line arrives at a die: the masks merge, there and in what the die owes to later requests, and IS_D closes
(R246, R248) (DEDUCED, log entry 90). -/
def State.arrive (s : State) (m : MeshData) : State :=
  let d := s.dieLine m.die m.line
  let later := (s.mesh.filter fun x => x.die == m.die && x.line == m.line).length
  let give : MeshData → MeshData := fun x =>
    if !x.fromHome && x.src == m.die && x.line == m.line then
      { x with sectors := x.sectors ||| m.sectors, dirty := x.dirty ||| m.dirty }
    else x
  let s1 := s.setDieLine m.die m.line
    { d with
      waiting := decide (1 < later)
      fill := if d.st == .i then d.fill else d.fill ||| m.sectors
      dirty := if d.st == .m || d.st == .o then d.dirty ||| m.dirty else d.dirty }
  let s2 := { s1 with mesh := (s1.mesh.erase m).map give }
  if m.fromHome then s2.closeTrans m.line fun t => t.kind == .isD && t.id == m.record else s2

/-- Whether a transient record waits for its requester's completion, which follows the data (R248)
(DEDUCED, log entry 90). -/
def State.completes (s : State) (t : Trans) (line : Nat) : Bool :=
  (t.kind == .imAd || t.kind == .smA || t.kind == .omA) && !(s.mesh.any fun m => m.die == t.die && m.line == line)

/-- REQUESTER_COMPLETION (R248). -/
def execRequesterCompletion (die line : Nat) (s : State) : Answer :=
  .next (s.closeTrans line fun t => t.die == die && s.completes t line)

/-- DRAM_WRITE_BACK (R248). -/
def execDramWriteBack (line : Nat) (s : State) : Answer := .next (s.closeTrans line fun t => t.kind == .miA)

/-! ### Wavelength remaps (R24, R25) -/

/-- Requests of a die from a frame on move past a blackout, in their order (R25). -/
def State.moveRequests (s : State) (die from_ : Nat) : State :=
  let late := s.orderQ.filter fun r => r.die == die && decide (from_ ≤ r.frame)
  let rest := s.orderQ.filter fun r => !(r.die == die && decide (from_ ≤ r.frame))
  { s with orderQ := late.foldl (fun q r =>
      q ++ [{ r with frame := freeFrame q die (laneOfLine r.line) 256 (from_ + 6) }]) rest }

/-- Broadcast sectors of a die from a frame on move past a blackout, in their order (R25, R252). -/
def State.moveSectors (s : State) (die from_ : Nat) : State :=
  { s with pipe := s.pipe.map fun o =>
      match o.kind with
      | .stb e f => if (s.wg o.wg).die == die && from_ ≤ f then { o with kind := .stb e (f + 6) } else o
      | _ => o }

/-- BLACKOUT (R25): at frame n − 2 of an announced remap. -/
def execBlackout (die : Nat) (s : State) : Answer :=
  .next (
    match s.base.remaps.find? fun r => r.die == die && decide (s.frame < r.frame) && decide (r.frame ≤ s.frame + 2) with
    | none => s
    | some r =>
      if (s.die die).silentFrom == some (r.frame - 2) then s
      else
        let s1 := s.setDie die { s.die die with silentFrom := some (r.frame - 2) }
        match (s.die die).logical with
        | some l => (s1.moveRequests l (r.frame - 2)).moveSectors l (r.frame - 2)
        | none => s1)

/-- REMAP_FRAME (R25): at the announced frame, every station receives the die on its new group
(DESIGN CHOICE, log entry 2). -/
def execRemapFrame (die : Nat) (s : State) : Answer :=
  .next (
    match s.base.remaps.find? fun r => r.die == die && decide (r.frame ≤ s.frame) with
    | none => s
    | some r =>
      let s1 := s.setDie die { s.die die with group := r.new, silentFrom := some (r.frame - 2) }
      { s1 with base := { s1.base with remaps := s1.base.remaps.filter fun x => x != r } })

end Sys2Proof.Machine
end

