-- ==== Sys2Proof/Machine/Pod.lean ====
section
/-! DEFINITION. Pod coherence (R66 to R72, R253): requests of this module for lines homed at others, its answers to snoops, and
its service as the home of its own lines. Log entries 28 and 29 give the conventions that the manual leaves open. -/

namespace Sys2Proof.Machine

/-! ### Bytes of a line in a message: sector k stands at bytes 64k to 64k + 63 -/

/-- The runs of set bits of a byte mask: offset and length. -/
def maskRuns (mask : BitVec 256) : List (Nat × Nat) :=
  (List.range 256).foldr (fun b rs =>
    if mask.getLsbD b then
      match rs with
      | (o, n) :: r => if o == b + 1 then (b, n + 1) :: r else (b, 1) :: rs
      | [] => [(b, 1)]
    else rs) []

/-- The mask of n bytes from an offset of the line. -/
def byteMask (o n : Nat) : BitVec 256 := BitVec.ofNat 256 ((2 ^ n - 1) * 2 ^ o)

/-- The sectors that a byte mask touches. -/
def maskSectors (mask : BitVec 256) : BitVec 4 :=
  (List.range 4).foldl (fun m k => if mask.toNat / 2 ^ (64 * k) % 2 ^ 64 != 0 then m ||| (1#4 <<< k) else m) 0

/-- A line image with some bytes from an offset. -/
def lineImage (o : Nat) (bs : List Byte) : List Byte := byteSlice (List.replicate o 0 ++ bs) 0 256

/-- A store of the bytes that a mask names to a line of this module (R54, R235). -/
def State.storeLine (s : State) (line : Nat) (mask : BitVec 256) (data : List Byte) : State :=
  (maskRuns mask).foldl (fun s r => s.storeBytes (256 * line + r.1) (byteSlice data r.1 r.2)) s

/-! ### The module as requester (R67, R70, R253) -/

/-- This module's copy of a line of another (DEDUCED, log entry 91). -/
def State.podLine (s : State) (m line : Nat) : PodLine := Tab.get {} s.podLines (lineKey m line)
/-- The L1 copies of another module's line (R253). -/
def podL1 (m line : Nat) (x : Nat × L1Line) : Bool := cacheLine (.pod m) (256 * line) == some (x.1 % 2 ^ 40)

/-- Write that copy; the L1s of its agent die lose the line with it, and share it with it (R240, R253). -/
def State.setPodLine (s : State) (m line : Nat) (x : PodLine) : State :=
  { s with
    podLines := Tab.set {} s.podLines (lineKey m line) x
    l1 := match x.st with
      | .i => s.l1.filter fun c => !podL1 m line c
      | .s | .o => s.l1.map fun c => if podL1 m line c && c.2.st == .m then (c.1, { c.2 with st := .s, dirty := 0 }) else c
      | _ => s.l1 }

/-- The agent die of another module's line: the logical die that carries the port chosen for the line (R71, R253)
(DEDUCED, log entry 91). -/
def State.agentDie (s : State) (m line : Nat) : Option Nat := (s.podPort m line).bind fun n => (s.die (Config.portDie n)).logical

/-- The port and tag by which a partition reaches a line of a module (R60, R71) (DEDUCED, log entry 21). -/
def State.podRoute (s : State) (part m line : Nat) : Option (Nat × Nat) :=
  match s.podPort m line with
  | none => none
  | some n => (s.tagOf n part).map fun t => (n, t)

/-- A coherent message about a line. -/
def podMsg (chan opc line mtag : Nat) (smask : BitVec 4) (mask : BitVec 256 := 0) (data : List Byte := []) : Msg :=
  { chan := chan, opc := opc, smask := smask, chk := 0, mtag := mtag % 65536, srcmod := Config.moduleNumber, addr := 256 * line, arg := 0,
    mask := mask, data := data }

/-- Whether a request for a line is outstanding. -/
def State.podAsked (s : State) (m line : Nat) : Bool := s.podReqs.any fun r => r.home == m && r.line == line

/-- Send a coherent request for a line, one at a time (R67). -/
def State.podWant (s : State) (part m line opc : Nat) (smask : BitVec 4) : State :=
  match s.podRoute part m line with
  | none => s
  | some (n, t) =>
    if s.podAsked m line then s
    else
      let r : PodReq := { mtag := s.nextId % 65536, part := part, home := m, line := line, opc := opc }
      State.sendMsg { s with nextId := s.nextId + 1, podReqs := s.podReqs ++ [r] } n t (podMsg 2 opc line s.nextId smask)

/-- Write back the modified bytes of a line, which stays exclusive (R67; DESIGN CHOICE, log entry 28). -/
def State.podWriteBack (s : State) (part m line : Nat) : State :=
  let l := s.podLine m line
  if l.dirty == 0 then s
  else
    match s.podRoute part m line with
    | none => s
    | some (n, t) =>
      let sm := maskSectors l.dirty
      let r : PodReq := { mtag := s.nextId % 65536, part := part, home := m, line := line, opc := 5 }
      let s1 : State := { s with nextId := s.nextId + 1, podReqs := s.podReqs ++ [r] }
      let s2 := s1.setPodLine m line { l with st := .e, fill := l.fill, dirty := 0 }
      (s2.sendMsg n t (podMsg 2 5 line s.nextId sm l.dirty)).sendMsg n t
        (podMsg 4 1 line s.nextId sm 0 (Memory.bytes l.bytes 0 256))

/-- A store into a line that this module holds exclusively. -/
def State.podStore (s : State) (m line o : Nat) (bs : List Byte) : State :=
  let l := s.podLine m line
  s.setPodLine m line
    { l with st := .m, dirty := l.dirty ||| byteMask o bs.length, bytes := Memory.write l.bytes o bs }

/-- Whether the bytes [o, o + n) of a held line are here: filled, or written by this module (R235). -/
def PodLine.has (l : PodLine) (o n : Nat) : Bool :=
  l.st != .i && (List.range n).all fun k => l.fill.getLsbD ((o + k) / 64) || l.dirty.getLsbD (o + k)

/-- Sectors arrive: they merge beneath the modified bytes (R235). -/
def PodLine.merge (l : PodLine) (smask : BitVec 4) (data : List Byte) : PodLine :=
  { l with
    fill := l.fill ||| smask
    bytes := (List.range 256).foldl (fun t k =>
      if smask.getLsbD (k / 64) && !l.dirty.getLsbD k then Memory.setByte t k (data.getD k 0) else t) l.bytes }

/-- Whether a request is complete (R67, R70). -/
def PodReq.complete (r : PodReq) : Bool :=
  match r.opc, r.granted with
  | 3, _ => r.data
  | 4, some 3 | 5, some _ | 6, some _ => true
  | _, some _ => r.data
  | _, none => false

/-- A complete request ends: the copy takes its state, and belongs to the partition that asked for it (R60). -/
def State.podSettle (s : State) (mtag : Nat) : State :=
  match s.podReqs.find? fun r => r.mtag == mtag && r.complete with
  | none => s
  | some r =>
    let s1 := { s with podReqs := s.podReqs.erase r }
    let l := { s.podLine r.home r.line with part := r.part }
    match r.opc with
    | 1 => if l.st == .i then s1.setPodLine r.home r.line { l with st := if r.granted == some 2 then .e else .s } else s1
    | 2 | 4 => s1.setPodLine r.home r.line { l with st := if l.dirty == 0 then .e else .m }
    | _ => s1

/-! ### Answers to snoops (R67, R70) -/

/-- Send a coherent answer to a module for the partition of a received message, on the port that the line has then (R60, R71);
a module that no port reaches gets none (R72). -/
def State.podAnswer (s : State) (n t m line : Nat) (msg : Msg) : State :=
  match (s.msgPart n t).bind fun q => s.podRoute q m line with
  | some (k, tag) => s.sendMsg k tag msg
  | none => s

/-- Answer a snoop, with the modified bytes of the copy. -/
def State.snoopAnswer (s : State) (n t m line : Nat) (opc : Nat) (l : PodLine) : State :=
  let sm := maskSectors l.dirty
  let s1 := if l.dirty == 0 then s else s.podAnswer n t m line (podMsg 4 1 line 0 sm l.dirty (Memory.bytes l.bytes 0 256))
  s1.podAnswer n t m line (podMsg 6 opc line 0 (if l.dirty == 0 then 0 else sm))

/-- A back-invalidate snoop of either kind: BINV drops the copy; BSHR shares it, or reports it gone. It acts on the copy of its
own partition only (R60). -/
def State.snooped (s : State) (n t : Nat) (m : Msg) (share : Bool) : State :=
  let line := m.addr / 256
  let l := s.podLine m.srcmod line
  if s.msgPart n t != some l.part then s.snoopAnswer n t m.srcmod line 1 {}
  else if share && l.st != .i && !s.podAsked m.srcmod line then
    (s.setPodLine m.srcmod line { l with st := .s, dirty := 0, fill := l.fill ||| maskSectors l.dirty }).snoopAnswer n t m.srcmod line 2 l
  else (s.setPodLine m.srcmod line {}).snoopAnswer n t m.srcmod line 1 (if l.st == .m then l else {})

/-! ### The module as home (R68, R70) -/

/-- The pod directory's presence vector of a line (R68). -/
def State.presence (s : State) (line : Nat) : BitVec 16 := Tab.get 0 s.podDir line
/-- Modules whose answers about a line are awaited. -/
def State.awaited (s : State) (line : Nat) : BitVec 16 := Tab.get 0 s.podAwait line
/-- The bit of a module. -/
def modBit (m : Nat) : BitVec 16 := 1#16 <<< m

/-- A module holds no copy of a line any more. -/
def State.forgetHolder (s : State) (line m : Nat) : State :=
  { s with
    podDir := Tab.set 0 s.podDir line (s.presence line &&& ~~~modBit m)
    podExcl := if Tab.get 0 s.podExcl line == m + 1 then Tab.set 0 s.podExcl line 0 else s.podExcl }

/-- Send BINV, or BSHR, to the holders of a line other than one; a holder that no port reaches has lost its copy (R68, R72). -/
def State.recall (s : State) (line : Nat) (share : Bool) (but : Option Nat) : State :=
  (List.range 16).foldl (fun s m =>
    if (s.presence line).getLsbD m && !(s.awaited line).getLsbD m && but != some m &&
        (!share || Tab.get 0 s.podExcl line == m + 1) then
      match s.podRoute (s.ownerOf (256 * line) - 1) m line with
      | none => s.forgetHolder line m
      | some (n, t) =>
        { s with podAwait := Tab.set 0 s.podAwait line (s.awaited line ||| modBit m) }.sendMsg n t
          (podMsg 5 (if share then 2 else 1) line 0 0)
    else s) s

/-- Held messages whose lines await no answer are served again, before any that arrive later. -/
def State.releaseHeld (s : State) : State :=
  let free (h : Nat × Nat × Msg) : Bool := s.awaited (h.2.2.addr / 256) == 0
  { s with podHeld := s.podHeld.filter (fun h => !free h), inbox := s.podHeld.filter free ++ s.inbox }

/-- A module has answered a snoop: its copy is gone, or shared (R68). -/
def State.answered (s : State) (line m : Nat) (gone : Bool) : State :=
  let s1 := { s with podAwait := Tab.set 0 s.podAwait line (s.awaited line &&& ~~~modBit m) }
  let s2 := if gone then s1.forgetHolder line m
    else if Tab.get 0 s1.podExcl line == m + 1 then { s1 with podExcl := Tab.set 0 s1.podExcl line 0 } else s1
  if s2.awaited line == 0 then s2.releaseHeld else s2

/-- Whether a line's directory entry can be made: one exists, or the home die has fewer than 262,144 (R68). -/
def State.dirRoom (s : State) (line : Nat) : Bool :=
  s.presence line != 0 ||
  decide ((s.podDir.filter fun x => homeDie (256 * x.1) == homeDie (256 * line)).length < 262144)

/-- Another line of the die whose entry is freed (R68). -/
def State.dirVictim (s : State) (line : Nat) : Option Nat :=
  (s.podDir.find? fun x => homeDie (256 * x.1) == homeDie (256 * line) && x.1 != line).map (·.1)

/-- Take the oldest unserved message if it has a channel and opcode (R54). -/
def State.takeMsg (s : State) (chan opc : Nat) : Option (Nat × Nat × Msg × State) :=
  match s.inbox with
  | (n, t, m) :: r => if m.chan == chan && m.opc == opc then some (n, t, m, { s with inbox := r }) else none
  | [] => none

/-- Whether a coherent request names memory of its partition (R123, R255). -/
def State.podOwns (s : State) (n t : Nat) (m : Msg) : Bool :=
  match s.msgPart n t with
  | some p => decide (m.addr < dramBytes) && s.ownerOf m.addr == p + 1
  | none => false

/-- Hold a message until the answers about its line have come (R70) (DESIGN CHOICE, log entry 28). -/
def State.holdMsg (s : State) (n t : Nat) (m : Msg) : State := { s with podHeld := s.podHeld ++ [(n, t, m)] }

/-- Whether an order of this module keeps a coherent request waiting (R261) (DESIGN CHOICE, log entry 83). -/
def State.msgShut (s : State) (m : Msg) : Bool :=
  s.shut .module 0 true (m.opc != 1 && m.opc != 3) .global (256 * (m.addr / 256)) 256 fun _ _ => false

/-- Serve a coherent request at the home, or hold it while copies are recalled (R68, R70): `share` recalls only an exclusive
copy, `entry` tells that the sender gets a directory entry (DESIGN CHOICE, log entry 28). -/
def State.servePod (s : State) (n t : Nat) (m : Msg) (share entry : Bool) (body : State → State) : State :=
  let line := m.addr / 256
  if !s.podOwns n t m then s
  else if s.awaited line != 0 then s.holdMsg n t m
  else if s.msgShut m then { s with podShut := s.podShut ++ [(n, t, m)] }
  else
    let s1 := s.recall line share (some m.srcmod)
    if s1.awaited line != 0 then s1.holdMsg n t m
    else if entry && !s1.dirRoom line then
      match s1.dirVictim line with
      | some v =>
        let s2 := s1.recall v false none
        if s2.awaited v == 0 then body s2 else s2.holdMsg n t m
      | none => s1
    else body s1

/-- DATA of a line to a requester, or NERR where a sector fails: it is never transmitted (R37; DEDUCED, log entry 29). -/
def State.podData (s : State) (n t : Nat) (m : Msg) (grant : Option Nat) : State :=
  let line := m.addr / 256
  let bad := (List.range 4).find? fun k => m.smask.getLsbD k && s.sectorFails (256 * line + 64 * k)
  match bad with
  | some k => (s.reportSector (4 * line + k)).podAnswer n t m.srcmod line (mkMsg 8 4 m.addr m.mtag NetStatus.dataCheck.num)
  | none =>
    let s1 := match grant with
      | some g => s.podAnswer n t m.srcmod line (podMsg 3 g line m.mtag 0)
      | none => s
    s1.podAnswer n t m.srcmod line (podMsg 4 1 line m.mtag m.smask 0 (s.bytesAt (256 * line) 256))

/-- The sender's bit is set in the directory; an exclusive grant is recorded (R68). -/
def State.addHolder (s : State) (line m : Nat) (excl : Bool) : State :=
  { s with
    podDir := Tab.set 0 s.podDir line (s.presence line ||| modBit m)
    podExcl := if excl then Tab.set 0 s.podExcl line (m + 1) else s.podExcl }

/-- The copies of every die of this module are dropped, as at PIN (DESIGN CHOICE, log entry 28). -/
def State.dropDies (s : State) (line : Nat) : State :=
  ((s.holders line).foldl (fun s h => s.invalidate h.1 line) s).setOwner line .none

/-- CREQ_RDS (R67, R68). -/
def execCreqRds (s : State) : Answer :=
  .next (
    match s.takeMsg 2 1 with
    | none => s
    | some (n, t, m, s1) => s1.servePod n t m true true fun s => (s.addHolder (m.addr / 256) m.srcmod false).podData n t m (some 1))

/-- An exclusive grant with data (R67). -/
def State.grantRdx (s : State) (n t : Nat) (m : Msg) : State :=
  ((s.dropDies (m.addr / 256)).addHolder (m.addr / 256) m.srcmod true).podData n t m (some 2)

/-- CREQ_RDX (R67, R68, R70). -/
def execCreqRdx (s : State) : Answer :=
  .next (
    match s.takeMsg 2 2 with
    | none => s
    | some (n, t, m, s1) => s1.servePod n t m false true fun s => s.grantRdx n t m)

/-- CREQ_RDC: no copy is kept (R67). -/
def execCreqRdc (s : State) : Answer :=
  .next (
    match s.takeMsg 2 3 with
    | none => s
    | some (n, t, m, s1) => s1.servePod n t m true false fun s => s.podData n t m none)

/-- CREQ_UPG: of a copy that is gone, it is RDX (R67, R70). -/
def execCreqUpg (s : State) : Answer :=
  .next (
    match s.takeMsg 2 4 with
    | none => s
    | some (n, t, m, s1) =>
      s1.servePod n t m false true fun s =>
        if (s.presence (m.addr / 256)).getLsbD m.srcmod then
          ((s.dropDies (m.addr / 256)).addHolder (m.addr / 256) m.srcmod true).podAnswer n t m.srcmod (m.addr / 256)
            (podMsg 3 3 (m.addr / 256) m.mtag 0)
        else s.grantRdx n t { m with smask := 0xF })

/-- The data message that goes with a held write, or the reverse: same sender and tag. -/
def State.heldWith (s : State) (m : Msg) (p : Msg → Bool) : Option (Nat × Nat × Msg) :=
  s.podHeld.find? fun h => h.2.2.srcmod == m.srcmod && h.2.2.mtag == m.mtag && h.2.2.addr == m.addr && p h.2.2

/-- Store the data of a message under a mask; sectors that fail their check values are marked (R35 to R37, R54). -/
def State.storeMsg (s : State) (line : Nat) (mask : BitVec 256) (data : Msg) : State :=
  data.badSectors.foldl (fun s k => (s.markSector (4 * line + k)).reportSector (4 * line + k)) (s.storeLine line mask data.data)

/-- A write under the byte mask of its header is done once header and data have both come: CMP (R54, R67). -/
def State.podWrite (s : State) (n t : Nat) (hdr data : Msg) : State :=
  let line := hdr.addr / 256
  (s.storeMsg line hdr.mask data).podAnswer n t hdr.srcmod line (podMsg 3 3 line hdr.mtag 0)

/-- CREQ_WBM: the sender's copy stays; one whose snoop answer is awaited waits for it (R67, R70; DESIGN CHOICE, log entry 28). -/
def execCreqWbm (s : State) : Answer :=
  .next (
    match s.takeMsg 2 5 with
    | none => s
    | some (n, t, m, s1) =>
      if !s1.podOwns n t m then s1
      else if (s1.awaited (m.addr / 256)).getLsbD m.srcmod then s1.holdMsg n t m
      else
        match s1.heldWith m fun h => h.chan == 4 with
        | some h => { s1 with podHeld := s1.podHeld.erase h }.podWrite n t m h.2.2
        | none => s1.holdMsg n t m)

/-- CREQ_WRS: other copies are recalled first; the sender keeps none (R67, R68). -/
def execCreqWrs (s : State) : Answer :=
  .next (
    match s.takeMsg 2 6 with
    | none => s
    | some (n, t, m, s1) =>
      s1.servePod n t m false false fun s =>
        match s.heldWith m fun h => h.chan == 4 with
        | some h => ({ s with podHeld := s.podHeld.erase h }.dropDies (m.addr / 256)).podWrite n t m h.2.2
        | none => s.holdMsg n t m)

/-- BINV (R67, R70). -/
def execBinv (s : State) : Answer :=
  .next (
    match s.takeMsg 5 1 with
    | none => s
    | some (n, t, m, s1) => s1.snooped n t m false)

/-- BSHR (R67, R70). -/
def execBshr (s : State) : Answer :=
  .next (
    match s.takeMsg 5 2 with
    | none => s
    | some (n, t, m, s1) => s1.snooped n t m true)

/-- An answer to a snoop; one that announces data waits for it (R67, R68; DESIGN CHOICE, log entry 28). -/
def State.snoopReply (s : State) (n t : Nat) (m : Msg) (gone : Bool) : State :=
  let line := m.addr / 256
  if !(s.awaited line).getLsbD m.srcmod || !s.podOwns n t m then s
  else if m.smask == 0 then s.answered line m.srcmod gone
  else
    match s.heldWith m fun h => h.chan == 4 with
    | some h => (({ s with podHeld := s.podHeld.erase h }).storeMsg line h.2.2.mask h.2.2).answered line m.srcmod gone
    | none => s.holdMsg n t m

/-- BACKI (R68). -/
def execBacki (s : State) : Answer :=
  .next (
    match s.takeMsg 6 1 with
    | none => s
    | some (n, t, m, s1) => s1.snoopReply n t m true)

/-- BACKS (R67). -/
def execBacks (s : State) : Answer :=
  .next (
    match s.takeMsg 6 2 with
    | none => s
    | some (n, t, m, s1) => s1.snoopReply n t m false)

end Sys2Proof.Machine
end

