-- ==== Sys2Proof/Machine/Defects.lean ====
section
/-! DEFINITION. The defect view of a partition (R127 to R132), and the counters of the fabric engines with the firing of posted
entries (R174 to R177, R180). -/

namespace Sys2Proof.Machine

/-! ### The defect view (R127 to R132) -/

/-- The ports mapped to a partition's tenant tags, with the lowest such tag (R127, R132). -/
def State.partPorts (s : State) (part : Nat) : List (Nat × Nat) :=
  (List.range 96).filterMap fun n => (s.tagOf n part).map fun t => (n, t)

/-- A core table entry (R130). -/
def State.coreEntry (s : State) (c : Nat × Bool) : Nat :=
  let e := s.cairnOf c.1
  c.1 * 2 ^ 36 + c.1 / 48 * 2 ^ 29 + e.cfeat.toNat * 2 ^ 8 +
  (if c.2 then 1 else if s.isIsolated (c.1 / 48) then 2 else 0)

/-- A die table entry (R131): DSTATE 2 tells that no physical die has the number (DESIGN CHOICE, log entry 117). -/
def State.dieEntry (s : State) (ldie : Nat) : Nat :=
  match s.physDie ldie with
  | some p => (s.die p).pgret * 2 ^ 40 + (s.die p).step * 2 ^ 36 + (if s.isIsolated ldie then 2 ^ 34 else 0) + ldie
  | none => 2 * 2 ^ 34 + ldie

/-- A port table entry (R132). -/
def State.portEntry (s : State) (n : Nat × Nat) : Nat :=
  (s.port n.1).stat / 2 ^ 24 * 2 ^ 24 + n.2 * 2 ^ 16 + n.1

/-- The port table as it stands now (R127, R132). -/
def State.portTable (s : State) (part : Nat) : List Nat := (s.partPorts part).map s.portEntry

/-- The header's dwords (R128). -/
def State.viewHeader (s : State) (part k : Nat) : Nat :=
  let p := s.part part
  match k with
  | 0 => p.viewVer
  | 1 => part + p.cores.length * 2 ^ 16 + p.dies.length * 2 ^ 32 + p.shownPorts.length * 2 ^ 40
  | 2 => s.base.rtver + 2 ^ 32 * b2n (p.dies.any s.isIsolated)
  | _ => 0

/-- The dword at an offset of a partition's defect view (R127). -/
def State.viewDword (s : State) (part off : Nat) : Nat :=
  let p := s.part part
  if off < 0x40 then s.viewHeader part (off / 8)
  else if off < 0x540 then
    match p.dies[(off - 0x40) / 16]? with
    | some d => s.dieEntry d / 2 ^ (64 * (off / 8 % 2)) % 2 ^ 64
    | none => 0
  else if 0x800 ≤ off && off < 0xB00 then
    p.shownPorts.getD ((off - 0x800) / 8) 0
  else if 0x1000 ≤ off && off < 0x8800 then
    match p.cores[(off - 0x1000) / 8]? with
    | some c => s.coreEntry c
    | none => 0
  else 0

/-- An update of a view begins, or goes on: VERSION is the next odd value while entries change (R129). -/
def State.touchView (s : State) (part : Nat) : State := s.modPart part fun p => { p with viewVer := p.viewVer + (1 - p.viewVer % 2) }

/-- The next step of the controller on a view: ports that have changed make VERSION odd and are then shown, and once nothing is left
to change VERSION becomes even (R129, R132). -/
def State.viewStep (s : State) (part : Nat) : Option State :=
  let p := s.part part
  let now := s.portTable part
  if p.shownPorts != now then
    some (if p.viewVer % 2 == 0 then s.touchView part else s.setPart part { p with shownPorts := now })
  else if p.viewVer % 2 == 1 then some (s.setPart part { p with viewVer := p.viewVer + 1 })
  else none

/-- The next step on any partition's view. -/
def State.viewStage (s : State) : Option State := s.parts.findSome? fun p => s.viewStep p.1

/-! ### Counters (R174, R176) -/

/-- The partition that owns a counter of a die, plus one (R175). -/
def State.counterOwner (s : State) (die c : Nat) : Nat := s.blockOwner die (c / 64)

/-- Whether what a step of a collective waits for beside its threshold has come (R194) (DESIGN CHOICE, log entry 35). -/
def State.gateOpen (s : State) (v : Nat) : Option Gate → Bool
  | none => true
  | some g => decide (g.full ≤ v) || g.parts.all fun x =>
      if x.2.2.2 == 0 then (List.range x.2.1).all fun k => (Tab.get 0 s.landed ((x.1 + k) / 256)).getLsbD ((x.1 + k) % 256)
      else (List.range (x.2.1 / x.2.2.1)).all fun k => decide (x.2.2.2 ≤ Tab.get 0 s.sums (x.1 + x.2.2.1 * k))

/-- The POSTED entries of a die whose threshold a counter's value meets, by threshold and then by number (R180). -/
def State.firing (s : State) (die c : Nat) : List (Nat × Entry) :=
  let v := (s.counter die c).value.toNat
  let xs := s.entries.filterMap fun x =>
    if x.1 / 16384 == die && x.2.st == .posted && leAt x.2.img 2 2 == c && decide (x.2.thresh ≤ v) &&
        s.gateOpen v x.2.gate && !(s.part x.2.part).frozen then
      some (x.1 % 16384, x.2)
    else none
  xs.foldl (fun acc x => insertBy x acc) []
where
  /-- Insert by threshold; an equal threshold keeps the order of entry numbers. -/
  insertBy (x : Nat × Entry) : List (Nat × Entry) → List (Nat × Entry)
    | [] => [x]
    | y :: r => if x.2.thresh < y.2.thresh then x :: y :: r else y :: insertBy x r

/-- The check after a change of a counter: entries fire and enter their partition's network queue (R180, R184). -/
def State.checkFiring (s : State) (die c : Nat) : State :=
  (s.firing die c).foldl (fun s x =>
    (s.setEntry die x.1 { x.2 with st := .queued }).setNet die x.2.part (s.net die x.2.part ++ [.entry x.1])) s

/-- An add that passes 2^48 − 1 saturates and sets OVF (R176). -/
def Counter.add (k : Counter) (v : Nat) : Counter :=
  if 2 ^ 48 ≤ k.value.toNat + v then { k with value := BitVec.ofNat 48 (2 ^ 48 - 1), ovf := true }
  else { k with value := BitVec.ofNat 48 (k.value.toNat + v) }

/-- A counter is raised (R176). -/
def State.raise (s : State) (die c v : Nat) : State := (s.setCounter die c ((s.counter die c).add v)).checkFiring die c

/-- A counter is set: OVF and ERR are cleared (R176). -/
def State.setTo (s : State) (die c v : Nat) : State :=
  (s.setCounter die c { value := BitVec.ofNat 48 v, err := 0, ovf := false }).checkFiring die c

/-! ### Device pages (R33, R177) -/

/-- The counter that an offset of a trigger window names (R177). -/
def windowCounter (pa : Nat) : Nat := pa % 32768 / 8
/-- Whether a trigger-window access is in the set area. -/
def windowSets (pa : Nat) : Bool := decide (32768 ≤ pa % 65536)

/-- A dword load of a device page by a partition (R127, R177) (DESIGN CHOICE, log entry 19). -/
def State.deviceRead (s : State) (part pa : Nat) : Nat :=
  let pg := devicePage pa
  if pg < 80 then
    if s.counterOwner pg (windowCounter pa) == part + 1 then (s.counter pg (windowCounter pa)).word else 0
  else s.viewDword (pg - 80) (pa % 65536)

/-- A dword store to a trigger window; a counter that the partition does not own is left alone (R177)
(DESIGN CHOICE, log entry 19). -/
def State.windowStore (s : State) (part pa v : Nat) : State :=
  let pg := devicePage pa
  let c := windowCounter pa
  if s.counterOwner pg c != part + 1 then s
  else if windowSets pa then s.setTo pg c (v % 2 ^ 48)
  else s.raise pg c (v % 2 ^ 48)

end Sys2Proof.Machine
end

