-- ==== Sys2Proof/Machine/Target.lean ====
section
/-! DEFINITION. What the bank units and home slices do to memory for atomics, accumulates, engines and messages (R84, R186 to
R188, R241, R242, R286, R288, R407), and the sending of a non-coherent request (R73, R186). -/

namespace Sys2Proof

/-- OP of ATOM, which is also the kind of AFMT (R186, R406). -/
def AtomOp.num : AtomOp → Nat
  | .add => 0 | .sub => 1 | .min => 2 | .max => 3 | .and => 4 | .or => 5 | .xor => 6 | .exch => 7 | .cas => 8

/-- The element type of AFMT that an accumulate of a type names (R186). -/
def AccTy.num : AccTy → Nat
  | .f32 => 0 | .bf16 => 1 | .f16 => 2 | .f64 => 3 | .bf16x2 => 6 | .f16x2 => 7

end Sys2Proof

namespace Sys2Proof.Machine

/-! ### Values (R186, R407) -/

/-- Whether one n-bit value is below another. -/
def lessThan (signed : Bool) (n x y : Nat) : Bool := if signed then decide (sextInt n x < sextInt n y) else decide (x < y)

/-- The new value of an atomic of n bits: `b` is the operand or swap value, `cmp` the compare value (R186, R407). -/
def atomResult (k : Nat) (signed : Bool) (n old b cmp : Nat) : Nat :=
  let b := b % 2 ^ n
  match k with
  | 0 => (old + b) % 2 ^ n
  | 1 => (old + (2 ^ n - b)) % 2 ^ n
  | 2 => if lessThan signed n b old then b else old
  | 3 => if lessThan signed n old b then b else old
  | 4 => old &&& b
  | 5 => old ||| b
  | 6 => old ^^^ b
  | 7 => b
  | _ => if old == cmp % 2 ^ n then b else old

/-- The accumulator type of an AFMT element type (R186). -/
def afmtAcc : Nat → Option AccTy
  | 0 => some .f32
  | 1 => some .bf16
  | 2 => some .f16
  | 3 => some .f64
  | 6 => some .bf16x2
  | 7 => some .f16x2
  | _ => none

/-- Bytes of an AFMT element type (R186). -/
def afmtBytes (ty : Nat) : Nat :=
  match afmtAcc ty with
  | some t => t.bytes
  | none => if ty == 5 then 8 else 4

/-- The AFMT combinations of ACCP that R186 gives. -/
def accpLegal (afmt : Nat) (img : Bool) : Bool :=
  let ty := field afmt 0 4
  let op := field afmt 4 3
  match afmtAcc ty with
  | some _ => if img then op == 0 else decide (op ≤ 2)
  | none => !img && (ty == 4 || ty == 5) && decide (op ≤ 5)

/-- The AFMT values of ATOM that R186 gives. -/
def atomLegal (afmt : Nat) : Bool :=
  let k := field afmt 0 4
  decide (k ≤ 8) && field afmt 6 2 == 0 && (!bitAt afmt 5 || k == 2 || k == 3)

/-- MIN or MAX of two floating-point codes: −0 orders below +0, and a NaN gives the canonical NaN (R186). -/
def accpMinMax (f : Fmt) (wantMax : Bool) (x y : Nat) : Nat :=
  if (decodeVal f x).isNan || (decodeVal f y).isNan then f.canonNan else fpMinMax f wantMax x y

/-- An accumulate-put on a stored value, for integers and for MIN and MAX (R186). -/
def accpStored (afmt old x : Nat) : Nat :=
  let op := field afmt 4 3
  let n := 8 * afmtBytes (field afmt 0 4)
  match afmtAcc (field afmt 0 4) with
  | some t =>
    if t.isPair then
      accpMinMax t.fmt (op == 2) (old % 65536) (x % 65536) + 65536 * accpMinMax t.fmt (op == 2) (old / 65536) (x / 65536)
    else accpMinMax t.fmt (op == 2) old x
  | none =>
    match op with
    | 0 => atomResult 0 true n old x 0
    | k + 1 => atomResult (k + 2) true n old x 0

/-! ### Lines that an engine or a home slice takes (R68, R241, R249; DESIGN CHOICE, log entry 30) -/

/-- Whether the other modules leave a line free: no exclusive copy for a read, none at all for a write (R68). -/
def State.podFree (s : State) (line : Nat) (write : Bool) : Bool :=
  if write then s.presence line == 0 else Tab.get 0 s.podExcl line == 0

/-- The lines that [pa, pa + n) touches. -/
def linesIn (pa n : Nat) : List Nat := if n == 0 then [] else (List.range ((pa % 256 + n + 255) / 256)).map fun k => pa / 256 + k

/-- Recall from other modules the lines of a range that they hold (R68). -/
def State.recallIn (s : State) (pa n : Nat) (write : Bool) : State :=
  (linesIn pa n).foldl (fun s l => if s.podFree l write then s else s.recall l (!write) none) s

/-- Whether every line of a range is free of other modules (DESIGN CHOICE, log entry 30). -/
def State.freeIn (s : State) (pa n : Nat) (write : Bool) : Bool := (linesIn pa n).all fun l => s.podFree l write

/-- Whether a die may store to a line now: no other module holds it, and it holds the line in M or E, or serves it pinned (R68, R242,
R249). -/
def State.mayStore (s : State) (die line : Nat) : Bool := s.podFree line true && s.mayWrite die line

/-- Ask for what lets a die store to a line (R68, R240). -/
def State.seekStore (s : State) (die part line : Nat) : State :=
  if !s.podFree line true then s.recall line false none else s.seekWrite die line part

/-- Whether a die may store to every line of a range. -/
def State.storeReady (s : State) (die pa n : Nat) : Bool := (linesIn pa n).all (s.mayStore die)

/-- Ask for what lets a die store to a range. -/
def State.seekStores (s : State) (die part pa n : Nat) : State := (linesIn pa n).foldl (fun s l => s.seekStore die part l) s

/-- A die that may store to a line stores bytes at its slice: the line goes to M, and no L1 keeps it; a pinned line stays at its home
(R240, R242, R246, R249). -/
def State.takeFor (s : State) (die line : Nat) (mask : BitVec 256) : State :=
  if (s.home line).pinned then s
  else
    let s1 := s.dropL1 die line
    let d := s1.dieLine die line
    s1.setDieLine die line { d with st := .m, dirty := d.dirty ||| mask }

/-- An engine or home slice of a die that may store to a range stores its bytes (R235, R249). -/
def State.engineStore (s : State) (die pa : Nat) (bs : List Byte) : State :=
  let s1 := (linesIn pa bs.length).foldl (fun s l =>
    let lo := max pa (256 * l)
    let hi := min (pa + bs.length) (256 * l + 256)
    s.takeFor die l (byteMask (lo % 256) (hi - lo))) s
  s1.storeBytes pa bs

/-- The pieces of a range that one line holds: line, offset, length. -/
def linePieces (pa n : Nat) : List (Nat × Nat × Nat) :=
  (linesIn pa n).map fun l =>
    let lo := max pa (256 * l)
    (l, lo % 256, min (pa + n) (256 * l + 256) - lo)

/-! ### Work that waits for its line (R68, R242, R249) -/

/-- Work on a line is to be done (DESIGN CHOICE, log entry 30). -/
def State.addJob (s : State) (j : LineJob) : State := { s with jobs := s.jobs ++ [j] }

/-- A die's engine is to store bytes for a waiting party, line by line. -/
def State.storeFor (s : State) (die part pa : Nat) (bs : List Byte) (w : Waiter) : State :=
  (linePieces pa bs.length).foldl (fun s x =>
    let a := 256 * x.1 + x.2.1
    s.addJob ⟨die, part, x.1, .store a ((bs.drop (a - pa)).take x.2.2), .waiter w⟩) s

/-- A waiting party waits for some answers more. -/
def State.owe (s : State) (w : Waiter) (n : Nat) : State :=
  match w with
  | .entry die e => s.setEntry die e { s.entry die e with left := (s.entry die e).left + n }
  | .cmd core id => s.modCore core fun c => c.modCmd id fun x => { x with left := x.left + n }
  | .node h k => s.modNode h k fun x => { x with left := x.left + n }
  | .op _ => s

/-- The same, and the party waits for each of the stores. -/
def State.oweStores (s : State) (die part pa : Nat) (bs : List Byte) (w : Waiter) : State :=
  (s.owe w (linePieces pa bs.length).length).storeFor die part pa bs w

/-- Whether the home of an address cannot be reached by messages: its die is isolated, or lost (R135, R141). -/
def State.homeGone (s : State) (pa : Nat) : Bool := s.homeLost pa || s.homeFenced pa

/-! ### Operations at a target (R186 to R188) -/

/-- One scalar accumulate at the home slice of a pinned line, or why it is refused (R37, R242, R243, R286, R288). -/
def State.targetAcc (s : State) (t : AccTy) (pa : Nat) (f : AccEnt → AccEnt) : Except NetStatus State :=
  if s.accClash pa t then .error .misaligned
  else if (s.sumBad pa).isSome then .error .dataCheck
  else
    match s.accumulateAt pa t f with
    | some s1 => .ok s1
    | none => .error .accCapacity

/-- An element has taken a contribution (DESIGN CHOICE, log entry 35). -/
def State.counted (s : State) (pa n : Nat) : State :=
  { s with sums := Tab.modify 0 s.sums pa (· + 1), fresh := s.fresh.erase (pa, n) }

/-- An element's value is accumulated (R186). -/
def State.targetSum (s : State) (t : AccTy) (pa x : Nat) : Except NetStatus State :=
  (s.targetAcc t pa fun e => e.accumulate (decodeVal t.fmt x)).map fun s => s.counted pa t.bytes

/-- One element of an accumulate-put; MIN, MAX and AND of the first contribution to an element that a collective has cleared take it as it
is, since +0 stands for none there (R186, R194) (DESIGN CHOICE, log entry 35). -/
def State.targetElem (s : State) (afmt pa x : Nat) : Except NetStatus State :=
  match afmtAcc (field afmt 0 4), field afmt 4 3 with
  | some t, 0 =>
    if t.isPair then
      match s.targetSum t.scalar pa (x % 65536) with
      | .ok s1 => s1.targetSum t.scalar (pa + 2) (x / 65536)
      | .error e => .error e
    else s.targetSum t pa x
  | _, _ =>
    let n := afmtBytes (field afmt 0 4)
    match s.badSector pa n with
    | some _ => .error .dataCheck
    | none =>
      let old := if s.fresh.contains (pa, n) && 1 ≤ field afmt 4 3 && field afmt 4 3 ≤ 3 then x else s.numAt pa n
      .ok ((s.engineStore (homeDie pa) pa (leBytes n (accpStored afmt old x))).counted pa n)

/-- The image of one scalar element is added to its entry (R188) (DEDUCED, log entry 31). -/
def State.targetImage (s : State) (t : AccTy) (pa : Nat) (img : List Byte) : Except NetStatus State :=
  (s.targetAcc t pa fun e => e.addImage (AccEnt.ofImages t.scalar img)).map fun s => s.counted pa t.bytes

/-- Bytes of a scalar element's image (R188). -/
def imageBytes (t : AccTy) : Nat := if t == .f64 then 448 else 64

/-- The scalar elements that an element of an accumulator type stands for: offset and type (R186, R188). -/
def scalarsOf (t : AccTy) : List (Nat × AccTy) := if t.isPair then [(0, t.scalar), (2, t.scalar)] else [(0, t)]

/-- The elements of a line that a byte mask names, or none where it names part of one (R186). -/
def maskElems (mask : BitVec 256) (e : Nat) : Option (List Nat) :=
  let rs := maskRuns mask
  if rs.all fun r => r.1 % e == 0 && r.2 % e == 0 then some (rs.flatMap fun r => (List.range (r.2 / e)).map fun k => r.1 + e * k)
  else none

/-- Apply a list of elements in order, all or none. -/
def applyAll {α : Type} (f : State → α → Except NetStatus State) (s : State) : List α → Except NetStatus State
  | [] => .ok s
  | x :: xs =>
    match f s x with
    | .ok s1 => applyAll f s1 xs
    | .error e => .error e

/-- Pair images with target elements in ascending address order (R186). -/
def pairImages (data : List Byte) : List (Nat × AccTy) → List (Nat × AccTy × List Byte)
  | [] => []
  | (o, t) :: r => (o, t, byteSlice data 0 (imageBytes t)) :: pairImages (data.drop (imageBytes t)) r

/-- Whether a line belongs to a partition (R123, R187). -/
def State.lineOwned (s : State) (part line : Nat) : Bool :=
  decide (256 * line < dramBytes) && s.ownerOf (256 * line) == part + 1

/-- ACCP at its target (R186 to R188). -/
def State.targetAccp (s : State) (part line afmt : Nat) (img : Bool) (mask : BitVec 256) (data : List Byte) :
    Except NetStatus State :=
  if !s.lineOwned part line then .error .perm
  else if !accpLegal afmt img then .error .badop
  else if s.homeGone (256 * line) then .error .noTarget
  else
    let e := afmtBytes (field afmt 0 4)
    match maskElems mask e with
    | none => .error .misaligned
    | some os =>
      match img, afmtAcc (field afmt 0 4) with
      | true, some t =>
        let es := os.flatMap fun o => (scalarsOf t).map fun x => (256 * line + o + x.1, x.2)
        applyAll (fun s x => s.targetImage x.2.1 x.1 x.2.2) s (pairImages data es)
      | _, _ => applyAll (fun s o => s.targetElem afmt (256 * line + o) (leAt data o e)) s os

/-- PUT at its target (R181, R186). -/
def State.targetPut (s : State) (part line : Nat) (mask : BitVec 256) (data : List Byte) : Except NetStatus State :=
  if !s.lineOwned part line then .error .perm
  else if s.homeGone (256 * line) then .error .noTarget
  else
    .ok (State.storeLine { s.takeFor (homeDie (256 * line)) line mask with landed := Tab.modify 0 s.landed line (· ||| mask) }
      line mask data)

/-- GET at its target (R181, R186): the bytes (DEDUCED, log entry 73). -/
def State.targetGet (s : State) (part pa n : Nat) : Except NetStatus (State × List Byte) :=
  if !s.lineOwned part (lineOf pa) then .error .perm
  else if n == 0 || 256 < pa % 256 + n then .error .misaligned
  else if s.homeGone pa then .error .noTarget
  else
    match s.badSector pa n with
    | some _ => .error .dataCheck
    | none => .ok (s.touchIn pa n, s.bytesAt pa n)

/-- ATOM at its target (R84, R186): the old value. -/
def State.targetAtom (s : State) (part pa afmt opnd cmpv : Nat) : Except NetStatus (State × Nat) :=
  let n := if bitAt afmt 4 then 8 else 4
  if !s.lineOwned part (lineOf pa) then .error .perm
  else if !atomLegal afmt then .error .badop
  else if pa % n != 0 then .error .misaligned
  else if s.homeGone pa then .error .noTarget
  else
    match s.badSector pa n with
    | some _ => .error .dataCheck
    | none =>
      let old := s.numAt pa n
      let new := atomResult (field afmt 0 4) (bitAt afmt 5) (8 * n) old opnd cmpv
      .ok (s.engineStore (homeDie pa) pa (leBytes n new), old)

/-- A raise of a counter of a partition on a die, from a CADD (R176, R187). -/
def State.targetCadd (s : State) (part die c v : Nat) : Except NetStatus State :=
  if decide (80 ≤ die) || s.counterOwner die c != part + 1 then .error .noTarget
  else if s.isIsolated die then .error .noTarget
  else .ok (s.raise die c v)

/-- The image of an element of another module whose line is held here: no cache holds a line with entries, so it is that of the bytes
(R188, R242, R410) (DEDUCED, log entry 33). -/
def State.podImage (s : State) (m pa : Nat) (t : AccTy) : AccEnt :=
  AccEnt.ofValue t.scalar (decodeVal t.fmt (leNat ((List.range t.scalar.bytes).map fun k => s.podByte m (pa + k))))

/-- A failing sector that a refused operation met is reported (R37). -/
def State.noteBad (s : State) (pa n : Nat) : State :=
  match s.badSector pa n with
  | some k => s.reportSector k
  | none => s

/-! ### Sending non-coherent requests (R73, R186) -/

/-- Send the messages of a non-coherent request under one tag and remember who waits for the answer; on a port that is being moved
they wait (R63). -/
def State.sendReqs (s : State) (n ttag : Nat) (ms : List Msg) (who : Waiter) (dst : Option (Space × Nat) := none) (len : Nat := 0)
    (lane : Nat := 255) (va : Nat := 0) : State :=
  let r : NetReq := { port := n, ttag := ttag, mtag := s.nextId % 65536, who := who, dst := dst, len := len, lane := lane, va := va }
  let ms1 := ms.map fun m => { m with mtag := r.mtag }
  if (s.port n).moving then { s with nextId := s.nextId + 1, netReqs := s.netReqs ++ [{ r with held := ms1 }] }
  else ms1.foldl (fun s m => s.sendMsg n ttag m) { s with nextId := s.nextId + 1, netReqs := s.netReqs ++ [r] }

/-- The same for a request of one message. -/
def State.sendReq (s : State) (n ttag : Nat) (m : Msg) (who : Waiter) (dst : Option (Space × Nat) := none) (len : Nat := 0)
    (lane : Nat := 255) (va : Nat := 0) : State :=
  s.sendReqs n ttag [m] who dst len lane va

/-- A PUT of bytes within a line (R186). -/
def putMsg (pa : Nat) (bs : List Byte) : Msg :=
  let mask := byteMask (pa % 256) bs.length
  { mkMsg 7 1 (256 * (pa / 256)) with smask := maskSectors mask, mask := mask, data := lineImage (pa % 256) bs }

/-- A GET of bytes within a line (R186). -/
def getMsg (pa n : Nat) : Msg := mkMsg 7 2 pa (arg := n)

/-- An ACCP of elements within a line (R186). -/
def accpMsg (pa afmt : Nat) (bs : List Byte) : Msg :=
  let mask := byteMask (pa % 256) bs.length
  { mkMsg 7 4 (256 * (pa / 256)) (arg := afmt) with smask := maskSectors mask, mask := mask, data := lineImage (pa % 256) bs }

/-- SMASK of n image sectors: the element's own sector and those after it, round the line, so that no mask bit lies in an absent
sector (R54, R186; DEDUCED, log entry 31). -/
def imageSectors (pa n : Nat) : BitVec 4 :=
  (List.range (min 4 n)).foldl (fun m k => m ||| (1#4 <<< ((pa % 256 / 64 + k) % 4))) 0

/-- An ACCP of images of an element of n bytes, at most four sectors of them (R54, R186) (DEDUCED, log entry 31). -/
def imageMsg (pa n afmt : Nat) (img : List Byte) : Msg :=
  { mkMsg 7 4 (256 * (pa / 256)) (arg := afmt + 128) with
    smask := imageSectors pa (img.length / 64), mask := byteMask (pa % 256) n, data := img }

/-- The messages that carry the images of an element: those of F64 fill two (R54, R186; DEDUCED, log entry 31). -/
def imageMsgs (pa n afmt : Nat) (img : List Byte) : List Msg :=
  if img.length ≤ 256 then [imageMsg pa n afmt img]
  else [imageMsg pa n afmt (byteSlice img 0 256), imageMsg pa n afmt (img.drop 256)]

/-- An ATOM (R186). -/
def atomMsg (pa afmt opnd cmpv : Nat) : Msg :=
  { mkMsg 7 3 pa (arg := afmt) with smask := 1, data := leBytes 8 opnd ++ leBytes 8 cmpv }

/-- A CADD (R186). -/
def caddMsg (rctr v : Nat) (fence : Bool) : Msg := mkMsg 7 5 rctr (arg := v % 2 ^ 48 + if fence then 2 ^ 48 else 0)

/-- Requests outstanding for a waiting party. -/
def State.waitsFor (s : State) (w : Waiter) : Bool := s.netReqs.any fun r => r.who == w

end Sys2Proof.Machine
end

