-- ==== Sys2Proof/Machine/Pipe.lean ====
section
/-! DEFINITION. The memory pipe: when a lane's access may be made, what it does, and how an operation completes (R209, R235,
R240 to R242, R249, R252, R256, R262 to R266, R385, R400 to R411, R425). Log entry 32 gives the order in which the model makes
accesses that the manual leaves unordered. -/

namespace Sys2Proof.Machine

/-! ### Order of accesses (R259, R264, R266, R270 to R279) -/

/-- Whether an operation closes its region and waits for the engine commands before it (R224, R270). -/
def State.waitsEngines (s : State) (o : PipeOp) : Bool :=
  let c := s.core (s.wg o.wg).lcore
  o.closing.isSome && (c.copyQ ++ c.matQ).any fun x => x.ofFib o.wg o.slot o.fib && decide (x.id < o.id)

/-- Whether an access waits for an earlier one: of an earlier operation, or of a lower lane of its own; or is kept from its bytes by an
order of another agent (R261, R264, R266, R270, R284) (DESIGN CHOICE, log entry 32) (DESIGN CHOICE, log entry 83). -/
def State.accBlocked (s : State) (o : PipeOp) (i : Nat) (a : LaneAcc) : Bool :=
  ((s.before o).any fun x =>
    o.closing.isSome ||
    match x.kind with
    | .nrd _ => x.lanes &&& o.agents a != 0
    | _ => x.accs.any fun b =>
        !b.done && x.agents b &&& o.agents a != 0 && (mustFollow x b o a || s.standsBehind x b o a)) ||
  s.waitsEngines o || s.accShut o a ||
  (o.kind.writes && (o.accs.take i).any fun b => !b.done && b.meets o.kind.size a o.kind.size)

/-- Bytes of a range with the lane's own pending stores laid over them (R263). -/
def State.withOwn (s : State) (o : PipeOp) (a : LaneAcc) (bs : List Byte) : List Byte :=
  (s.before o).foldl (fun bs x =>
    match x.kind with
    | .store n =>
      x.accs.foldl (fun bs b =>
        if !b.done && b.lane == a.lane && b.space == a.space then
          (List.range bs.length).map fun k =>
            let p := a.pa + k
            if b.pa ≤ p && p < b.pa + n then BitVec.ofNat 8 (b.data / 256 ^ (p - b.pa)) else bs.getD k 0
        else bs) bs
    | _ => bs) bs

/-! ### Results and ends (R209, R211, R225, R367, R400) -/

/-- Mark an access made, with the value it read. -/
def State.markAcc (s : State) (id i val : Nat) : State :=
  { s with pipe := s.pipe.map fun o =>
      if o.id == id then { o with accs := o.accs.mapIdx fun j a => if j == i then { a with done := true, val := val } else a }
      else o }

/-- Write the destination of an operation: its lanes' values in V registers, or the lowest lane's in an S register (R211). -/
def State.putResult (s : State) (o : PipeOp) (val : Nat → Nat) : State :=
  match o.dst with
  | some (.v d) =>
    s.modFib o.wg o.slot o.fib fun fb =>
      (List.range o.regs).foldl (fun fb k =>
        (fb.forget (d.val + k) o.lanes).putV (d.val + k) o.lanes fun l => val l / 2 ^ (32 * k)) fb
  | some (.s d) =>
    s.modFib o.wg o.slot o.fib fun fb =>
      let fb1 := fb.forget (256 + d.val) 0xFFFF
      { fb1 with s := Tab.set 0 fb1.s d.val (BitVec.ofNat 64 (val (lowestLane o.lanes))) }
  | _ => s

/-- An operation has performed: it leaves, its flag counts down, and the region it closes ends (R209, R225). -/
def State.endOp (s : State) (o : PipeOp) : State :=
  ((s.dropOp o.id).flagDown o.wg o.slot o.fib o.flag).closedBy o.wg o.slot o.fib o.pc o.closing

/-- The value of a lane of an operation whose accesses have been made. -/
def PipeOp.valOf (o : PipeOp) (l : Nat) : Nat :=
  match o.kind, o.dst with
  | .accRead .., _ => (o.accs.headD { lane := 0, va := 0, space := .global, pa := 0 }).val / 2 ^ (32 * l)
  | _, some (.s _) => (o.accs.headD { lane := 0, va := 0, space := .global, pa := 0 }).val
  | _, _ => match o.accs.find? fun a => a.lane == l with
    | some a => a.val
    | none => 0

/-- Whether line data that an operation reads is still on its way to its die (R248). -/
def State.dataDue (s : State) (o : PipeOp) : Bool :=
  (match o.kind with | .load .. | .atomic _ | .accRead .. => true | _ => false) &&
  o.accs.any fun a => a.space == .global && (s.dieLine (s.wg o.wg).die (lineOf a.pa)).waiting

/-- Whether an operation whose accesses have all been made may end: it has not performed ahead of one that it is ordered after (R261). -/
def State.mayEnd (s : State) (o : PipeOp) : Bool := o.accs.all (·.done) && !s.dataDue o && !s.waitsFor (.op o.id) && !s.ahead o

/-- End an operation that may end. -/
def State.finishOp (s : State) (id : Nat) : State :=
  match s.pipe.find? fun o => o.id == id with
  | some o => if s.mayEnd o then (s.putResult o o.valOf).endOp o else s
  | none => s

/-- A failing sector stops an operation: a module event for one of package memory, and DATA_CHECK (R36 to R38, R322). -/
def State.dataCheck (s : State) (o : PipeOp) (a : LaneAcc) (sector : Nat) : State :=
  let t : Trap := ⟨.dataCheck, a.lane, a.va / 64 * 64, 0⟩
  match a.space with
  | .localStore => s.failOp o t
  | _ => (s.reportSector sector).failOp o t

/-! ### Where an access can be made (R240 to R242, R246, R249, R253) -/

/-- The L2 copy of the die that made an access. -/
def State.copyFor (s : State) (o : PipeOp) (a : LaneAcc) : DieLine := s.dieLine (s.wg o.wg).die (lineOf a.pa)

/-- Whether an access of global memory can be made: `ordered` at the order point of its die's request, where data that is still
on its way stops nothing (R248) (DEDUCED, log entry 90). -/
def State.globalReady (s : State) (o : PipeOp) (a : LaneAcc) (ordered : Bool) : Bool :=
  let line := lineOf a.pa
  let d := s.copyFor o a
  let here := ordered || !d.waiting
  s.podFree line o.kind.writes &&
  ((s.home line).pinned ||
   match o.kind with
   | .load .. | .accRead .. | .fetchAhead => d.st != .i && here
   | .store _ => d.st.writable
   | .atomic _ | .accClear _ => d.st.writable && here
   | .accum _ => false
   | .writeBack => here
   | .invalidate => here && d.st == .i && !s.requested (s.wg o.wg).die line
   | _ => true)

/-- The same for a line of another module (R253, R262) (DEDUCED, log entry 91). -/
def State.podReady (s : State) (o : PipeOp) (a : LaneAcc) (m : Nat) : Bool :=
  let l := s.podLine m (lineOf a.pa)
  match o.kind with
  | .load .. | .accRead .. => l.has (a.pa % 256) o.kind.size
  | .fetchAhead => l.st != .i
  | .store _ | .accClear _ => l.st.writable
  | .atomic _ => l.st.writable && l.has (a.pa % 256) o.kind.size
  | .writeBack | .invalidate => l.dirty == 0 && !s.podAsked m (lineOf a.pa)
  | _ => true

/-- Whether an access can be made. -/
def State.accReady (s : State) (o : PipeOp) (a : LaneAcc) (ordered : Bool) : Bool :=
  match a.space with
  | .global => s.globalReady o a ordered
  | .pod m => s.podReady o a m
  | _ => true

/-- Ask for what an access of global memory needs (R68, R240, R242, R245). -/
def State.seekGlobal (s : State) (o : PipeOp) (a : LaneAcc) : State :=
  let line := lineOf a.pa
  let wg := s.wg o.wg
  let d := s.copyFor o a
  if !s.podFree line o.kind.writes then s.recall line (!o.kind.writes) none
  else
    match o.kind with
    | .accum _ => s.request .pin (homeDie a.pa) line 0 wg.part
    | .store _ => s.request (if d.st == .i then .own else .upg) wg.die line 0 wg.part
    | .load .. | .accRead .. | .fetchAhead =>
      if d.st == .i then s.request .rds wg.die line (sectorsOf a.pa o.kind.size) wg.part else s
    | .atomic _ | .accClear _ =>
      if d.st == .i then s.request .rdx wg.die line (sectorsOf a.pa o.kind.size) wg.part
      else if d.st.writable then s
      else s.request .upg wg.die line 0 wg.part
    | .invalidate =>
      match d.st with
      | .m | .e => if d.waiting then s else s.request .putm wg.die line 0 wg.part
      | .o => if d.waiting then s else s.request .puto wg.die line 0 wg.part
      | .s => if d.waiting then s else s.invalidate wg.die line
      | .i => s
    | _ => s

/-- Ask for what an access of a pod line needs; a line that no port reaches is a fault at performing (R67, R72)
(DEDUCED, log entry 77). -/
def State.seekPod (s : State) (o : PipeOp) (a : LaneAcc) (m : Nat) : State :=
  let line := lineOf a.pa
  let part := (s.wg o.wg).part
  let l := s.podLine m line
  match s.podRoute part m line with
  | none => s.failOp o ⟨.dataCheck, a.lane, a.va / 64 * 64, 1⟩
  | some _ =>
    match o.kind with
    | .load .. | .accRead .. | .fetchAhead => s.podWant part m line 1 (sectorsOf a.pa o.kind.size)
    | .store _ | .accClear _ | .atomic _ =>
      if l.st == .s then s.podWant part m line 4 0xF
      else if l.st.writable then s.podWant part m line 1 (sectorsOf a.pa o.kind.size)
      else s.podWant part m line 2 (sectorsOf a.pa o.kind.size)
    | .writeBack | .invalidate => if s.podAsked m line then s else s.podWriteBack part m line
    | _ => s

/-- Ask for what an access needs. -/
def State.seek (s : State) (o : PipeOp) (a : LaneAcc) : State :=
  match a.space with
  | .global => s.seekGlobal o a
  | .pod m => s.seekPod o a m
  | _ => s

/-! ### Making an access -/

/-- The bytes that a load reads, its own pending stores among them (R252, R262, R263). -/
def State.loadBytes (s : State) (o : PipeOp) (a : LaneAcc) : List Byte :=
  let wg := s.wg o.wg
  s.withOwn o a (match a.space with
    | .device => leBytes 8 (s.deviceRead wg.part a.pa)
    | sp => s.bytesIn wg sp a.pa o.kind.size)

/-- The value that a load gives its destination: sign-extended to 32 bits in V and to 64 in S (R367, R402). -/
def loadValue (o : PipeOp) (size : Nat) (sx : Bool) (bs : List Byte) : Nat :=
  let x := leNat bs
  if sx then
    match o.dst with
    | some (.s _) => wrap 64 (sextInt (8 * size) x)
    | _ => wrap 32 (sextInt (8 * size) x)
  else x

/-- Whether a die's caches take the line of an access: a global line that is not pinned, a window's line on a member die whose slice has
a place for it, another module's line on its agent die (R231, R242, R252, R253) (DESIGN CHOICE, log entry 78). -/
def State.cached (s : State) (die : Nat) (a : LaneAcc) : Option Nat :=
  match a.space, cacheLine a.space a.pa with
  | .global, some l => if (s.home l).pinned then none else some l
  | .broadcast, some l =>
    match Tab.get none s.bwins (a.pa / 2 ^ 40) with
    | some b => if b.members.contains die && s.sliceRoom die l then some l else none
    | none => none
  | .pod m, some l => if s.agentDie m (lineOf a.pa) == some die then some l else none
  | _, _ => none

/-- A reading access leaves its sectors in the die's L2 and the core's L1 (R231, R235, R240, R253). -/
def State.cacheRead (s : State) (o : PipeOp) (a : LaneAcc) : State :=
  let wg := s.wg o.wg
  match s.cached wg.die a with
  | none => s
  | some l =>
    let sm := sectorsOf a.pa o.kind.size
    let d := s.dieLine wg.die l
    let s1 := match a.space with
      | .pod _ => s
      | sp => s.setDieLine wg.die l { d with fill := d.fill ||| sm, st := if sp == Space.broadcast then .s else d.st }
    s1.l1Read wg.lcore l sm

/-- A writing access of a fibre marks its bytes: a store in its core's L1, in M, and an atomic or a clear at the slice (R235, R240,
R249). -/
def State.cacheWrite (s : State) (o : PipeOp) (a : LaneAcc) (inL1 : Bool) : State :=
  let line := lineOf a.pa
  let wg := s.wg o.wg
  let mask := byteMask (a.pa % 256) o.kind.size
  if (s.home line).pinned then s
  else
    let s1 := if inL1 then s.l1Own wg.lcore line mask else s.dropL1 wg.die line
    let d := s1.dieLine wg.die line
    s1.setDieLine wg.die line { d with st := .m, dirty := if inL1 then d.dirty else d.dirty ||| mask }

/-- A store to another module's line goes through the L1 of a core of its agent die (R240, R253). -/
def State.podWriteL1 (s : State) (o : PipeOp) (a : LaneAcc) (m : Nat) : State :=
  let wg := s.wg o.wg
  let s1 := { s with l1 := s.l1.filter fun c => !(podL1 m (lineOf a.pa) c && c.1 / 2 ^ 40 != wg.lcore) }
  match s.cached wg.die a with
  | some l => s1.l1Own wg.lcore l (byteMask (a.pa % 256) o.kind.size)
  | none => s1

/-- Whether the accesses of an operation to package memory fill the sector of one among them together (R36). -/
def PipeOp.fills (o : PipeOp) (a : LaneAcc) : Bool :=
  (List.range 64).all fun k =>
    o.accs.any fun b => b.space == a.space && decide (b.pa ≤ a.pa / 64 * 64 + k) && decide (a.pa / 64 * 64 + k < b.pa + o.kind.size)

/-- Whether the other accesses of an operation to the sector of one have been made. -/
def PipeOp.lastOf (o : PipeOp) (a : LaneAcc) : Bool :=
  o.accs.all fun b => b.done || b.lane == a.lane || b.space != a.space || b.pa / 64 != a.pa / 64

/-- Write the bytes of an access in its space. -/
def State.writeAcc (s : State) (o : PipeOp) (a : LaneAcc) (inL1 : Bool) (bs : List Byte) : State :=
  let wg := s.wg o.wg
  match a.space with
  | .localStore =>
    let w := wg.setLocal a.pa bs
    s.setWg o.wg (if o.fills a && o.lastOf a then { w with localBad := w.localBad.erase (a.pa / 64) } else w)
  | .global =>
    let s1 := s.cacheWrite o a inL1
    if !s.failing.isEmpty && o.fills a then s1.storeShare a.pa bs (o.lastOf a) else s1.storeBytes a.pa bs
  | .pod m => (s.podWriteL1 o a m).podStore m (lineOf a.pa) (a.pa % 256) bs
  | .device => if devicePage a.pa < 80 then s.windowStore wg.part a.pa (leNat bs) else s
  | _ => s

/-- The failing sector that an access meets in package memory, or the part of the local store (R36, R38). -/
def State.accBad (s : State) (o : PipeOp) (a : LaneAcc) : Option Nat :=
  match a.space with
  | .localStore => (s.wg o.wg).localFails a.pa o.kind.size
  | .global => s.badSector a.pa o.kind.size
  | .broadcast => s.badSector (s.broadcastPa (s.wg o.wg).die a.pa) o.kind.size
  | _ => none

/-- Entries that an access of global memory meets are touched (R243). -/
def State.touchAccess (s : State) (o : PipeOp) (a : LaneAcc) : State :=
  match a.space with
  | .global => s.touchIn a.pa o.kind.size
  | _ => s

/-- A load's access (R402). -/
def State.makeLoad (s : State) (o : PipeOp) (i : Nat) (a : LaneAcc) (size : Nat) (sx : Bool) : State :=
  match s.accBad o a with
  | some k => s.dataCheck o a k
  | none =>
    let s1 := (s.touchAccess o a).cacheRead o a
    s1.markAcc o.id i (loadValue o size sx (s1.loadBytes o a))

/-- The first access of an operation that meets a failing sector: of any of its lanes while none has been made, so that one that faults
performs in no lane (R227, R290). -/
def State.firstBad (s : State) (o : PipeOp) (a : LaneAcc) : Option (LaneAcc × Nat) :=
  (if o.accs.any (·.done) then [a] else o.accs).findSome? fun b => (s.accBad o b).map fun k => (b, k)

/-- An atomic's access: the old value, and the new one stored (R406, R407). -/
def State.makeAtomic (s : State) (o : PipeOp) (i : Nat) (a : LaneAcc) (m : ModAtom) : State :=
  match s.firstBad o a with
  | some (b, k) => s.dataCheck o b k
  | none =>
    let n := if m.d then 8 else 4
    let s1 := s.touchAccess o a
    let old := leNat (s1.loadBytes o a)
    let new := if m.op == .cas then atomResult 8 m.s (8 * n) old a.data2 a.data else atomResult m.op.num m.s (8 * n) old a.data 0
    (s1.writeAcc o a false (leBytes n new)).markAcc o.id i old

/-- FACCRD's access: the image as a number (R410) (DEDUCED, log entry 33). -/
def State.makeAccRead (s : State) (o : PipeOp) (i : Nat) (a : LaneAcc) (t : AccTy) (ent : Nat) : State :=
  match a.space with
  | .global =>
    let pa := a.pa
    if s.accClash pa t.scalar then s.failOp o ⟨.misaligned, a.lane, a.va, t.bytes⟩
    else
      match s.imageBad pa t with
      | some k => s.dataCheck o a k
      | none => (s.touchIn pa t.scalar.bytes).markAcc o.id i (leNat ((s.imageOf pa t).image (if t == .f64 then ent else 0)))
  | .pod m => s.markAcc o.id i (leNat ((s.podImage m a.pa t).image (if t == .f64 then ent else 0)))
  | .broadcast => s.markAcc o.id i (leNat ((s.imageOf (s.broadcastPa (s.wg o.wg).die a.pa) t).image (if t == .f64 then ent else 0)))
  | _ => s.markAcc o.id i 0

/-- Whether an accumulate or a clear meets an entry of another type or extent (R288, R411) (DEDUCED, log entry 93). -/
def State.clashes (s : State) (t : AccTy) (a : LaneAcc) : Bool := !a.done && a.space == .global && s.accClash a.pa t

/-- Whether the tables can provide every entry that the accesses left need (R243) (DEDUCED, log entry 93). -/
def State.roomFor (s : State) (t : AccTy) (xs : List LaneAcc) : Bool :=
  (xs.foldl (fun r a =>
    match r with
    | none => none
    | some s => if a.done || a.space != .global then some s else s.accumulateAt a.pa t id) (some s)).isSome

/-- The first access left whose entry the tables cannot provide (R243, R326) (DEDUCED, log entry 93). -/
def State.noRoom (s : State) (t : AccTy) (xs : List LaneAcc) : Option LaneAcc :=
  (List.range xs.length).findSome? fun k => if s.roomFor t (xs.take (k + 1)) then none else xs[k]?

/-- The first access left that would read a spilled entry's images from a failing sector (R37, R243). -/
def State.sumsBad (s : State) (xs : List LaneAcc) : Option (LaneAcc × Nat) :=
  xs.findSome? fun a => if a.done || a.space != .global then none else (s.sumBad a.pa).map fun k => (a, k)

/-- A FACC's access: refused as a whole before its first accumulate (R37, R243, R288, R408, R409). -/
def State.makeAccum (s : State) (o : PipeOp) (i : Nat) (a : LaneAcc) (t : AccTy) : State :=
  match o.accs.find? (s.clashes t), s.sumsBad o.accs, s.noRoom t o.accs with
  | some b, _, _ => s.failOp o ⟨.misaligned, b.lane, b.va, t.bytes⟩
  | none, some (b, k), _ => s.dataCheck o b k
  | none, none, some b => s.failOp o ⟨.accCapacity, b.lane, b.va, 0⟩
  | none, none, none =>
      match a.space with
      | .pod m =>
        match s.podRoute (s.wg o.wg).part m (lineOf a.pa) with
        | none => s.failOp o ⟨.dataCheck, a.lane, a.va / 64 * 64, 1⟩
        | some (n, tag) =>
          (s.markAcc o.id i 0).sendReq n tag (accpMsg a.pa t.num (leBytes t.scalar.bytes a.data)) (.op o.id) none 0 a.lane a.va
      | _ =>
        match s.accumulateAt a.pa t fun e => e.accumulate (decodeVal t.fmt a.data) with
        | some s1 => s1.markAcc o.id i 0
        | none => s

/-- A FACCCLR's access: of a pod element, a store of +0 (R411; DEDUCED, log entry 33). -/
def State.makeClear (s : State) (o : PipeOp) (i : Nat) (a : LaneAcc) (t : AccTy) : State :=
  match o.accs.find? (s.clashes t) with
  | some b => s.failOp o ⟨.misaligned, b.lane, b.va, t.bytes⟩
  | none =>
    match a.space with
    | .global => ((s.cacheWrite o a false).clearElem a.pa t).markAcc o.id i 0
    | _ => (s.writeAcc o a false (List.replicate t.scalar.bytes 0)).markAcc o.id i 0

/-- CWB's access: M becomes E, and O becomes S (R405). -/
def State.makeWriteBack (s : State) (o : PipeOp) (i : Nat) (a : LaneAcc) : State :=
  let line := lineOf a.pa
  let die := (s.wg o.wg).die
  let d := s.dieLine die line
  let s1 :=
    if a.space != .global || (s.home line).pinned then s
    else
      match d.st with
      | .m => (s.shareL1 die line).setDieLine die line { d with st := .e, dirty := 0 }
      | .o => ((s.shareL1 die line).setDieLine die line { d with st := .s, dirty := 0 }).setOwner line .shared
      | _ => s
  s1.markAcc o.id i 0

/-- CINV's access once the line has left the die; of a pod line, the module's copy is dropped (R405). -/
def State.makeInvalidate (s : State) (o : PipeOp) (i : Nat) (a : LaneAcc) : State :=
  match a.space with
  | .pod m => (s.setPodLine m (lineOf a.pa) {}).markAcc o.id i 0
  | _ => s.markAcc o.id i 0

/-- Make one access of an operation. -/
def State.makeAcc (s : State) (o : PipeOp) (i : Nat) (a : LaneAcc) : State :=
  match o.kind with
  | .load n sx => s.makeLoad o i a n sx
  | .store n => (s.writeAcc o a true (leBytes n a.data)).markAcc o.id i 0
  | .atomic m => s.makeAtomic o i a m
  | .accum t => s.makeAccum o i a t
  | .accClear t => s.makeClear o i a t
  | .accRead t ent => s.makeAccRead o i a t ent
  | .writeBack => s.makeWriteBack o i a
  | .invalidate => s.makeInvalidate o i a
  | .fetchAhead => (s.cacheRead o a).markAcc o.id i 0
  | _ => s

/-! ### Performing -/

/-- Whether a die's own copy answers an access of global memory, so that it sends no request (R135, R240) (DEDUCED, log entry 57). -/
def State.ownHit (s : State) (o : PipeOp) (a : LaneAcc) : Bool :=
  let d := s.copyFor o a
  let has := sectorsOf a.pa o.kind.size &&& ~~~d.fill == 0 && !d.waiting
  !(s.home (lineOf a.pa)).pinned &&
  match o.kind with
  | .load .. | .accRead .. => d.st != .i && has
  | .store _ => d.st.writable
  | .atomic _ | .accClear _ => d.st.writable && has
  | _ => false

/-- Whether an access sends a request into or out of an isolated region, or meets a lost die (R135, R141): write-backs, invalidations
and fetches ahead raise nothing (DEDUCED, log entry 57). -/
def State.accLost (s : State) (o : PipeOp) (a : LaneAcc) : Bool :=
  let die := (s.wg o.wg).die
  match o.kind, a.space with
  | .writeBack, _ | .invalidate, _ | .fetchAhead, _ => false
  | _, .global => s.homeFenced a.pa || (s.cutOff die a.pa && !s.ownHit o a)
  | _, .broadcast => s.cutOff die (s.broadcastPa die a.pa)
  | _, .device =>
    let d := devicePage a.pa
    decide (d < 80) && d != die && (s.isIsolated d || s.isIsolated die)
  | _, _ => false

/-- Make an access of an operation if nothing stands against it; else, unless at an order point, ask for what it needs. -/
def State.tryAcc (s : State) (id i : Nat) (ordered : Bool) : State :=
  match s.pipe.find? fun o => o.id == id with
  | none => s
  | some o =>
    match o.accs[i]? with
    | none => s
    | some a =>
      if a.done || s.accBlocked o i a then s
      else if s.accLost o a then s.failOp o ⟨.dataCheck, a.lane, a.va / 64 * 64, 1⟩
      else if s.accReady o a ordered then s.makeAcc o i a
      else if ordered then s
      else s.seek o a

/-- The accesses of an operation in its order (DESIGN CHOICE, log entry 32). -/
def State.tryOp (s : State) (o : PipeOp) (ordered : Bool) (p : LaneAcc → Bool) : State :=
  ((List.range o.accs.length).foldl (fun s i =>
    match o.accs[i]? with
    | some a => if p a then s.tryAcc o.id i ordered else s
    | none => s) s).finishOp o.id

/-- An event that performs lanes of an operation of some kinds. -/
def performEvent (kinds : PipeKind → Bool) (p : PipeOp → LaneAcc → Bool) (op : Nat) (s : State) : Answer :=
  .next (
    match s.pipe.find? fun o => o.id == op with
    | none => s
    | some o => if kinds o.kind then s.tryOp o false (p o) else s)

/-- Whether an access belongs to lanes of a mask. -/
def ofLanes (lanes : Lanes) (o : PipeOp) (a : LaneAcc) : Bool := o.agents a &&& lanes != 0

/-- Operations that LOAD_PERFORM performs. -/
def PipeKind.reads : PipeKind → Bool
  | .load .. | .accRead .. | .writeBack | .invalidate | .fetchAhead => true
  | _ => false

/-- A network instruction has performed with a result. -/
def State.netResult (s : State) (o : PipeOp) (x : Nat) : State := (s.putResult o fun _ => x).endOp o

/-- Whether a counter read waits for an earlier access of its lanes: another counter read, or a load that acquires (R266, R284). -/
def State.nrdBlocked (s : State) (o : PipeOp) : Bool :=
  (s.before o).any fun x =>
    x.lanes &&& o.lanes != 0 && (match x.kind with | .nrd _ => true | _ => false) ||
    x.accs.any fun b => !b.done && x.agents b &&& o.lanes != 0 && orderedAt x o (x.agents b &&& o.lanes) != 0

/-- NWAIT and NRD read the counter word (R284, R446, R447) (DESIGN CHOICE, log entry 72). -/
def State.runNrd (s : State) (o : PipeOp) (c : Nat) : State :=
  let wg := s.wg o.wg
  if s.nrdBlocked o then s
  else s.netResult o (if s.counterOwner wg.die c == wg.part + 1 then (s.counter wg.die c).word else 0)

/-- LOAD_PERFORM (R400, R402, R405, R410, R446, R447) (DESIGN CHOICE, log entry 72). -/
def execLoadPerform (op : Nat) (lanes : Lanes) (s : State) : Answer :=
  match s.pipe.find? fun o => o.id == op with
  | some o =>
    match o.kind with
    | .nrd c => .next (s.runNrd o c)
    | _ => performEvent PipeKind.reads (ofLanes lanes) op s
  | none => .next s

/-- A store into a trigger window (R177). -/
def LaneAcc.atWindow (a : LaneAcc) : Bool := a.space == .device && decide (devicePage a.pa < 80)

/-- Stores. -/
def PipeKind.isStore : PipeKind → Bool
  | .store _ => true
  | _ => false

/-- STORE_PERFORM (R249, R403). -/
def execStorePerform (op : Nat) (lanes : Lanes) (s : State) : Answer :=
  performEvent PipeKind.isStore (fun o a => ofLanes lanes o a && !a.atWindow) op s

/-- ATOMIC_PERFORM (R407). -/
def execAtomicPerform (op : Nat) (lanes : Lanes) (s : State) : Answer :=
  performEvent (fun k => match k with | .atomic _ => true | _ => false) (ofLanes lanes) op s

/-- Whether an access is one of the halves of a pair that a mask of two bits names, or of no pair (R287). -/
def ofHalves (halves : BitVec 2) (o : PipeOp) (a : LaneAcc) : Bool :=
  match o.kind with
  | .accum t | .accClear t => !t.isPair || halves.getLsbD (a.va / 2 % 2)
  | _ => true

/-- ACCUMULATE_PERFORM: each half of a pair is an accumulate of its own (R287, R408, R411). -/
def execAccumulatePerform (op : Nat) (part : AccPart) (s : State) : Answer :=
  performEvent (fun k => match k with | .accum _ | .accClear _ => true | _ => false)
    (fun o a => ofLanes part.lanes o a && ofHalves part.halves o a) op s

/-- TRIGGER_WINDOW_ADD (R177). -/
def execTriggerWindowAdd (op : Nat) (s : State) : Answer :=
  performEvent PipeKind.isStore (fun _ a => a.atWindow && !windowSets a.pa) op s

/-- TRIGGER_WINDOW_SET (R177). -/
def execTriggerWindowSet (op : Nat) (s : State) : Answer :=
  performEvent PipeKind.isStore (fun _ a => a.atWindow && windowSets a.pa) op s

/-- DIVIDE_COMPLETE (R306, R385). -/
def execDivideComplete (op : Nat) (s : State) : Answer :=
  .next (
    match s.pipe.find? fun o => o.id == op with
    | none => s
    | some o =>
      match o.kind with
      | .divide fl => ((s.putResult o o.valOf).modFib o.wg o.slot o.fib (·.orStatus fl)).endOp o
      | _ => s)

/-- The bytes of an STB reach every member's replica (R251, R252). -/
def State.putSectors (s : State) (a : LaneAcc) (n : Nat) : State :=
  match Tab.get none s.bwins (a.pa / 2 ^ 40) with
  | none => s
  | some b => b.members.foldl (fun s d => s.storeBytes (b.replica d (a.pa % 2 ^ 40)) (leBytes n a.data)) s

/-- STB_PERFORM (R252, R425): at the close of the second frame after the one it was sent in. -/
def execStbPerform (op : Nat) (s : State) : Answer :=
  .next (
    match s.pipe.find? fun o => o.id == op with
    | none => s
    | some o =>
      match o.kind with
      | .stb n f => if f + 3 ≤ s.frame then (o.accs.foldl (fun s a => s.putSectors a n) s).endOp o else s
      | _ => s)

/-- The partition whose range holds an ASID (R122). -/
def State.asidPart (s : State) (asid : Nat) : Option Nat :=
  (s.parts.find? fun x => decide (x.2.asidBase ≤ asid) && decide (asid < x.2.asidBase + x.2.asidCount)).map (·.1)

/-- PAGE_WALK (R37, R256, R257): a table sector that fails verification is reported; `page` is the address without its low 16 bits. -/
def execPageWalk (die asid page : Nat) (s : State) : Answer :=
  .next (
    if !s.walks.contains (die, asid, page) then s
    else
      let s1 := { s with walks := s.walks.erase (die, asid, page) }
      let r := match s.asidPart asid with
        | some p => walk s p asid (page * 65536)
        | none => .fail 0 none
      match r with
      | .leaf bits l => s1.fillTlb ⟨die, asid, page * 65536 / 2 ^ bits, bits, l⟩
      | .fail level bad =>
        { s1.reportBad bad with walkFails := s1.walkFails ++ [⟨die, asid, page, level, bad.isSome⟩] })

/-! ### Order points and line data (R246 to R250) -/

/-- The operations of a die that stood before a moment make their accesses of a line, at its order point (R246, R249). -/
def State.makeAt (s : State) (line : Nat) (p : PipeOp → Bool) : State :=
  s.pipe.foldl (fun t o => if p o then t.tryOp o true (fun a => a.space == .global && lineOf a.pa == line) else t) s

/-- A request of a kind reaches its order point on a lane: the dies and the home act, and the requester makes its accesses
(R246). -/
def orderEvent (kind : OrderKind) (lane : Nat) (s : State) : Answer :=
  .next (
    match s.nextOrdered lane with
    | some r =>
      if r.kind == kind then
        let s1 := State.orderEffect { s with orderQ := dropFirst r s.orderQ } r
        s1.makeAt r.line fun o => (s1.home r.line).pinned || (s.wg o.wg).die == r.die
      else s
    | none => s)

/-- RDS (R246). -/
def execRds (lane : Nat) (s : State) : Answer := orderEvent .rds lane s
/-- RDX (R246). -/
def execRdx (lane : Nat) (s : State) : Answer := orderEvent .rdx lane s
/-- OWN (R246). -/
def execOwn (lane : Nat) (s : State) : Answer := orderEvent .own lane s
/-- UPG (R246, R250). -/
def execUpg (lane : Nat) (s : State) : Answer := orderEvent .upg lane s
/-- PUTM (R246, R250). -/
def execPutm (lane : Nat) (s : State) : Answer := orderEvent .putm lane s
/-- PUTO (R246, R250). -/
def execPuto (lane : Nat) (s : State) : Answer := orderEvent .puto lane s
/-- PIN (R242, R246). -/
def execPin (lane : Nat) (s : State) : Answer := orderEvent .pin lane s

/-- End the operations of a die that only waited for a line's data. -/
def State.finishLine (s : State) (die line : Nat) : State :=
  s.pipe.foldl (fun t o =>
    if (s.wg o.wg).die == die && o.accs.any (fun a => a.space == .global && lineOf a.pa == line) then t.finishOp o.id else t) s

/-- FORWARDED_DATA (R136, R246, R248): line data moves a die on, or arrives. -/
def execForwardedData (die line : Nat) (s : State) : Answer :=
  .next (
    match s.mesh.find? fun m => m.die == die && m.line == line with
    | some m => if !m.ahead.isEmpty then (s.hop m).getD s else if s.meshReady m then (s.arrive m).finishLine die line else s
    | none => s)

/-! ### Answers of other modules (R67, R70) -/

/-- The operations that wait for a pod line make their accesses. -/
def State.makePod (s : State) (m line : Nat) : State :=
  s.pipe.foldl (fun t o => t.tryOp o true (fun a => a.space == .pod m && lineOf a.pa == line)) s

/-- The data of a coherent request fail: its home has answered NERR, or their check values do not hold; the accesses that waited
for the line fault (R35, R37; DEDUCED, log entry 29). -/
def State.podRefused (s : State) (r : PodReq) : State :=
  let s1 := { s with podReqs := s.podReqs.erase r }
  s.pipe.foldl (fun t o =>
    match o.accs.find? fun a => !a.done && a.space == .pod r.home && lineOf a.pa == r.line with
    | some a => t.failOp o ⟨.dataCheck, a.lane, a.va / 64 * 64, 0⟩
    | none => t) s1

/-- A grant or completion of a coherent request (R67). -/
def grantEvent (opc : Nat) (s : State) : Answer :=
  .next (
    match s.takeMsg 3 opc with
    | none => s
    | some (n, t, m, s1) =>
      match s1.podReqs.find? fun r => r.mtag == m.mtag && r.line == m.addr / 256 && s1.msgPart n t == some r.part with
      | none => s1
      | some r =>
        let s2 := { s1 with podReqs := s1.podReqs.map fun x => if x == r then { x with granted := some opc } else x }
        (s2.podSettle m.mtag).makePod r.home r.line)

/-- CRSP_CMPS (R67). -/
def execCrspCmps (s : State) : Answer := grantEvent 1 s
/-- CRSP_CMPE (R67). -/
def execCrspCmpe (s : State) : Answer := grantEvent 2 s
/-- CRSP_CMP (R67). -/
def execCrspCmp (s : State) : Answer := grantEvent 3 s

/-- CDAT_DATA (R67): the data of a request of this module, or data that a held header announces, or data whose header is yet to
come (DESIGN CHOICE, log entry 28). -/
def execCdatData (s : State) : Answer :=
  .next (
    match s.takeMsg 4 1 with
    | none => s
    | some (n, t, m, s1) =>
      match s1.podReqs.find? fun r =>
        r.mtag == m.mtag && r.line == m.addr / 256 && r.home == m.srcmod && s1.msgPart n t == some r.part with
      | some r =>
        if !m.intact then (s1.linkCheck m.addr).podRefused r
        else
        let s2 := { s1 with podReqs := s1.podReqs.map fun x => if x == r then { x with data := true } else x }
        ((s2.setPodLine r.home r.line ((s2.podLine r.home r.line).merge m.smask m.data)).podSettle m.mtag).makePod r.home r.line
      | none =>
        match s1.heldWith m fun h => h.chan == 2 || h.chan == 6 with
        | some h => { s1 with podHeld := s1.podHeld.erase h ++ [(n, t, m)], inbox := h :: s1.inbox }
        | none => s1.holdMsg n t m)

end Sys2Proof.Machine
end

