-- ==== Sys2Proof/Machine/Engines.lean ====
section
/-! DEFINITION. The copy and matrix engines at work (R230, R280, R336, R420 to R424, R434 to R440): a command starts at the head
of its queue, where its pages are translated and its tiles captured, and performs. Also host copies (R86, R87) and error words
(R172), which the scheduler and the fabric engines share. -/

namespace Sys2Proof.Machine

/-! ### Error words (R172, R195) -/

/-- Why an error word cannot be written (R100) (DEDUCED, log entry 67). -/
def errWordCause (s : State) (part asid va : Nat) : Except Nat Nat :=
  if 2 ^ 56 ≤ va || va % 8 != 0 then .error 1
  else
    match walk s part asid va with
    | .fail _ _ => .error 1
    | .leaf bits l =>
      let pa := l.base + va % 2 ^ bits
      if l.space != .global || !l.w || !s.lineOwned part (lineOf pa) then .error 2
      else
        match s.badSector pa 8 with
        | some _ => .error 3
        | none => .ok pa

/-- Write an error word with a compare-and-swap from zero at its home, which takes its line first, or tell the event function that it
cannot be written (R68, R172, R249) (DEDUCED, log entry 67). -/
def State.errWord (s : State) (part asid va dword : Nat) : State :=
  match errWordCause s part asid va with
  | .ok pa =>
    if !s.storeReady (homeDie pa) pa 8 then
      { s.seekStores (homeDie pa) part pa 8 with errWords := s.errWords ++ [(part, asid, va, dword)] }
    else if s.numAt pa 8 == 0 then s.engineStore (homeDie pa) pa (leBytes 8 dword)
    else s
  | .error k => s.partEvent part 0x0007 (leBytes 4 0 ++ leBytes 8 va ++ leBytes 8 dword ++ leBytes 1 k)

/-- The first error word that waited for its line and may be written now, written; else a line is asked for again (R68)
(DEDUCED, log entry 67). -/
def State.errStage (s : State) : Option State :=
  match s.errWords.find? fun x =>
      match errWordCause s x.1 x.2.1 x.2.2.1 with
      | .ok pa => s.storeReady (homeDie pa) pa 8
      | .error _ => true with
  | some x => some (State.errWord { s with errWords := s.errWords.erase x } x.1 x.2.1 x.2.2.1 x.2.2.2)
  | none =>
    (s.errWords.filterMap fun x =>
      match errWordCause s x.1 x.2.1 x.2.2.1 with
      | .ok pa => some (s.seekStores (homeDie pa) x.1 pa 8)
      | .error _ => none).find? fun t => t != s

/-- The error word of a launch: workgroup index, fault code, status (R172) (DEDUCED, log entry 67). -/
def launchWord (index fcode status : Nat) : Nat := index * 2 ^ 32 + fcode * 2 ^ 8 + status

/-! ### Host copies (R86, R87) -/

/-- A queue pair of a function; those of a destroyed partition are in error (R108). -/
def State.qp (s : State) (fn qp : Nat) : Qp :=
  let x : Qp := Tab.get {} (s.func fn).qps qp
  if (s.func fn).qpsDown then { x with error := true } else x

/-- Change a queue pair. -/
def State.modQp (s : State) (fn qp : Nat) (f : Qp → Qp) : State :=
  s.setFunc fn { s.func fn with qps := Tab.modify {} (s.func fn).qps qp f }

/-- The packets that carry a message's bytes, 4,096 to each (R81) (DEDUCED, log entry 99). -/
def mtuPieces (bs : List Byte) : List (Nat × List Byte) :=
  (List.range (max 1 ((bs.length + 4095) / 4096))).map fun k => (4096 * k, (bs.drop (4096 * k)).take 4096)

/-- Send a transfer's request: a read is one packet, a write as many as its bytes fill (R81). -/
def State.sendHostMsg (s : State) (m : EthMsg) : State :=
  match m with
  | .write fn qp tag key addr bs => (mtuPieces bs).foldl (fun s p => s.send (.write fn qp tag key (addr + p.1) p.2)) s
  | m => s.send m

/-- Whether a transfer is a read of a host's memory. -/
def HostOp.reads (o : HostOp) : Bool := o.dst.isSome

/-- The transfers of a queue pair in their order, with those marked as sent that may leave: no more than 16 reads are outstanding,
and nothing passes a read that waits (R81, R87). -/
def sendable (fn qp : Nat) : Nat → List HostOp → List HostOp × List EthMsg
  | _, [] => ([], [])
  | n, o :: r =>
    if o.func != fn || o.qp != qp then
      let x := sendable fn qp n r
      (o :: x.1, x.2)
    else if o.sent then
      let x := sendable fn qp (if o.reads then n + 1 else n) r
      (o :: x.1, x.2)
    else if o.reads && 16 ≤ n then (o :: r, [])
    else
      let x := sendable fn qp (if o.reads then n + 1 else n) r
      ({ o with sent := true } :: x.1, o.msg :: x.2)

/-- Requests of a queue pair leave as far as they may (R81, R87). -/
def State.pumpQp (s : State) (fn qp : Nat) : State :=
  if (s.qp fn qp).error then s
  else
    let x := sendable fn qp 0 s.hostOps
    x.2.foldl State.sendHostMsg { s with hostOps := x.1 }

/-- An outstanding transfer is over; the next one of its queue pair may leave (R81). -/
def State.endHostOp (s : State) (o : HostOp) : State :=
  State.pumpQp { s with hostOps := s.hostOps.erase o } o.func o.qp

/-- The host target entries that a waiting party read when it was issued (R108). -/
def State.hostsOf (s : State) (w : Waiter) : List HostRead :=
  match w with
  | .cmd core id =>
    match ((s.core core).copyQ ++ (s.core core).matQ).find? fun c => c.id == id with
    | some c => c.hosts
    | none => []
  | .node h n =>
    match s.graph h with
    | some g => (match g.run with | some r => (r.node n).hosts | none => [])
    | none => []
  | _ => []

/-- A device transfer to or from a host goes out on its target's queue pair; a pair in error answers at once (R87). -/
def State.hostSend (s : State) (part va n : Nat) (who : Waiter) (dst : Option (Space × Nat)) (bs : List Byte) : State × Bool :=
  match s.hostPlace (s.hostsOf who) part va n with
  | .error _ => (s, false)
  | .ok (fn, t, off) =>
    let msg : EthMsg := match dst with
      | some _ => .read fn t.qp s.nextId t.key (t.base + off) n
      | none => .write fn t.qp s.nextId t.key (t.base + off) bs
    let op : HostOp :=
      { func := fn, qp := t.qp, tag := s.nextId, who := who, index := field va 40 8, offset := off, dst := dst, len := n, msg := msg }
    if (s.qp fn t.qp).error then (s, false)
    else (State.pumpQp { s with nextId := s.nextId + 1, hostOps := s.hostOps ++ [op] } fn t.qp, true)

/-- A host copy of a partition is refused: a partition event (R87, R100). -/
def State.hostNakEvent (s : State) (part index offset cause : Nat) : State :=
  s.partEvent part 0x0002 (leBytes 4 index ++ leBytes 8 offset ++ leBytes 1 cause)

/-- A transfer of a waiting party is refused by its host: it counts as answered, and the party's status is HOST_NAK (R87). -/
def State.nakWaiter (s : State) (w : Waiter) : State :=
  match w with
  | .cmd core id => s.modCore core fun c => c.modCmd id fun x => { x with left := x.left - 1, nak := true }
  | .node h n => s.modNode h n fun x => { x with left := x.left - 1, status := firstStatus x.status 1 }
  | _ => s

/-- The same, with the partition event; a queue pair in error is cause 2 (R100). -/
def State.refuseHost (s : State) (part va cause : Nat) (w : Waiter) : State :=
  (s.hostNakEvent part (field va 40 8) (field va 0 40) cause).nakWaiter w

/-! ### What a command touches -/

/-- A range of memory outside the local store: the lane that names it, whether it is written, address and length. -/
structure Range where
  lane : Nat
  write : Bool
  va : Nat
  n : Nat
  deriving DecidableEq, Repr

/-- The ranges of a command outside the local store (R421 to R423, R437 to R439). -/
def CmdKind.ranges (wg : Workgroup) (k : CmdKind) : List Range :=
  match k with
  | .acp e ld ls ps =>
    ps.flatMap fun p => (if ld then [] else [⟨p.1, true, p.2.2, e⟩]) ++ (if ls then [] else [⟨p.1, false, p.2.1, e⟩])
  | .tld .. | .slide .. => if k.isLocal then [] else (k.rows.filterMap (·.2)).map fun a => ⟨255, false, a, k.rowBytes⟩
  | .tst .. => if k.isLocal then [] else (k.rows.filterMap (·.2)).map fun a => ⟨255, true, a, k.rowBytes⟩
  | .mma .. => []
  | .maccld _ ty ls a p => if ls || ty == .zero then [] else (accRows ls a p).map fun x => ⟨255, false, x, 32 * maccldBytes ty⟩
  | .mdrain _ fs mode ls a p side _ _ =>
    if ls then [] else (drainRanges mode (wg.fmtSlot fs) ls a p side).map fun r => ⟨255, true, r.1, r.2⟩

/-- What a command reads of the local store: the lane that names it, offset and length (R421, R422, R437). -/
def CmdKind.localReads (k : CmdKind) : List (Nat × Nat × Nat) :=
  match k with
  | .acp e _ ls ps => if ls then ps.map fun p => (p.1, p.2.1, e) else []
  | .tld .. | .slide .. => if k.isLocal then (k.rows.filterMap (·.2)).map fun a => (255, a, k.rowBytes) else []
  | .maccld _ ty ls a p => if ls && ty != .zero then (accRows ls a p).map fun x => (255, x, 32 * maccldBytes ty) else []
  | _ => []

/-- The pieces of a command's ranges that one page holds. -/
def CmdKind.pieces (wg : Workgroup) (k : CmdKind) : List Range :=
  (k.ranges wg).flatMap fun r => (pagePieces r.va r.n).map fun x => { r with va := x.1, n := x.2 }

/-- Whether a command reaches a space (R401). -/
def CmdKind.reaches (k : CmdKind) (write : Bool) (sp : Space) : Bool :=
  match sp with
  | .global | .pod _ => true
  | .broadcast => !write
  | .remote _ | .host => match k with | .acp .. => true | _ => false
  | .localStore | .device => false

/-- Permissions of a range (R255). -/
def Range.need (r : Range) : Need := if r.write then { w := true } else { rd := true }

/-- The range of a command that an address of a lane lies in. -/
def CmdKind.rangeAt (wg : Workgroup) (k : CmdKind) (lane va : Nat) : Range :=
  ((k.ranges wg).find? fun r => r.lane == lane && decide (r.va ≤ va) && decide (va < r.va + r.n)).getD ⟨lane, true, va, 1⟩

/-- The fault of a command's piece that was refused (R72, R328). -/
def State.pieceTrap (s : State) (c : Cmd) (status lane va : Nat) : Trap :=
  let r := c.kind.rangeAt (s.wg c.wg) lane va
  netTrap status lane va (s.asidOf c.wg) r.need r.n

/-- A range after translation: a page's place, a page to be walked, or a fault (R257, R401, R420). -/
inductive Placed where
  | at_ (page : Nat) (sp : Space) (pa : Nat)
  | miss (va : Nat)
  | fault (t : Trap)

/-- Translate one piece for a command. -/
def State.placePiece (s : State) (wg : Workgroup) (k : CmdKind) (r : Range) : Placed :=
  match translate s wg.part wg.die wg.launch.asid r.va r.need with
  | .miss => .miss r.va
  | .fault c l b => .fault (xlatTrap c wg.launch.asid l b r.need r.lane r.va)
  | .ok sp pa =>
    if !k.reaches r.write sp then .fault (xlatTrap .pagePerm wg.launch.asid 7 false r.need r.lane r.va)
    else
      match sp with
      | .host =>
        match s.hostTarget wg.part r.va r.n with
        | .ok _ => .at_ (r.va / 65536) .host (r.va / 65536 * 65536)
        | .error d => .fault ⟨.hostSpace, r.lane, r.va, d⟩
      | _ => .at_ (r.va / 65536) sp (pa - r.va % 65536)

/-! ### Leaving the queue -/

/-- Remove a command from its core's queues. -/
def State.dropCmd (s : State) (core id : Nat) : State :=
  s.modCore core fun c => { c with copyQ := c.copyQ.filter fun x => x.id != id, matQ := c.matQ.filter fun x => x.id != id }

/-- Tiles that a command still holds busy: TST and MMA let theirs go at the start (R230). -/
def Cmd.busyTiles (c : Cmd) : List Nat :=
  match c.kind with
  | .tst .. | .mma .. => if c.started then [] else c.kind.tileList
  | _ => c.kind.tileList

/-- A command's tiles are no longer busy with it. -/
def State.freeTiles (s : State) (c : Cmd) : State := s.setWg c.wg ((s.wg c.wg).vacate c.busyTiles)

/-- A command leaves without performing: its flag counts down, and nothing is signalled (R336). -/
def State.abandonCmd (s : State) (c : Cmd) : State :=
  (((s.freeTiles c).dropCmd (s.wg c.wg).lcore c.id)).flagDown c.wg c.slot c.fib c.flag

/-- A command faults: a follow-on MMA leaves with it, and the fibre takes the fault (R336, R420, R424)
(DEDUCED, log entry 93). -/
def State.failCmd (s : State) (matrix : Bool) (c : Cmd) (t : Trap) : State :=
  let core := s.core (s.wg c.wg).lcore
  let s1 := s.abandonCmd c
  let s2 := match core.matQ.find? fun x => x.after == some c.id with
    | some m => s1.abandonCmd m
    | none => s1
  (s2.raiseFault c.wg c.slot c.fib c.pc c.lanes (if matrix then 2 else 1) t).dropFail (s.wg c.wg).die (s.asidOf c.wg) t.addr

/-- Signal what a command names (R176, R417, R420). -/
def State.signal (s : State) (w : Nat) (x : Signal) : State :=
  match x with
  | .none => s
  | .bar n => s.arriveAt w n
  | .ctr c =>
    let wg := s.wg w
    if s.counterOwner wg.die c == wg.part + 1 then s.raise wg.die c 1 else s

/-- The restart point moves past a performed command that closes its region (R225). -/
def State.closeCmd (s : State) (c : Cmd) : State :=
  match c.closing with
  | none => s
  | some (at_, l) => s.modFib c.wg c.slot c.fib fun fb => { fb with restart := at_, livein := l, arrival := none }

/-- A refused host copy completes, with HOST_NAK in the launch's error word (R87, R156). -/
def State.noteNak (s : State) (c : Cmd) : State :=
  if !c.nak then s
  else
    let wg := s.wg c.wg
    let s1 := if wg.launch.errAddr == 0 then s else s.errWord wg.part wg.launch.asid wg.launch.errAddr (launchWord wg.index 0 1)
    s1.modGraph wg.graph fun g => { g with run := g.run.map fun r => { r with nak := r.nak.orElse fun _ => some wg.node } }

/-- A command has performed (R225, R283, R420). -/
def State.finishCmd (s : State) (c : Cmd) : State :=
  (((((s.noteNak c).freeTiles c).dropCmd (s.wg c.wg).lcore c.id).flagDown c.wg c.slot c.fib c.flag).signal c.wg c.signal).closeCmd c

/-! ### Starting (R420, R424, R436) -/

/-- The word after a command that closes only by its destination (R224). -/
def State.followingAt (s : State) (wg : Workgroup) (pc : Nat) : Except (Option Trap) LiveIn :=
  match fetchWord s wg pc with
  | .word w _ => if wordOpcode w == 0x0C6 then .ok (LiveIn.ofImm (field w 5 32)) else .error (some ⟨.regionRule, 0xFF, 0, 1⟩)
  | .fault t => .error (some t)
  | .miss _ => .error none

/-- Tiles captured at a command's start: what a reader sees (R230, R429, R436). -/
def State.capture (s : State) (c : Cmd) : List Tile :=
  match c.kind with
  | .tst .. | .mma .. => c.kind.tileList.map fun t => { (s.wg c.wg).tile t with data := s.tileSeen c.wg t, busy := 0 }
  | _ => []

/-- A command starts with its places and closing (R420, R436). -/
def State.begin (s : State) (c : Cmd) (trans : List (Nat × Space × Nat)) (closing : Option (Nat × LiveIn)) : State :=
  let tiles := s.capture c
  let hosts := s.readHosts (s.wg c.wg).part (trans.filterMap fun t => if t.2.1 == .host then some t.2.2 else none)
  let s1 := { s with free := s.free + 1 }.modCore (s.wg c.wg).lcore fun k =>
    k.modCmd c.id fun x =>
      { x with
        started := true, trans := trans, closing := closing, tiles := tiles
        hosts := hosts }
  match c.kind with
  | .tst .. | .mma .. => s1.setWg c.wg ((s1.wg c.wg).vacate c.kind.tileList)
  | _ => s1

/-- Start a command: translate every page that it touches, and find the waypoint that a remote destination needs (R224, R420). -/
def State.startCmd (s : State) (matrix : Bool) (c : Cmd) : State :=
  let wg := s.wg c.wg
  let ps := (c.kind.pieces wg).map (s.placePiece wg c.kind)
  match ps.filterMap fun p => match p with | .miss va => some va | _ => none with
  | va :: vs => (va :: vs).foldl (fun s va => s.queueWalk wg.die wg.launch.asid va) s
  | [] =>
    match ps.findSome? fun p => match p with | .fault t => some t | _ => none with
    | some t => s.failCmd matrix c t
    | none =>
      let trans := (ps.filterMap fun p => match p with | .at_ g sp pa => some (g, sp, pa) | _ => none).eraseDups
      let far := ((c.kind.pieces wg).zip ps).any fun x =>
        x.1.write && match x.2 with | .at_ _ (.remote _) _ => true | _ => false
      if far && c.closing.isNone then
        match s.followingAt wg (nextPc c.pc) with
        | .ok l => s.begin c trans (some (nextPc c.pc, l))
        | .error (some t) => s.failCmd matrix c t
        | .error none => s.queueWalk wg.die wg.launch.asid (pcLine (nextPc c.pc))
      else s.begin c trans c.closing

/-- COPY_COMMAND_START (R420): the head of the core's copy queue (DESIGN CHOICE, log entry 71). -/
def execCopyCommandStart (core : Nat) (s : State) : Answer :=
  .next (
    match (s.core core).copyQ with
    | c :: _ => if c.started then s else s.startCmd false c
    | [] => s)

/-- MATRIX_COMMAND_START (R424, R436): the head of the core's matrix queue; a follow-on MMA waits for its load
(DESIGN CHOICE, log entry 71). -/
def execMatrixCommandStart (core : Nat) (s : State) : Answer :=
  .next (
    let k := s.core core
    match k.matQ with
    | c :: _ =>
      if c.started || k.copyQ.any (fun x => c.after == some x.id) then s else s.startCmd true c
    | [] => s)

/-! ### Lines of a started command -/

/-- Whether the lines of a place are free for an engine: other modules leave them to be read, or this module holds them (R68, R253);
a store to global memory waits for its line by itself (R249). -/
def State.placeReady (s : State) (sp : Space) (pa n : Nat) (write : Bool) : Bool :=
  match sp with
  | .global => write || s.freeIn pa n false
  | .pod m => (linePieces pa n).all fun x =>
      let l := s.podLine m x.1
      if write then l.st.writable else l.has x.2.1 x.2.2
  | _ => true

/-- Ask for the lines of a place. -/
def State.placeSeek (s : State) (part : Nat) (sp : Space) (pa n : Nat) (write : Bool) : State :=
  match sp with
  | .global => if write then s else s.recallIn pa n false
  | .pod m =>
    (linePieces pa n).foldl (fun s x =>
      let l := s.podLine m x.1
      if write then (if l.st.writable then s else s.podWant part m x.1 (if l.st == .s then 4 else 2) 0)
      else if l.has x.2.1 x.2.2 then s
      else s.podWant part m x.1 1 (sectorsOf x.2.1 x.2.2)) s
  | _ => s

/-- Whether no port reaches the module of a place, or it lies across the border of an isolated region (R72, R135). -/
def State.placeLost (s : State) (part die : Nat) (sp : Space) (pa : Nat) : Bool :=
  match sp with
  | .global => s.cutOff die pa
  | .broadcast => s.cutOff die (s.broadcastPa die pa)
  | .pod m => (s.podRoute part m (lineOf pa)).isNone
  | _ => false

/-- The failing sector of a place that is read (R36, R252). -/
def State.placeBad (s : State) (die : Nat) (sp : Space) (pa n : Nat) : Option Nat :=
  match sp with
  | .global => s.badSector pa n
  | .broadcast => s.badSector (s.broadcastPa die pa) n
  | _ => none

/-- Write bytes of a command of a workgroup to a place that needs no message; it waits for its stores to global memory. -/
def State.writePlace (s : State) (w : Nat) (who : Waiter) (sp : Space) (a : Nat) (bs : List Byte) : State :=
  match sp with
  | .localStore => s.setWg w ((s.wg w).setLocal a bs)
  | .global => s.oweStores (s.wg w).die (s.wg w).part a bs who
  | .pod m => (linePieces a bs.length).foldl (fun s x =>
      s.podStore m x.1 x.2.1 ((bs.drop (256 * x.1 + x.2.1 - a)).take x.2.2)) s
  | _ => s

/-- Write bytes of a command at an address of its destination. -/
def State.writeRow (s : State) (c : Cmd) (ls : Bool) (a : Nat) (bs : List Byte) : State :=
  let who : Waiter := .cmd (s.wg c.wg).lcore c.id
  if ls then s.writePlace c.wg who .localStore a bs
  else
    ((pagePieces a bs.length).foldl (fun (x : State × List Byte) p =>
      let q := c.placeOf p.1
      (x.1.writePlace c.wg who q.1 q.2 (x.2.take p.2), x.2.drop p.2)) (s, bs)).1

/-! ### Copies -/

/-- Whether a place is reached by messages. -/
def Space.far : Space → Bool
  | .remote _ | .host => true
  | _ => false

/-- The port and tag by which a partition's messages reach a module of the remote space (R60, R63, R94). -/
def State.remoteRoute (s : State) (part m : Nat) : Option (Nat × Nat) :=
  match s.routeOf m with
  | none => none
  | some n => if (s.port n).works || (s.port n).moving then (s.tagOf n part).map fun t => (n, t) else none

/-- Whether a space lies behind a port that is being moved to a new peer: operations aimed at it wait (R63). -/
def State.pausedAt (s : State) (sp : Space) : Bool :=
  match sp with
  | .remote m | .pod m =>
    (match s.routeOf m with
     | some n => (s.port n).moving
     | none => false)
  | _ => false

/-- Bytes go to a far place for a waiting party: a PUT or a host write; a target that cannot be reached answers at once. -/
def State.sendFar (s : State) (part : Nat) (who : Waiter) (sp : Space) (a lane : Nat) (bs : List Byte) : State :=
  match sp with
  | .remote m =>
    match s.remoteRoute part m with
    | some (n, t) => s.sendReq n t (putMsg a bs) who none 0 lane a
    | none => s.answer who NetStatus.linkDown.num lane a
  | .host =>
    match s.hostSend part a bs.length who none bs with
    | (s1, true) => s1
    | (s1, false) => s1.refuseHost part a 2 who
  | _ => s

/-- Bytes are asked for from a far place. -/
def State.fetchFar (s : State) (part : Nat) (who : Waiter) (sp : Space) (a n lane : Nat) (dst : Space × Nat) : State :=
  match sp with
  | .remote m =>
    match s.remoteRoute part m with
    | some (k, t) => s.sendReq k t (getMsg a n) who (some dst) n lane a
    | none => s.answer who NetStatus.linkDown.num lane a
  | .host =>
    match s.hostSend part a n who (some dst) [] with
    | (s1, true) => s1
    | (s1, false) => s1.refuseHost part a 2 who
  | _ => s

/-- Where an operand of ACP lies. -/
def Cmd.acpPlace (c : Cmd) (loc : Bool) (a : Nat) : Space × Nat := if loc then (.localStore, a) else c.placeOf a

/-- The lane copies of an ACP: every near source is read before any lane writes; far ones go out as messages (R421). -/
def State.acpMove (s : State) (core : Nat) (c : Cmd) (e : Nat) (ld ls : Bool) (ps : List (Nat × Nat × Nat)) : State :=
  let wg := s.wg c.wg
  let xs := ps.map fun p =>
    let src := c.acpPlace ls p.2.1
    (p.1, src, c.acpPlace ld p.2.2, if Space.far src.1 then [] else s.bytesIn wg src.1 src.2 e)
  let out := (xs.filter fun x => Space.far x.2.1.1 || Space.far x.2.2.1.1).length
  let s1 := s.owe (.cmd core c.id) out
  xs.foldl (fun s x =>
    if Space.far x.2.1.1 then s.fetchFar wg.part (.cmd core c.id) x.2.1.1 x.2.1.2 e x.1 x.2.2.1
    else if Space.far x.2.2.1.1 then s.sendFar wg.part (.cmd core c.id) x.2.2.1.1 x.2.2.1.2 x.1 x.2.2.2
    else s.writePlace c.wg (.cmd core c.id) x.2.2.1.1 x.2.2.1.2 x.2.2.2) s1

/-- The rows of a captured tile. -/
def tileRows (k : CmdKind) (t : Tile) : List (Nat × List Byte) :=
  k.rows.filterMap fun r => r.2.map fun a => (a, (List.range k.rowBytes).map fun i => Memory.byte t.data (r.1 + i))

/-- Bytes that a command writes, padding rows of a tile among them (R423, R452). -/
def CmdKind.bytesMoved : CmdKind → Nat
  | .acp e _ _ ps => e * ps.length
  | k => k.rowBytes * k.rows.length

/-- A copy command's effect. -/
def State.copyMove (s : State) (core : Nat) (c : Cmd) : State :=
  match c.kind with
  | .acp e ld ls ps => s.acpMove core c e ld ls ps
  | .tld t .. | .slide t .. =>
    let rows := s.loadedRows (s.wg c.wg) c
    s.setWg c.wg ((s.wg c.wg).modTile t fun x => { x with data := putRuns x.data rows })
  | .tst _ ls .. => (tileRows c.kind (c.tiles.headD {})).foldl (fun s r => s.writeRow c ls r.1 r.2) s
  | _ => s

/-- What stands against a started command: an earlier operation of a fibre whose region it closes, a failing sector, a lost
module, or lines still to come. -/
inductive Stand where
  | go
  | wait
  | seek
  | fault (t : Trap) (sector : Option Nat)

/-- Whether a started command may perform (R36, R38, R72, R135, R224, R253, R261). -/
def State.cmdStand (s : State) (c : Cmd) : Stand :=
  let wg := s.wg c.wg
  let k := s.core wg.lcore
  let drained := c.closing.isNone ||
    (!(s.pipe.any fun o => o.ofFib c.wg c.slot c.fib && o.kind.ofMemory && decide (o.id < c.id)) &&
     !((k.copyQ ++ k.matQ).any fun x => x.ofFib c.wg c.slot c.fib && decide (x.id < c.id)))
  let ps := (c.kind.pieces wg).map fun r => (r, c.placeOf r.va)
  let kept := ps.any fun x =>
    s.shut (.core wg.lcore) c.wg (!x.1.write) x.1.write x.2.1 x.2.2 x.1.n fun p _ => p.ofFib c.wg c.slot c.fib
  if !drained || kept || ps.any (fun x => s.pausedAt x.2.1) then .wait
  else
    match ps.find? fun x => s.placeLost wg.part wg.die x.2.1 x.2.2, c.kind.localReads.find? fun x => (wg.localFails x.2.1 x.2.2).isSome with
    | some x, _ => .fault ⟨.dataCheck, x.1.lane, x.1.va / 64 * 64, 1⟩ none
    | none, some x => .fault ⟨.dataCheck, x.1, x.2.1 / 64 * 64, 0⟩ none
    | none, none =>
      match ps.findSome? fun x => if x.1.write then none else (s.placeBad wg.die x.2.1 x.2.2 x.1.n).map fun b => (x.1, b) with
      | some (r, b) => .fault ⟨.dataCheck, r.lane, (r.va - r.va % 64), 0⟩ (some b)
      | none => if ps.all fun x => s.placeReady x.2.1 x.2.2 x.1.n x.1.write then .go else .seek

/-- Ask for the lines that a command still needs. -/
def State.cmdSeek (s : State) (c : Cmd) : State :=
  let wg := s.wg c.wg
  (c.kind.pieces wg).foldl (fun s r => let p := c.placeOf r.va; s.placeSeek wg.part p.1 p.2 r.n r.write) s

/-- Fault a command at performing. -/
def State.cmdFault (s : State) (matrix : Bool) (c : Cmd) (t : Trap) (sector : Option Nat) : State :=
  (match sector with | some k => s.reportSector k | none => s).failCmd matrix c t

/-- The command of a core's queue with an identity. -/
def Core.cmd? (k : Core) (id : Nat) : Option Cmd := (k.copyQ ++ k.matQ).find? fun x => x.id == id

/-- End a copy command whose messages are all answered. -/
def State.endCopy (s : State) (core id : Nat) : State :=
  match (s.core core).cmd? id with
  | none => s
  | some c =>
    if c.left != 0 then s
    else
      match c.trap with
      | some (st, lane, va) => s.failCmd false c (s.pieceTrap c st lane va)
      | none =>
        (s.finishCmd c).modCore core fun k => { k with copyBytes := k.copyBytes + BitVec.ofNat 64 c.kind.bytesMoved }

/-- A command makes its accesses. -/
def State.sendCmd (s : State) (core id : Nat) : State :=
  s.modCore core fun k => k.modCmd id fun x => { x with sent := true, left := 0 }

/-- COPY_COMMAND_PERFORM (R420 to R423). -/
def execCopyCommandPerform (core : Nat) (s : State) : Answer :=
  .next (
    match (s.core core).copyQ with
    | [] => s
    | c :: _ =>
      if !c.started then s
      else if c.sent then s.endCopy core c.id
      else
        match s.cmdStand c with
        | .wait => s
        | .seek => s.cmdSeek c
        | .fault t b => s.cmdFault false c t b
        | .go => ((s.sendCmd core c.id).copyMove core c).endCopy core c.id)

/-! ### The matrix engine (R308, R434 to R439) -/

/-- Element (i, j) of an accumulator, or of a pair (R434). -/
def Workgroup.accElem (w : Workgroup) (acc : Nat) (wide : Bool) (i j : Nat) : Nat :=
  let k := 32 * i + j
  if wide then (w.accWord acc (2 * k)).toNat + 2 ^ 32 * (w.accWord acc (2 * k + 1)).toNat else (w.accWord acc k).toNat

/-- Write an element of an accumulator, or of a pair. -/
def Workgroup.setAccElem (w : Workgroup) (acc : Nat) (wide : Bool) (i j x : Nat) : Workgroup :=
  let k := 32 * i + j
  if wide then
    (w.setAccWord acc (2 * k) (BitVec.ofNat 32 x)).setAccWord acc (2 * k + 1) (BitVec.ofNat 32 (x / 2 ^ 32))
  else w.setAccWord acc k (BitVec.ofNat 32 x)

/-- Write every element of an accumulator. -/
def Workgroup.setAccAll (w : Workgroup) (acc : Nat) (wide : Bool) (f : Nat → Nat → Nat) : Workgroup :=
  (List.range 32).foldl (fun w i => (List.range 32).foldl (fun w j => w.setAccElem acc wide i j (f i j)) w) w

/-- A byte of a row of a tile: a row of 256 bytes (R434). -/
def Tile.rowByte (t : Tile) (i k : Nat) : Nat := (Memory.byte t.data (256 * i + k)).toNat

/-- The value of element (i, k) of an operand tile, with its block scale (R314, R318, R435): `base` is the place of the
operand's scales in the scale tile. -/
def operandValue (fs : FmtSlot) (f : Fmt) (ftzi : Bool) (t : Tile) (ts : Option Tile) (base i k : Nat) : FVal :=
  let rc := mapCoords fs t.row0 t.col0 t.tb i k
  let code := flushIn f ftzi (rowCode f 128 (t.rowByte i) k)
  let v := recon f (dither256 fs rc.1 rc.2) fs.dith code
  match ts with
  | some s => blockScale fs.bsz (Memory.byte s.data (base + 32 * i + k / 32)).toNat v
  | none => v

/-- The first reserved TERN code among the rows of an operand (R299). -/
def ternReserved (f : Fmt) (t : Tile) : Option Nat :=
  if f != .tern then none else (List.range 8192).find? fun k => decide (242 < (Memory.byte t.data k).toNat)

/-- The tiles that an MMA captured: A, B and the scale tile. -/
def Cmd.mmaTiles (c : Cmd) (ts : Option Nat) : Tile × Tile × Option Tile :=
  (c.tiles.getD 0 {}, c.tiles.getD 1 {}, ts.map fun _ => c.tiles.getD 2 {})

/-- The 32 × 32 sums of an MMA (R308, R435). -/
def mmaSums (wg : Workgroup) (m : ModMma) (acc : Nat) (a b : FmtSlot) (fa fb : Fmt) (ta tb : Tile) (ts : Option Tile) :
    Nat → Nat → Nat :=
  let out : Fmt := if fa == .fp64 then .fp64 else .fp32
  let w := sumWidth fa fb
  fun i j =>
    let ps := (List.range fa.depth).map fun k =>
      (operandValue a fa m.ftzi ta ts 0 i k, operandValue b fb m.ftzi tb ts 1024 j k)
    let c := if m.z then 0 else flushIn out m.ftzi (wg.accElem acc (out == .fp64) i j)
    flushOut out m.ftzo (matrixSum w out ps (decodeVal out c))

/-- MMA performs: a reserved TERN code raises FORMAT_CODE under STRICT, and sets FCODE otherwise (R299, R435). -/
def State.mmaRun (s : State) (core : Nat) (c : Cmd) (acc : Nat) (ta tb : Nat) (ts : Option Nat) (fsa fsb : Nat) (m : ModMma) :
    State :=
  let wg := s.wg c.wg
  let a := wg.fmtSlot fsa
  let b := wg.fmtSlot fsb
  let x := c.mmaTiles ts
  match a.format, b.format with
  | some fa, some fb =>
    let bad := [(a, fsa, ta, ternReserved fa x.1), (b, fsb, tb, ternReserved fb x.2.1)]
    match bad.find? fun y => y.1.strict && y.2.2.2.isSome with
    | some y => s.failCmd true c ⟨.formatCode, 0xFF, y.2.2.2.getD 0, y.2.1 + 8 + 16 * y.2.2.1⟩
    | none =>
      let s1 := s.setWg c.wg (wg.setAccAll acc (fa == .fp64) (mmaSums wg m acc a b fa fb x.1 x.2.1 x.2.2))
      let s2 := if bad.any fun y => y.2.2.2.isSome then s1.modFib c.wg c.slot c.fib (·.orStatus fpFCODE) else s1
      (s2.finishCmd c).modCore core fun k => { k with macs := k.macs + BitVec.ofNat 64 (1024 * fa.depth) }
  | _, _ => s.finishCmd c

/-- MACCLD performs (R437). -/
def State.maccldRun (s : State) (c : Cmd) (acc : Nat) (ty : MaccldTy) (ls : Bool) (a : Nat) (p : Int) : State :=
  let wg := s.wg c.wg
  let e := maccldBytes ty
  let rows := if ty == .zero then [] else (accRows ls a p).map fun x => s.rowIn wg c ls x (32 * e)
  let val (i j : Nat) : Nat :=
    let x := leAt (rows.getD i []) (e * j) e
    match ty with
    | .f32 | .f64 => x
    | .bf16 => x * 65536
    | .zero => 0
  (s.setWg c.wg (wg.setAccAll acc (ty == .f64) val)).finishCmd c

/-- A row of a drain through a slot: scale code, codes, overflows, NaN cases (R302, R304, R439). -/
def drainRow (fs : FmtSlot) (f : Fmt) (ioff joff : Word) (xs : List FVal) (i : Nat) : Nat × List Nat × Nat × Nat :=
  let sc := if fs.bsz then blockScaleCode f xs else 127
  if sc == 255 then (255, xs.map fun _ => 0, 0, 0)
  else
    let qs := xs.mapIdx fun j x =>
      let rc := mapCoords fs (fs.row0 + ioff) (fs.col0 + joff) false i j
      let y := x.scale (127 - (sc : Nat))
      quantise fs f .rne false rc.1 rc.2 y
    let nans := if f.hasNan then 0 else (xs.filter FVal.isNan).length
    (sc, qs.map (·.1), (qs.filter fun q => q.2 &&& fpOF != 0).length, nans)

/-- The footer of a quantising drain (R307). -/
def drainFooter (fs : FmtSlot) (ov nan : Nat) : List Byte :=
  leBytes 4 (min ov 0xFFFFFFFF) ++ leBytes 4 nan ++ leBytes 1 fs.fmt ++
  leBytes 1 (b2n fs.dith + 2 * b2n fs.sat + 4 * b2n fs.bsz) ++ leBytes 6 0

/-- The runs of bytes that a drain writes, with their addresses (R438, R439). -/
def drainWrites (wg : Workgroup) (acc : Nat) (fs : FmtSlot) (mode : MdrainMode) (ls : Bool) (a : Nat) (p : Int) (side : Nat)
    (ioff joff : Word) : List (Nat × List Byte) :=
  let wide := drainWide mode
  let row (i : Nat) : List Nat := (List.range 32).map fun j => wg.accElem acc wide i j
  let src : Fmt := if wide then .fp64 else .fp32
  match mode with
  | .f32 => (accRows ls a p).mapIdx fun i x => (x, (row i).flatMap (leBytes 4))
  | .f64 => (accRows ls a p).mapIdx fun i x => (x, (row i).flatMap (leBytes 8))
  | .bf16 =>
    (accRows ls a p).mapIdx fun i x =>
      (x, (row i).flatMap fun v => leBytes 2 (roundVal .bf16 .rne false false (decodeVal src v)).1)
  | .q | .f64q =>
    let f := fs.format.getD .fp32
    let rs := (accRows ls a p).mapIdx fun i x => (i, x, drainRow fs f ioff joff ((row i).map (decodeVal src)) i)
    let elems := rs.flatMap fun r => (byteRuns (rowBytes f fs.plane r.2.2.2.1)).map fun b => (engAddr ls r.2.1 (b.1 : Nat), b.2)
    let scales := if fs.bsz then rs.map fun r => (scaleAddr fs ls a side r.1, leBytes 1 r.2.2.1) else []
    let ov := rs.foldl (fun n r => n + r.2.2.2.2.1) 0
    let nan := rs.foldl (fun n r => n + r.2.2.2.2.2) 0
    elems ++ scales ++ [(side, drainFooter fs ov nan)]

/-- End a matrix command whose stores are all in place; one that did not perform faults (R135). -/
def State.endMatrix (s : State) (core id : Nat) : State :=
  match (s.core core).cmd? id with
  | none => s
  | some c =>
    if c.left != 0 then s
    else
      match c.trap with
      | some (st, lane, va) => s.failCmd true c (s.pieceTrap c st lane va)
      | none => s.finishCmd c

/-- A matrix command's effect and end. -/
def State.matrixRun (s : State) (core : Nat) (c : Cmd) : State :=
  match c.kind with
  | .mma acc ta tb ts fsa fsb m => s.mmaRun core c acc ta tb ts fsa fsb m
  | .maccld acc ty ls a p => s.maccldRun c acc ty ls a p
  | .mdrain acc fs mode ls a p side ioff joff =>
    let wg := s.wg c.wg
    ((drainWrites wg acc (wg.fmtSlot fs) mode ls a p side ioff joff).foldl (fun s x => s.writeRow c ls x.1 x.2)
      (s.sendCmd core c.id)).endMatrix core c.id
  | _ => s.finishCmd c

/-- MATRIX_COMMAND_PERFORM (R435 to R440). -/
def execMatrixCommandPerform (core : Nat) (s : State) : Answer :=
  .next (
    match (s.core core).matQ with
    | [] => s
    | c :: _ =>
      if !c.started then s
      else if c.sent then s.endMatrix core c.id
      else
        match s.cmdStand c with
        | .wait => s
        | .seek => s.cmdSeek c
        | .fault t b => s.cmdFault true c t b
        | .go => s.matrixRun core c)

end Sys2Proof.Machine
end

