-- ==== Sys2Proof/Machine/Fabric.lean ====
section
/-! DEFINITION. The fabric engines (R174 to R188): posting and its checks, network queues, the entries' messages, and the service
of requests from other modules. -/

namespace Sys2Proof.Machine

/-! ### Entry fields (R178) -/

/-- KIND. -/
def entKind (img : List Byte) : Nat := leAt img 0 1
/-- FLAGS. -/
def entFlags (img : List Byte) : Nat := leAt img 1 1
/-- REARM. -/
def entRearm (img : List Byte) : Bool := bitAt (entFlags img) 0
/-- RNOTE. -/
def entNote (img : List Byte) : Bool := bitAt (entFlags img) 1
/-- IMG. -/
def entImg (img : List Byte) : Bool := bitAt (entFlags img) 2
/-- TCTR. -/
def entTctr (img : List Byte) : Nat := leAt img 2 2
/-- CCTR. -/
def entCctr (img : List Byte) : Nat := leAt img 4 2
/-- ASID. -/
def entAsid (img : List Byte) : Nat := leAt img 6 2
/-- LADDR. -/
def entLaddr (img : List Byte) : Nat := leAt img 16 8
/-- RADDR. -/
def entRaddr (img : List Byte) : Nat := leAt img 24 8
/-- LEN. -/
def entLen (img : List Byte) : Nat := leAt img 32 4
/-- RCTR. -/
def entRctr (img : List Byte) : Nat := leAt img 36 4
/-- PERIOD. -/
def entPeriod (img : List Byte) : Nat := leAt img 40 6
/-- AFMT. -/
def entAfmt (img : List Byte) : Nat := leAt img 46 1
/-- OPND. -/
def entOpnd (img : List Byte) : Nat := leAt img 48 8

/-- Whether a counter of a die is a partition's and takes posts (R175, R179). -/
def State.ctrOpen (s : State) (die part c : Nat) : Bool :=
  decide (die < 80) && decide (c < 4096) && s.counterOwner die c == part + 1 &&
  !(s.releases.any fun r => r.die == die && r.blocks.contains (c / 64))

/-- Whether an ASID lies in a partition's range (R122). -/
def Partition.hasAsid (p : Partition) (a : Nat) : Bool := decide (p.asidBase ≤ a) && decide (a < p.asidBase + p.asidCount)

/-- Whether an address lies in the host space (R179, R232). -/
def hostVa (a : Nat) : Bool := bitAt a 56

/-- The checks of a post (R179). -/
def State.entryLegal (s : State) (die part : Nat) (img : List Byte) : Bool :=
  let k := entKind img
  let moves := k == 1 || k == 2 || k == 3
  let e := if k == 6 then (if bitAt (entAfmt img) 4 then 8 else 4) else afmtBytes (field (entAfmt img) 0 4)
  1 ≤ k && k ≤ 6 && entFlags img < 8 && leAt img 14 2 == 0 && leAt img 47 1 == 0 && entRctr img < 2 ^ 19 &&
  (s.part part).hasAsid (entAsid img) &&
  s.ctrOpen die part (entTctr img) && (entCctr img == 0xFFFF || s.ctrOpen die part (entCctr img)) &&
  (k != 5 || s.ctrOpen (entRctr img / 4096) part (entRctr img % 4096)) &&
  !hostVa (entLaddr img) && !hostVa (entRaddr img) &&
  (!(k == 3 || k == 6) || entRaddr img % e == 0 && entLaddr img % e == 0) &&
  (if moves then entLen img != 0 else entLen img == 0) &&
  (k != 3 || entLen img % e == 0 && entAfmt img < 128 && accpLegal (entAfmt img) (entImg img)) &&
  (k != 6 || atomLegal (entAfmt img)) &&
  (!entRearm img || entPeriod img != 0)

/-- The lowest free entry of a partition's blocks on a die (R175, R179). -/
def State.freeEntry (s : State) (die part : Nat) : Option Nat :=
  let bs := (List.range 64).filter fun b =>
    s.blockOwner die b == part + 1 && !(s.releases.any fun r => r.die == die && r.blocks.contains b)
  (bs.flatMap fun b => (List.range 256).map fun k => 256 * b + k).find? fun e => (s.entry die e).st == .free

/-- Why a post is refused (R443). -/
inductive Refused where
  | badEntry | full
  deriving DecidableEq, Repr

/-- The result code of a refusal (R443). -/
def Refused.code : Refused → Nat
  | .badEntry => 0x80000001
  | .full => 0x80000002

/-- Store an entry, checked; it may fire at once (R179, R180). -/
def State.postAs (s : State) (die part : Nat) (x : Entry) : Except Refused (State × Nat) :=
  if !s.entryLegal die part x.img then .error .badEntry
  else
    match s.freeEntry die part with
    | none => .error .full
    | some e =>
      let y := { x with st := .posted, part := part, thresh := leAt x.img 8 6, rearm := entRearm x.img }
      .ok ((s.setEntry die e y).checkFiring die (entTctr x.img), e)

/-- Store an entry from its image. -/
def State.post (s : State) (die part : Nat) (img : List Byte) : Except Refused (State × Nat) := s.postAs die part { img := img }

/-! ### Translation by an engine (R182; DEDUCED, log entry 34) -/

/-- Translate an address for a fabric engine (DEDUCED, log entry 34). -/
def State.engXlat (s : State) (part asid va : Nat) (n : Need) : Option (Space × Nat) :=
  if 2 ^ 57 ≤ va then none
  else if bitAt va 56 then some (.host, va)
  else
    match walk s part asid va with
    | .fail _ _ => none
    | .leaf bits l =>
      match checkLeaf s part va bits l n with
      | .ok sp pa => some (sp, pa)
      | _ => none

/-- The table sector that fails verification on an address's walk (R257). -/
def State.walkBad (s : State) (part asid va : Nat) : Option Nat :=
  match walk s part asid va with
  | .fail _ bad => bad
  | .leaf .. => none

/-- The parts of a transfer: offset and length, each within one line on both sides. -/
def pairPieces (a b : Nat) : Nat → Nat → Nat → List (Nat × Nat)
  | 0, _, _ => []
  | fuel + 1, o, n =>
    if n == 0 then []
    else
      let k := min n (min (256 - (a + o) % 256) (256 - (b + o) % 256))
      (o, k) :: pairPieces a b fuel (o + k) (n - k)

/-- All the parts of a transfer of n bytes. -/
def transferPieces (a b n : Nat) : List (Nat × Nat) := pairPieces a b (2 * (n / 256) + 4) 0 n

/-- A piece of a transfer after translation: offset, length, and where its local and far sides lie. -/
structure Piece where
  off : Nat
  n : Nat
  lsp : Space
  lpa : Nat
  rsp : Space
  rpa : Nat
  deriving DecidableEq, Repr

/-- Translate every piece of a transfer, or none (DEDUCED, log entry 34). -/
def State.xlatPieces (s : State) (part asid l r : Nat) (ln rn : Need) (xs : List (Nat × Nat)) : Option (List Piece) :=
  xs.foldr (fun x acc =>
    match acc, s.engXlat part asid (l + x.1) ln, s.engXlat part asid (r + x.1) rn with
    | some ps, some (lsp, lpa), some (rsp, rpa) => some (⟨x.1, x.2, lsp, lpa, rsp, rpa⟩ :: ps)
    | _, _, _ => none) (some [])

/-! ### Near bytes -/

/-- Spaces that an engine reads without messages. -/
def Space.nearRead : Space → Bool
  | .global | .broadcast | .pod _ => true
  | _ => false

/-- Spaces that an engine writes without messages. -/
def Space.nearWrite : Space → Bool
  | .global | .pod _ => true
  | _ => false

/-- Bytes of a near place as a die's engine reads them. -/
def State.nearBytes (s : State) (die : Nat) (sp : Space) (a n : Nat) : List Byte :=
  match sp with
  | .global => s.bytesAt a n
  | .broadcast => s.bytesAt (s.broadcastPa die a) n
  | .pod m => (List.range n).map fun k => s.podByte m (a + k)
  | _ => List.replicate n 0

/-- Write bytes to a near place from a die's engine for a waiting party, which waits for its stores to global memory. -/
def State.nearWrite (s : State) (die part : Nat) (w : Waiter) (sp : Space) (a : Nat) (bs : List Byte) : State :=
  match sp with
  | .global => s.oweStores die part a bs w
  | .pod m => (linePieces a bs.length).foldl (fun s x =>
      s.podStore m x.1 x.2.1 ((bs.drop (256 * x.1 + x.2.1 - a)).take x.2.2)) s
  | _ => s

/-- What an entry reads and writes near, on its own side: place, length, whether written. What it does to lines at their homes waits
for them by itself (R249). -/
def nearUses (k : Nat) (p : Piece) : List (Space × Nat × Nat × Bool) := [(p.lsp, p.lpa, p.n, k == 2 || k == 6)]

/-! ### Elements and images -/

/-- The image of a source element as a die reads it: its entry's, or that of its value; a window's element is that of the replica read,
and another module's line that is held here has no entry, since no cache holds a pinned one (R181, R188, R242)
(DEDUCED, log entry 33) (DEDUCED, log entry 41). -/
def State.sourceImage (s : State) (die : Nat) (sp : Space) (pa : Nat) (t : AccTy) : List Byte :=
  match sp with
  | .pod m => (scalarsOf t).flatMap fun x => (s.podImage m (pa + x.1) x.2).images
  | .broadcast => (scalarsOf t).flatMap fun x => (s.imageOf (s.broadcastPa die pa + x.1) x.2).images
  | _ => (scalarsOf t).flatMap fun x => (s.imageOf (pa + x.1) x.2).images

/-- The failing sector that the source of a piece meets: of images, where an element has no entry (R36, R181, R188)
(DEDUCED, log entry 41). -/
def State.pieceBad (s : State) (die : Nat) (img : List Byte) (p : Piece) : Option Nat :=
  match p.lsp, entKind img, entImg img, afmtAcc (field (entAfmt img) 0 4) with
  | .global, 3, true, some t =>
    (List.range (p.n / t.bytes)).findSome? fun k => (scalarsOf t).findSome? fun x => s.imageBad (p.lpa + t.bytes * k + x.1) x.2
  | _, _, _, _ => s.placeBad die p.lsp p.lpa p.n

/-- Whether a source element of images overlaps an entry of another type or extent (R188, R288, R410; DEDUCED, log entry 41). -/
def State.pieceClash (s : State) (img : List Byte) (p : Piece) : Bool :=
  match p.lsp, entKind img, entImg img, afmtAcc (field (entAfmt img) 0 4) with
  | .global, 3, true, some t =>
    (List.range (p.n / t.bytes)).any fun k => (scalarsOf t).any fun x => s.accClash (p.lpa + t.bytes * k + x.1) x.2
  | _, _, _, _ => false

/-! ### Sending a piece (R181, R186) -/

/-- Who waits for a piece's answer, and under which partition it goes. -/
structure Sender where
  die : Nat
  part : Nat
  who : Waiter

/-- The module of a space that messages reach. -/
def Space.module? : Space → Option Nat
  | .pod m | .remote m => some m
  | _ => none

/-- What a target in this package does counts as an answer. -/
def State.targetAnswer (s : State) (x : Sender) (r : Except NetStatus State) : State :=
  match r with
  | .ok s1 => s1.answer x.who 0
  | .error e => s.answer x.who e.num

/-- Send the messages of a request to a module for a sender; a module that no port reaches answers at once (R183). -/
def State.allToModule (s : State) (x : Sender) (m : Nat) (msgs : List Msg) (dst : Option (Space × Nat)) (len : Nat) : State :=
  match s.remoteRoute x.part m with
  | some (n, t) => s.sendReqs n t msgs x.who dst len
  | none => s.answer x.who NetStatus.linkDown.num

/-- The same for one message. -/
def State.toModule (s : State) (x : Sender) (m : Nat) (msg : Msg) (dst : Option (Space × Nat)) (len : Nat) : State :=
  s.allToModule x m [msg] dst len

/-- An operation of a sender on a line of this module is to be done at the line's home. -/
def State.atHome (s : State) (x : Sender) (pa : Nat) (work : LineWork) : State :=
  s.addJob ⟨homeDie pa, x.part, lineOf pa, work, .waiter x.who⟩

/-- One piece of a PUT. -/
def State.sendPut (s : State) (x : Sender) (p : Piece) : State :=
  let bs := s.nearBytes x.die p.lsp p.lpa p.n
  match Space.module? p.rsp with
  | some m => s.toModule x m (putMsg p.rpa bs) none 0
  | none => s.atHome x p.rpa (.put (byteMask (p.rpa % 256) p.n) (lineImage (p.rpa % 256) bs))

/-- One piece of a GET. -/
def State.sendGet (s : State) (x : Sender) (p : Piece) : State :=
  match Space.module? p.rsp with
  | some m => s.toModule x m (getMsg p.rpa p.n) (some (p.lsp, p.lpa)) p.n
  | none => s.atHome x p.rpa (.get p.rpa p.n (some (p.lsp, p.lpa)))

/-- One element with its image. -/
def State.sendImage (s : State) (x : Sender) (afmt : Nat) (t : AccTy) (p : Piece) (k : Nat) : State :=
  let o := t.bytes * k
  let img := s.sourceImage x.die p.lsp (p.lpa + o) t
  match Space.module? p.rsp with
  | some m => s.allToModule x m (imageMsgs (p.rpa + o) t.bytes afmt img) none 0
  | none => s.atHome x (p.rpa + o) (.accp afmt true (byteMask ((p.rpa + o) % 256) t.bytes) img)

/-- One piece of an ACCP. -/
def State.sendAccp (s : State) (x : Sender) (afmt : Nat) (img : Bool) (p : Piece) : State :=
  match img, afmtAcc (field afmt 0 4) with
  | true, some t => (List.range (p.n / t.bytes)).foldl (fun s k => s.sendImage x afmt t p k) s
  | _, _ =>
    let bs := s.nearBytes x.die p.lsp p.lpa p.n
    match Space.module? p.rsp with
    | some m => s.toModule x m (accpMsg p.rpa afmt bs) none 0
    | none => s.atHome x p.rpa (.accp afmt false (byteMask (p.rpa % 256) p.n) (lineImage (p.rpa % 256) bs))

/-- An ATOM. -/
def State.sendAtom (s : State) (x : Sender) (afmt opnd cmpv : Nat) (p : Piece) : State :=
  match Space.module? p.rsp with
  | some m => s.toModule x m (atomMsg p.rpa afmt opnd cmpv) (some (p.lsp, p.lpa)) p.n
  | none => s.atHome x p.rpa (.atom p.rpa afmt opnd cmpv (some (p.lsp, p.lpa)))

/-- A CADD to a counter of the module that a space selects (R181). -/
def State.sendCadd (s : State) (x : Sender) (sp : Space) (rctr v : Nat) (fence : Bool) : State :=
  match Space.module? sp with
  | some m => s.toModule x m (caddMsg rctr v fence) none 0
  | none => s.targetAnswer x (s.targetCadd x.part (rctr / 4096) (rctr % 4096) (v % 2 ^ 48))

/-! ### Issuing an entry (R182) -/

/-- Permissions of an entry's two sides (R182). -/
def entNeeds (k : Nat) : Need × Need :=
  let all : Need := { rd := true, w := true, a := true }
  match k with
  | 1 => ({ rd := true }, { w := true })
  | 2 => ({ w := true }, { rd := true })
  | 3 => ({ rd := true }, all)
  | 6 => ({ w := true }, all)
  | _ => ({}, {})

/-- The bytes that an entry moves: ATOM moves its old value. -/
def entBytes (img : List Byte) : Nat :=
  match entKind img with
  | 6 => if bitAt (entAfmt img) 4 then 8 else 4
  | _ => entLen img

/-- An entry is in flight, with its messages to come. -/
def State.inFlight (s : State) (die e left status : Nat) : State :=
  s.setEntry die e { s.entry die e with st := .inflight, left := left, status := status, noting := false }

/-- Messages that a piece takes. -/
def pieceMessages (img : List Byte) (p : Piece) : Nat :=
  match entKind img, entImg img, afmtAcc (field (entAfmt img) 0 4) with
  | 3, true, some t => p.n / t.bytes
  | _, _, _ => 1

/-- One piece of an entry. -/
def State.sendPiece (s : State) (x : Sender) (img : List Byte) (p : Piece) : State :=
  match entKind img with
  | 1 => s.sendPut x p
  | 2 => s.sendGet x p
  | 3 => s.sendAccp x (entAfmt img) (entImg img) p
  | _ => s.sendAtom x (entAfmt img) (entOpnd img) (leAt img 56 8) p

/-- Whether a place of the package lies across the border of an isolated region (R135). -/
def State.cutAt (s : State) (die : Nat) (sp : Space) (pa : Nat) : Bool := sp == .global && s.cutOff die pa

/-- The parts of a piece whose source bytes a PUT has brought (DESIGN CHOICE, log entry 35). -/
def State.broughtParts (s : State) (p : Piece) : List Piece :=
  if p.lsp != .global then [] else
  (maskRuns (Tab.get 0 s.landed (lineOf p.lpa) &&& byteMask (p.lpa % 256) p.n)).map fun r =>
    let o := 256 * lineOf p.lpa + r.1 - p.lpa
    { p with off := p.off + o, n := r.2, lpa := p.lpa + o, rpa := p.rpa + o }

/-- A moving entry leaves QUEUED: translated, checked, and sent (R181, R182, R257). -/
def State.issueMove (s : State) (die e : Nat) (x : Entry) : State :=
  let img := x.img
  let k := entKind img
  let n := entNeeds k
  match s.xlatPieces x.part (entAsid img) (entLaddr img) (entRaddr img) n.1 n.2
      (transferPieces (entLaddr img) (entRaddr img) (entBytes img)) with
  | none =>
    match (transferPieces (entLaddr img) (entRaddr img) (entBytes img)).findSome? fun y =>
        (s.walkBad x.part (entAsid img) (entLaddr img + y.1)).orElse fun _ => s.walkBad x.part (entAsid img) (entRaddr img + y.1) with
    | some k => (s.reportSector k).inFlight die e 0 NetStatus.dataCheck.num
    | none => s.inFlight die e 0 NetStatus.perm.num
  | some all =>
    let ps := if x.brought then all.flatMap s.broughtParts else all
    let wr := k == 2 || k == 6
    if ps.any fun p => !(if wr then p.lsp.nearWrite else p.lsp.nearRead) || !(p.rsp == .global || (Space.module? p.rsp).isSome) then
      s.inFlight die e 0 NetStatus.perm.num
    else if ps.any fun p => s.pausedAt p.rsp then s
    else if ps.any fun p => s.cutAt die p.rsp p.rpa then s.inFlight die e 0 NetStatus.noTarget.num
    else if ps.any fun p => s.cutAt die p.lsp p.lpa then s.inFlight die e 0 NetStatus.dataCheck.num
    else if ps.any fun p => s.placeLost x.part die p.lsp p.lpa then s.inFlight die e 0 NetStatus.noTarget.num
    else if ps.any (s.pieceClash img) then s.inFlight die e 0 NetStatus.misaligned.num
    else
      match ps.findSome? fun p => if wr then none else s.pieceBad die img p with
      | some b => (s.reportSector b).inFlight die e 0 NetStatus.dataCheck.num
      | none =>
        let us := ps.flatMap (nearUses k)
        if us.all fun u => s.placeReady u.1 u.2.1 u.2.2.1 u.2.2.2 then
          let s1 := s.inFlight die e ((ps.map (pieceMessages img)).foldl (· + ·) 0) 0
          ps.foldl (fun s p => s.sendPiece ⟨die, x.part, .entry die e⟩ img p) s1
        else us.foldl (fun s u => s.placeSeek x.part u.1 u.2.1 u.2.2.1 u.2.2.2) s

/-- An entry leaves QUEUED (R181, R182). -/
def State.issueEntry (s : State) (die e : Nat) : State :=
  let x := s.entry die e
  let img := x.img
  match entKind img with
  | 4 =>
    match s.engXlat x.part (entAsid img) (entRaddr img) {} with
    | some (sp, _) =>
      if s.pausedAt sp then s
      else if sp == .global || (Space.module? sp).isSome then
        (s.inFlight die e 1 0).sendCadd ⟨die, x.part, .entry die e⟩ sp (entRctr img) (entOpnd img) false
      else s.inFlight die e 0 NetStatus.perm.num
    | none =>
      match s.walkBad x.part (entAsid img) (entRaddr img) with
      | some k => (s.reportSector k).inFlight die e 0 NetStatus.dataCheck.num
      | none => s.inFlight die e 0 NetStatus.perm.num
  | 5 => (s.inFlight die e 1 0).sendCadd ⟨die, x.part, .entry die e⟩ .global (entRctr img) (entOpnd img) false
  | _ => s.issueMove die e x

/-! ### Completing an entry (R180, R183, R193, R195) -/

/-- Remove the head of a network queue. -/
def State.popNet (s : State) (die part : Nat) : State := s.setNet die part ((s.net die part).drop 1)

/-- A counter takes the first status other than OK; 0xFFFF names none (R183). -/
def State.markErr (s : State) (die c status : Nat) : State :=
  let k := s.counter die c
  if c == 0xFFFF || k.err != 0 then s else s.setCounter die c { k with err := BitVec.ofNat 8 status }

/-- The failure of an entry goes to its counter, its event function and its collective's error word (R183, R195). -/
def State.entryFailed (s : State) (die e : Nat) (x : Entry) : State :=
  if x.status == 0 then s
  else
    let c := entCctr x.img
    let s0 := s.markErr die (entCctr x.img) x.status
    let s1 := if x.errCtr == c then s0 else s0.markErr die x.errCtr x.status
    let s2 := s1.partEvent x.part 0x0005
      (leBytes 1 die ++ leBytes 1 0 ++ leBytes 2 e ++ leBytes 1 x.status ++ leBytes 1 0 ++ leBytes 2 c)
    match x.err with
    | some (a, rank) => if a == 0 then s2 else s2.errWord x.part (entAsid x.img) a (x.status + rank * 2 ^ 16)
    | none => s2

/-- The physical places of the region that an entry's completion clears (R193). -/
def State.clearPlaces (s : State) (x : Entry) : List (Nat × Nat) :=
  match x.finish.bind (·.clear) with
  | none => []
  | some (t, va, n) => (List.range n).filterMap fun k =>
      match s.engXlat x.part (entAsid x.img) (va + t.bytes * k) { rd := true, w := true, a := true } with
      | some (.global, pa) => some (pa, t.bytes)
      | _ => none

/-- A region is cleared as by FACCCLR (R193, R411). -/
def State.clearRegion (s : State) (part asid : Nat) (t : AccTy) (va n : Nat) (fresh : Bool) : State :=
  (List.range n).foldl (fun s k =>
    match s.engXlat part asid (va + t.bytes * k) { rd := true, w := true, a := true } with
    | some (.global, pa) =>
      let s1 := (s.takeFor (homeDie pa) (lineOf pa) (byteMask (pa % 256) t.bytes)).clearElem pa t
      if fresh then { s1 with fresh := (pa, t.bytes) :: s1.fresh } else s1
    | _ => s) s

/-- The bytes of a range count as brought by no PUT (DESIGN CHOICE, log entry 35). -/
def State.unland (s : State) (part asid va n : Nat) : State :=
  (linePieces va n).foldl (fun s x =>
    match s.engXlat part asid (256 * x.1 + x.2.1) {} with
    | some (.global, pa) => { s with landed := Tab.modify 0 s.landed (lineOf pa) (· &&& ~~~byteMask (pa % 256) x.2.2) }
    | _ => s) s

/-- What ends with a collective (R193) (DESIGN CHOICE, log entry 35). -/
def State.finishColl (s : State) (part asid : Nat) (f : Finish) : State :=
  let s1 := match f.clear with
    | some (t, va, n) => s.clearRegion part asid t va n f.fresh
    | none => s
  s1.unland part asid f.recv.1 f.recv.2

/-- An entry that is complete becomes FREE, or POSTED again with a new threshold, and its counter rises (R180, R183). -/
def State.completeEntry (s : State) (die e : Nat) : State :=
  let x := s.entry die e
  let img := x.img
  let s0 := match x.finish with
    | some f => s.finishColl x.part (entAsid img) f
    | none => s
  let s1 := s0.entryFailed die e x
  let s2 :=
    if x.rearm then s1.setEntry die e { x with st := .posted, thresh := x.thresh + entPeriod img, left := 0, status := 0, noting := false }
    else s1.setEntry die e {}
  let s3 := if entCctr img == 0xFFFF then s2 else s2.raise die (entCctr img) 1
  s3.checkFiring die (entTctr img)

/-- Whether an entry still sends its note: of one that failed, only a collective's step does, so that the collective still completes
(R181, R195) (DESIGN CHOICE, log entry 35). -/
def Entry.notes (x : Entry) : Bool :=
  entNote x.img && (x.status == 0 || x.err.isSome) && !x.noting && (entKind x.img == 1 || entKind x.img == 2 || entKind x.img == 3)

/-- The note of a performed entry: a fenced CADD on the same path (R181, R187). -/
def State.sendNote (s : State) (die e : Nat) : State :=
  let x := s.entry die e
  let s1 := s.setEntry die e { x with noting := true, left := 1 }
  match s1.engXlat x.part (entAsid x.img) (entRaddr x.img) {} with
  | some (sp, _) => if s.pausedAt sp then s else s1.sendCadd ⟨die, x.part, .entry die e⟩ sp (entRctr x.img) 1 true
  | none => s1.answer (.entry die e) NetStatus.perm.num

/-! ### Network instructions as they perform (R184, R444, R445, R449) -/

/-- The bytes that a network instruction reads, or what stands against it. -/
def State.netImage (s : State) (o : PipeOp) (n : Nat) : Except State (List Byte) :=
  let wg := s.wg o.wg
  match o.accs with
  | [] => .ok []
  | a :: _ =>
    match s.placeBad wg.die a.space a.pa n with
    | some k => .error (s.dataCheck o a k)
    | none =>
      if s.placeLost wg.part wg.die a.space a.pa then .error (s.failOp o ⟨.dataCheck, a.lane, a.va / 64 * 64, 1⟩)
      else if s.placeReady a.space a.pa n false then .ok (s.nearBytes wg.die a.space a.pa n)
      else .error (s.placeSeek wg.part a.space a.pa n false)

/-- Handles of an image become counters of the die (R149, R444): REG_RANGE of one that the launch or the partition has not
(DEDUCED, log entry 82). -/
def State.handleTrap (s : State) (wg : Workgroup) (hs : List Nat) : Option Trap :=
  (hs.find? fun k => decide (wg.launch.nctr ≤ k) || s.counterOwner wg.die (wg.launch.ctrBase + k) != wg.part + 1).map fun k =>
    ⟨.regRange, 0xFF, 0, 4 + 256 * (k % 256)⟩

/-- A 16-bit field of an image replaced. -/
def putHalf (img : List Byte) (at_ x : Nat) : List Byte := img.take at_ ++ leBytes 2 x ++ img.drop (at_ + 2)

/-- NPOST performs (R179, R444). -/
def State.runNpost (s : State) (o : PipeOp) (hnd : Bool) (img : List Byte) : State :=
  let wg := s.wg o.wg
  let hs := if hnd then entTctr img :: (if entCctr img == 0xFFFF then [] else [entCctr img]) else []
  match s.handleTrap wg hs with
  | some t => s.failOp o t
  | none =>
    let b := wg.launch.ctrBase
    let img1 := if hnd then putHalf img 2 (b + entTctr img) else img
    let img2 := if hnd && entCctr img != 0xFFFF then putHalf img1 4 (b + entCctr img) else img1
    match s.postAs wg.die wg.part { img := img2, poster := some (o.wg, o.slot, o.fib) } with
    | .ok (s1, e) => s1.netResult o e
    | .error r => s.netResult o r.code

/-- The value of an entry state (R180). -/
def EntState.num : EntState → Nat
  | .free => 0 | .posted => 1 | .queued => 2 | .inflight => 3

/-- NCAN performs (R185, R449). -/
def State.runNcan (s : State) (o : PipeOp) (e : Nat) : State :=
  let wg := s.wg o.wg
  if 16384 ≤ e || s.blockOwner wg.die (e / 256) != wg.part + 1 then s.netResult o 0x80000003
  else
    let x := s.entry wg.die e
    let s1 := match x.st with
      | .free => s
      | .posted => s.setEntry wg.die e {}
      | _ => s.setEntry wg.die e { x with rearm := false }
    s1.netResult o x.st.num

/-- NTRIG performs (R176, R445); a counter that the partition no longer owns is left alone. -/
def State.runNtrig (s : State) (o : PipeOp) (c : Nat) (set : Bool) (v : Nat) : State :=
  let wg := s.wg o.wg
  let s1 :=
    if s.counterOwner wg.die c != wg.part + 1 then s
    else if set then s.setTo wg.die c v
    else s.raise wg.die c v
  s1.endOp o

end Sys2Proof.Machine
end

