-- ==== Sys2Proof/Machine/Jobs.lean ====
section
/-! DEFINITION. Work on lines that waits until it may be done (R68, R84, R181, R186, R242, R249): the stores of the engines, and what
the bank units do at a line's home for the fabric engines and for other modules. -/

namespace Sys2Proof.Machine

/-! ### Those who wait -/

/-- The die of a waiting party. -/
def State.waiterDie (s : State) (w : Waiter) : Nat :=
  match w with
  | .entry die _ => die
  | .cmd core _ => core / 48
  | .op id => match s.pipe.find? fun o => o.id == id with
    | some o => (s.wg o.wg).die
    | none => 0
  | .node h n => match s.netQ.find? fun q => q.2.contains (.node h n) with
    | some q => q.1 / 32
    | none => 0

/-- The partition of a waiting party. -/
def State.waiterPart (s : State) (w : Waiter) : Nat :=
  match w with
  | .entry die e => (s.entry die e).part
  | .cmd .. => (s.wg (s.waiterWg w)).part
  | .op id => match s.pipe.find? fun o => o.id == id with
    | some o => (s.wg o.wg).part
    | none => 0
  | .node h _ => match s.graph h with
    | some g => g.part
    | none => 0

/-- Whether a waiting party still waits: what has been dropped takes no late data (R336). -/
def State.waiting (s : State) (w : Waiter) : Bool :=
  match w with
  | .entry die e => (s.entry die e).st == .inflight
  | .cmd core id => ((s.core core).copyQ ++ (s.core core).matQ).any fun c => c.id == id
  | .op id => s.pipe.any fun o => o.id == id
  | .node h n => match s.graph h with
    | some g => (match g.run with | some r => (r.node n).st == .active | none => false)
    | none => false

/-- Bytes that were asked for arrive: they are written, and the request counts as answered, while a store to global memory is waited for
by itself; a far destination takes a message first (R421). -/
def State.arrived (s : State) (w : Waiter) (dst : Space × Nat) (lane : Nat) (bs : List Byte) : State :=
  if !s.waiting w then s
  else if Space.far dst.1 then s.sendFar (s.waiterPart w) w dst.1 dst.2 lane bs
  else
    (match dst.1 with
     | .localStore => s.writePlace (s.waiterWg w) w .localStore dst.2 bs
     | sp => s.nearWrite (s.waiterDie w) (s.waiterPart w) w sp dst.2 bs).answer w 0

/-- Answer a message's sender. -/
def State.netReply (s : State) (n t : Nat) (m : Msg) (opc arg : Nat) : State := s.sendMsg n t (mkMsg 8 opc m.addr m.mtag arg)

/-! ### What stands against work -/

/-- Whether work adds to exact sums, whose line is pinned first (R242). -/
def LineWork.sums : LineWork → Bool
  | .accp afmt .. => (afmtAcc (field afmt 0 4)).isSome && field afmt 4 3 == 0
  | _ => false

/-- Whether work writes. -/
def LineWork.writes : LineWork → Bool
  | .get .. => false
  | _ => true

/-- Whether work reads values that it answers with or combines. -/
def LineWork.reads : LineWork → Bool
  | .get .. | .atom .. => true
  | .accp afmt .. => field afmt 4 3 != 0
  | _ => false

/-- The bytes of a line that work touches: offset and length. -/
def LineWork.touches : LineWork → List (Nat × Nat)
  | .store pa bs => [(pa % 256, bs.length)]
  | .put mask _ | .accp _ _ mask _ => maskRuns mask
  | .get pa n _ => [(pa % 256, n)]
  | .atom pa afmt .. => [(pa % 256, if bitAt afmt 4 then 8 else 4)]

/-- On whose behalf work is done, as the scopes count agents (R260). -/
def LineJob.agent (j : LineJob) : Agent :=
  match j.tells with
  | .sender .. => .module
  | .waiter (.cmd core _) => .core core
  | .waiter (.entry die _) => .die die
  | .waiter _ => .die j.die

/-- Whether work is kept from its bytes by an order that its agent observes (R261). -/
def State.jobShut (s : State) (j : LineJob) : Bool :=
  j.work.touches.any fun r => s.shut j.agent 0 j.work.reads j.work.writes .global (256 * j.line + r.1) r.2 fun _ _ => false

/-- Whether the line is as work needs it: other modules leave it; an exact sum finds it pinned, and a write in M or E, or served at its
home (R68, R242, R249) (DESIGN CHOICE, log entry 30). -/
def State.jobReady (s : State) (j : LineJob) : Bool :=
  s.podFree j.line j.work.writes &&
  (!j.work.writes || if j.work.sums then (s.home j.line).pinned else s.mayWrite j.die j.line)

/-- Ask for what work on a line still needs: its recall, PIN, or the line (R68, R242, R249). -/
def State.jobSeek (s : State) (j : LineJob) : State :=
  if !s.podFree j.line j.work.writes then s.recall j.line (!j.work.writes) none
  else if !j.work.writes then s
  else if j.work.sums then (if (s.home j.line).pinned then s else s.request .pin j.die j.line 0 j.part)
  else s.seekWrite j.die j.line j.part

/-! ### Doing it -/

/-- What work does, with the bytes that it answers, or why it is refused (R37, R135, R181, R186, R187). -/
def State.jobResult (s : State) (j : LineJob) : Except NetStatus (State × List Byte) :=
  match j.work with
  | .store pa bs => if s.cutOff j.die pa then .error .dataCheck else .ok (s.engineStore j.die pa bs, [])
  | .put mask data => (s.targetPut j.part j.line mask data).map fun s => (s, [])
  | .get pa n _ => s.targetGet j.part pa n
  | .accp afmt img mask data => (s.targetAccp j.part j.line afmt img mask data).map fun s => (s, [])
  | .atom pa afmt opnd cmpv _ =>
    (s.targetAtom j.part pa afmt opnd cmpv).map fun x => (x.1, leBytes (if bitAt afmt 4 then 8 else 4) x.2)

/-- Refusals that do not wait for the line: its contents have no part in them. -/
def LineWork.early (k : LineWork) (e : NetStatus) : Bool :=
  match k with
  | .store .. => true
  | _ => e != .dataCheck && e != .accCapacity

/-- Whether work may be done, or is refused, now. -/
def State.jobGoes (s : State) (j : LineJob) : Bool :=
  !s.jobShut j &&
  (s.jobReady j || match s.jobResult j with
    | .error e => j.work.early e
    | .ok _ => false)

/-- Tell that work has been done, with its bytes. -/
def State.told (s : State) (j : LineJob) (bs : List Byte) : State :=
  match j.tells, j.work with
  | .waiter w, .get _ _ (some d) | .waiter w, .atom _ _ _ _ (some d) => s.arrived w d 255 bs
  | .waiter w, _ => s.answer w 0
  | .sender n t m, .get pa k _ =>
    s.sendMsg n t { mkMsg 8 2 m.addr m.mtag with smask := sectorsOf pa k, data := lineImage (pa % 256) bs }
  | .sender n t m, .atom .. => s.netReply n t m 3 (leNat bs)
  | .sender n t m, _ => s.netReply n t m 1 0

/-- Tell why work was refused; a failing sector is reported (R37). -/
def State.refusedJob (s : State) (j : LineJob) (e : NetStatus) : State :=
  let s1 := if e == .dataCheck then j.work.touches.foldl (fun s r => s.noteBad (256 * j.line + r.1) r.2) s else s
  match j.tells with
  | .waiter w => s1.answer w e.num
  | .sender n t m => s1.netReply n t m 4 e.num

/-- Work is done. -/
def State.doJob (s : State) (j : LineJob) : State :=
  let s1 : State := { s with jobs := s.jobs.erase j }
  match s1.jobResult j with
  | .ok (s2, bs) => s2.told j bs
  | .error e => s1.refusedJob j e

/-- The oldest work on each line: work on a line is done in order. -/
def jobHeads : List LineJob → List LineJob
  | [] => []
  | j :: r => j :: (jobHeads r).filter fun x => x.line != j.line

/-! ### Messages held for it (R187, R261) -/

/-- Whether every earlier request of a port and tag has performed, so that a fenced CADD of theirs may (R187). -/
def State.fenceFree (s : State) (n t : Nat) : Bool :=
  !(s.jobs.any fun j => match j.tells with | .sender k u _ => k == n && u == t | _ => false) &&
  !(s.podHeld.any fun h => h.1 == n && h.2.1 == t && h.2.2.chan == 7 && h.2.2.opc != 5)

/-- The first fenced CADD that waited for its port and tag and need not any more is served again, before what arrives later. -/
def State.fenceStage (s : State) : Option State :=
  (s.podHeld.find? fun h => h.2.2.chan == 7 && h.2.2.opc == 5 && s.fenceFree h.1 h.2.1).map fun h =>
    { s with podHeld := s.podHeld.erase h, inbox := h :: s.inbox }

/-- The first request of another module that an order no longer keeps waiting is served again. -/
def State.shutStage (s : State) : Option State :=
  (s.podShut.find? fun h => !s.msgShut h.2.2).map fun h => { s with podShut := s.podShut.erase h, inbox := h :: s.inbox }

/-- Whether the engine that work is for stands still with its partition (R337). -/
def State.jobFrozen (s : State) (j : LineJob) : Bool :=
  match j.tells with
  | .waiter _ => (s.part j.part).frozen
  | .sender .. => false

/-- The next step of work on lines: what may be done is done; else lines are asked for (R68, R242, R249). -/
def State.jobStage (s : State) : Option State :=
  let hs := (jobHeads s.jobs).filter fun j => !s.jobFrozen j
  match hs.find? s.jobGoes with
  | some j => some (s.doJob j)
  | none => ((hs.map s.jobSeek).find? fun t => t != s).orElse fun _ => s.fenceStage.orElse fun _ => s.shutStage

end Sys2Proof.Machine
end

