-- ==== Sys2Proof/Machine/Collect.lean ====
section
/-! DEFINITION. Collectives (R189 to R196), the events of the network queues (R180 to R184), the release of blocks (R175), and
the service of non-coherent messages (R73, R186, R187). Log entry 35 gives the steps that R193 leaves open. -/

namespace Sys2Proof.Machine

/-! ### The parameter block and the group table (R189, R190) -/

/-- A collective's parameter block (R189). -/
structure Coll where
  op : Nat
  red : Nat
  dtype : Nat
  algo : Nat
  nrank : Nat
  rank : Nat
  tree : Nat
  cctr : Nat
  cbase : Nat
  send : Nat
  recv : Nat
  count : Nat
  scratch : Nat
  group : Nat
  err : Nat
  root : Nat
  asid : Nat
  epoch : Nat
  deriving DecidableEq, Repr

/-- Read a parameter block (R189). -/
def collOf (b : List Byte) : Coll :=
  ⟨leAt b 0 1, leAt b 1 1, leAt b 2 1, leAt b 3 1, leAt b 4 2, leAt b 6 2, leAt b 8 4, leAt b 12 2, leAt b 14 2, leAt b 16 8,
   leAt b 24 8, leAt b 32 8, leAt b 40 8, leAt b 48 8, leAt b 56 8, leAt b 64 2, leAt b 66 2, leAt b 68 4⟩

/-- A rank of the group table (R190). -/
structure Peer where
  rbuf : Nat
  rscr : Nat
  rdie : Nat
  rcbase : Nat
  deriving DecidableEq, Repr

/-- Read a group table (R190). -/
def peersOf (b : List Byte) (n : Nat) : List Peer :=
  (List.range n).map fun i => ⟨leAt b (32 * i) 8, leAt b (32 * i + 8) 8, leAt b (32 * i + 16) 2, leAt b (32 * i + 18) 2⟩

/-- Bytes of an element of a collective (R189). -/
def Coll.esz (c : Coll) : Nat := afmtBytes c.dtype

/-- The algorithm that posting fixes (R191): 0 ring, 1 recursive halving-doubling, 2 tree. -/
def Coll.fixed (c : Coll) : Nat :=
  if c.algo != 3 then c.algo
  else if c.tree != 0 && c.count * c.esz ≤ 65536 then 2
  else if c.nrank == 2 ^ Nat.log2 c.nrank then 1
  else 0

/-- Whether a collective reduces: the others ignore RED (R189). -/
def Coll.reduces (c : Coll) : Bool := c.op == 1 || c.op == 2 || c.op == 5

/-- Whether a collective has a root. -/
def Coll.rooted (c : Coll) : Bool := c.op == 2 || c.op == 3

/-- The checks of a collective's post (R189, R191); the content of reserved bytes is ignored (R9). -/
def Coll.legal (c : Coll) (p : Partition) : Bool :=
  1 ≤ c.op && c.op ≤ 6 && c.dtype ≤ 5 && c.algo ≤ 3 && 2 ≤ c.nrank && c.nrank ≤ 4096 && c.rank < c.nrank &&
  (!c.rooted || c.root < c.nrank) && p.hasAsid c.asid && (!c.reduces || c.red ≤ 5 && accpLegal (c.dtype + 16 * c.red) false) &&
  (c.fixed != 1 || c.nrank == 2 ^ Nat.log2 c.nrank) && (c.fixed != 2 || c.tree != 0)

/-! ### Expansion (R192, R193) -/

/-- What an expansion needs: the block, the die, the ranks, the rises of RS and AG, and the elements of a chunk. -/
structure Plan where
  c : Coll
  die : Nat
  peers : List Peer
  rsRise : Nat
  agRise : Nat
  chunk : Nat

/-- An entry's image (R178). -/
def entryImage (kind flags tctr cctr asid thresh laddr raddr len rctr afmt opnd : Nat) : List Byte :=
  leBytes 1 kind ++ leBytes 1 flags ++ leBytes 2 tctr ++ leBytes 2 cctr ++ leBytes 2 asid ++ leBytes 6 thresh ++ leBytes 2 0 ++
  leBytes 8 laddr ++ leBytes 8 raddr ++ leBytes 4 len ++ leBytes 4 rctr ++ leBytes 6 0 ++ leBytes 1 afmt ++ leBytes 1 0 ++
  leBytes 8 opnd ++ leBytes 8 0

/-- The counter of a phase: RS or AG (R192). -/
def Plan.ctr (p : Plan) (ag : Bool) : Nat := p.c.cbase + b2n ag

/-- The threshold of a step (R192). -/
def Plan.thr (p : Plan) (ag : Bool) (step : Nat) : Nat := p.c.epoch * (if ag then p.agRise else p.rsRise) + step

/-- The address of a byte of this epoch's SCRATCH half, from its base (R192). -/
def Plan.half (p : Plan) (base o : Nat) : Nat := base + p.c.epoch % 2 * (p.c.count * p.c.esz) + o

/-- AFMT of the collective's accumulates. -/
def Plan.afmt (p : Plan) : Nat := p.c.dtype + 16 * p.c.red

/-- FLAGS of an accumulate between ranks: IMG for exact sums, and RNOTE (R193). -/
def Plan.accFlags (p : Plan) (note img : Bool) : Nat := 2 * b2n note + 4 * b2n (img && p.c.dtype ≤ 3 && p.c.red == 0)

/-- The bytes of the longest transfer among a collective's entries. -/
def Coll.longest (c : Coll) : Nat :=
  c.count * c.esz *
    if c.op == 4 then (match c.fixed with | 0 => 1 | 1 => c.nrank / 2 | _ => c.nrank)
    else if c.op == 6 then 0
    else 1

/-- An entry that moves nothing: it raises a counter of this die by a value. -/
def Plan.chain (p : Plan) (ag : Bool) (step : Nat) (ctr v cctr : Nat) : List Byte :=
  entryImage 5 0 (p.ctr ag) cctr p.c.asid (p.thr ag step) 0 0 0 (4096 * p.die + ctr) 0 v

/-- A step within this rank: an accumulate or a PUT; with no bytes, a CADD of its counter in this module, which the rank's own SCRATCH
selects (R193). -/
def Plan.near (p : Plan) (acc ag : Bool) (step src dst len cctr : Nat) : List Byte :=
  if len == 0 then
    entryImage 4 0 (p.ctr ag) 0xFFFF p.c.asid (p.thr ag step) 0 (p.peers.getD p.c.rank ⟨0, 0, 0, 0⟩).rscr 0
      (4096 * p.die + cctr % 4096) 0 1
  else if acc then entryImage 3 0 (p.ctr ag) cctr p.c.asid (p.thr ag step) src dst len 0 p.afmt 0
  else entryImage 1 0 (p.ctr ag) cctr p.c.asid (p.thr ag step) src dst len 0 0 0

/-- A step to another rank, with its note on that rank's counter; with no bytes, the note alone (R193). -/
def Plan.far (p : Plan) (acc ag : Bool) (step src dst len to_ : Nat) (onAg : Bool) : List Byte :=
  let q := p.peers.getD to_ ⟨0, 0, 0, 0⟩
  let rctr := 4096 * (q.rdie % 128) + (q.rcbase + b2n onAg) % 4096
  if len == 0 then entryImage 4 0 (p.ctr ag) 0xFFFF p.c.asid (p.thr ag step) 0 dst 0 rctr 0 1
  else if acc then entryImage 3 (p.accFlags true true) (p.ctr ag) 0xFFFF p.c.asid (p.thr ag step) src dst len rctr p.afmt 0
  else entryImage 1 2 (p.ctr ag) 0xFFFF p.c.asid (p.thr ag step) src dst len rctr 0 0

/-- The elements that chunks stand before: chunk k begins here (R193). -/
def Plan.start (p : Plan) (k : Nat) : Nat :=
  if p.c.op == 4 then k * p.c.count else min p.c.count (k * p.chunk)

/-- Byte offset and length of chunks [k, k + n); a barrier moves none. -/
def Plan.span (p : Plan) (k n : Nat) : Nat × Nat :=
  let lo := p.start k * p.c.esz
  (lo, if p.c.op == 6 then 0 else p.start (k + n) * p.c.esz - lo)

/-- Bytes of a whole contribution. -/
def Plan.all (p : Plan) : Nat := if p.c.op == 6 then 0 else p.c.count * p.c.esz

/-- The step of the partial sums to another rank (R193). -/
def Plan.reduceTo (p : Plan) (step k n to_ : Nat) : List Byte :=
  let x := p.span k n
  p.far true false step (p.half p.c.scratch x.1) (p.half (p.peers.getD to_ ⟨0, 0, 0, 0⟩).rscr x.1) x.2 to_ false

/-- The step of results to another rank (R193). -/
def Plan.gatherTo (p : Plan) (step k n to_ : Nat) : List Byte :=
  let x := p.span k n
  p.far false true step (p.c.recv + x.1) ((p.peers.getD to_ ⟨0, 0, 0, 0⟩).rbuf + x.1) x.2 to_ true

/-- Step 0: this rank's contribution into its own SCRATCH half (R193). -/
def Plan.step0 (p : Plan) : List Byte := p.near true false 0 p.c.send (p.half p.c.scratch 0) p.all (p.ctr false)

/-- The read-out of a chunk into this rank's RECVBUF (R193). -/
def Plan.readOut (p : Plan) (step k n : Nat) : List Byte :=
  let x := p.span k n
  p.near false false step (p.half p.c.scratch x.1) (p.c.recv + x.1) x.2 (p.ctr true)

/-- This rank's own contribution into its RECVBUF, where no sum is taken (R193). -/
def Plan.own (p : Plan) (k n : Nat) : List Byte :=
  let x := p.span k n
  p.near false true 0 p.c.send (p.c.recv + x.1) x.2 (p.ctr true)

/-- A step's entry, and what its source must have taken first: so many contributions, or with 0 the bytes of PUTs; `brought` sends only
such bytes (DESIGN CHOICE, log entry 35). -/
structure PlanStep where
  img : List Byte
  needs : Option Nat := none
  brought : Bool := false

/-- The entries of a collective: its steps, then those that end it, which bring both counters to their full rise (R192). -/
structure Steps where
  steps : List PlanStep
  endAg : Bool
  endStep : Nat
  rsGot : Nat
  agGot : Nat

/-- Steps that wait for their thresholds alone. -/
def plainSteps (xs : List (List Byte)) : List PlanStep := xs.map fun img => { img := img }

/-- Ring (R193): every note comes from one rank and in its order, or from this rank. -/
def Plan.ring (p : Plan) : Steps :=
  let n := p.c.nrank
  let r := p.c.rank
  let succ := (r + 1) % n
  let sums := p.step0 :: (List.range (n - 1)).map fun i => p.reduceTo (i + 1) ((r + n - (i + 1)) % n) 1 succ
  let gathers := (List.range (n - 1)).map fun i => p.gatherTo (i + 1) ((r + n - i) % n) 1 succ
  match p.c.op with
  | 2 =>
    let x := p.span r 1
    if r == p.c.root then ⟨plainSteps (sums ++ [p.readOut n r 1]), true, n, n, n⟩
    else
      ⟨plainSteps <| sums ++ [p.far false false n (p.half p.c.scratch x.1) ((p.peers.getD p.c.root ⟨0, 0, 0, 0⟩).rbuf + x.1) x.2 p.c.root true],
       false, n, n, 0⟩
  | 3 =>
    ⟨plainSteps <| (if r == p.c.root then [p.near false true 0 p.c.send p.c.recv p.all (p.ctr true)] else []) ++
      (if succ == p.c.root then [] else [p.gatherTo 1 0 n succ]), true, 1, 0, 1⟩
  | 4 => ⟨plainSteps (p.own r 1 :: gathers), true, n, 0, n⟩
  | 5 => ⟨plainSteps (sums ++ [p.readOut n r 1]), true, 1, n, 1⟩
  | _ => ⟨plainSteps (sums ++ p.readOut n r 1 :: gathers), true, n, n, n⟩

/-- Trailing zeros of a rank, at most m. -/
def rankZeros (x : Nat) : Nat → Nat
  | 0 => 0
  | m + 1 => if x % 2 == 1 then 0 else 1 + rankZeros (x / 2) m

/-- Recursive halving-doubling (R193): notes come from several ranks, so each step waits for what it sends (R194)
(DESIGN CHOICE, log entry 35). -/
def Plan.halving (p : Plan) : Steps :=
  let m := Nat.log2 p.c.nrank
  let r := p.c.rank
  let z := rankZeros (r ^^^ p.c.root) m
  let block (k : Nat) := r / 2 ^ k * 2 ^ k
  let sums : List PlanStep := { img := p.step0 } :: (List.range m).map fun i =>
    let q := r ^^^ 2 ^ (m - (i + 1))
    { img := p.reduceTo (i + 1) (q / 2 ^ (m - (i + 1)) * 2 ^ (m - (i + 1))) (2 ^ (m - (i + 1))) q, needs := some (i + 1) }
  let own : PlanStep := { img := p.readOut (m + 1) r 1, needs := some (m + 1) }
  let gather (step t : Nat) : PlanStep := { img := p.gatherTo step (block t) (2 ^ t) (r ^^^ 2 ^ t), needs := some 0 }
  let gathers := (List.range m).map fun t => gather (t + 1) t
  match p.c.op with
  | 2 =>
    ⟨sums ++ own :: (if r == p.c.root then [] else [gather (z + 1) z]), true, z + 1, m + 1, z + 1⟩
  | 3 =>
    ⟨plainSteps <| (if r == p.c.root then [p.near false true 0 p.c.send p.c.recv p.all (p.ctr true)] else []) ++
      (List.range z).map fun k => p.gatherTo 1 0 p.c.nrank (r ^^^ 2 ^ (z - 1 - k)), true, 1, 0, 1⟩
  | 4 => ⟨{ img := p.own r 1 } :: gathers, true, m + 1, 0, m + 1⟩
  | 5 => ⟨sums ++ [own], true, 1, m + 1, 1⟩
  | _ => ⟨sums ++ own :: gathers, true, m + 1, m + 1, m + 1⟩

/-- Tree, with the ranks of the parent and the children (R193): REDSCAT takes the steps of ALLREDUCE, since a root that passes its buffer
on knows no rank's chunk; the ranks of ALLGATHER bring their chunks up, each with what its children brought
(DESIGN CHOICE, log entry 35). -/
def Plan.tree (p : Plan) (parent : Option Nat) (children : List Nat) : Steps :=
  let d := children.length
  let n := p.c.nrank
  let down := children.map fun k => p.gatherTo 1 0 n k
  let x := p.span p.c.rank 1
  let mine := p.near false false 0 p.c.send (p.c.recv + x.1) x.2 (p.ctr false)
  match p.c.op, parent with
  | 3, none => ⟨plainSteps (p.near false true 0 p.c.send p.c.recv p.all (p.ctr true) :: down), true, 1, 0, 1⟩
  | 3, some _ => ⟨plainSteps down, true, 1, 0, 1⟩
  | 2, none => ⟨plainSteps [p.step0, p.readOut (d + 1) 0 n], true, 1, d + 1, 1⟩
  | 2, some q => ⟨plainSteps [p.step0, p.reduceTo (d + 1) 0 n q], false, d + 1, d + 1, 0⟩
  | 4, none => ⟨plainSteps (mine :: p.near false false (d + 1) 0 0 0 (p.ctr true) :: down), true, 1, d + 1, 1⟩
  | 4, some q =>
    let up := p.far false false (d + 1) p.c.recv (p.peers.getD q ⟨0, 0, 0, 0⟩).rbuf (p.span 0 n).2 q false
    ⟨{ img := mine } :: { img := up, brought := true } :: plainSteps down, true, 1, d + 1, 1⟩
  | _, none => ⟨plainSteps (p.step0 :: p.readOut (d + 1) 0 n :: down), true, 1, d + 1, 1⟩
  | _, some q => ⟨plainSteps (p.step0 :: p.reduceTo (d + 1) 0 n q :: down), true, 1, d + 1, 1⟩

/-- The type whose clearing leaves +0 in an element of a collective (R193). -/
def Coll.clearTy (c : Coll) : AccTy :=
  match afmtAcc c.dtype with
  | some t => t
  | none => if c.dtype == 5 then .f64 else .f32

/-- Bytes of a rank's RECVBUF (R189). -/
def Plan.recvBytes (p : Plan) : Nat := if p.c.op == 4 then p.c.nrank * (p.c.count * p.c.esz) else p.all

/-- What a step waits for: the places of its source, and the counter value at which every note has come (R194)
(DESIGN CHOICE, log entry 35). -/
def State.gateOf (s : State) (part : Nat) (p : Plan) (x : PlanStep) : Option Gate :=
  x.needs.map fun n =>
    { full := p.thr (entTctr x.img == p.ctr true) (if entTctr x.img == p.ctr true then p.agRise else p.rsRise)
      parts := (pagePieces (entLaddr x.img) (entLen x.img)).filterMap fun r =>
        match s.engXlat part p.c.asid r.1 {} with
        | some (.global, pa) => some (pa, r.2, p.c.esz, n)
        | _ => none }

/-- All entries: the steps, the entry that clears the SCRATCH half, and the one that raises CCTR (R193)
(DESIGN CHOICE, log entry 35). -/
def State.planEntries (s : State) (part : Nat) (p : Plan) (x : Steps) : List Entry :=
  let plain (img : List Byte) : Entry := { img := img, err := some (p.c.err, p.c.rank), errCtr := p.c.cctr, tree := p.c.tree }
  let last1 := p.chain x.endAg x.endStep (p.ctr true) (p.agRise - x.agGot) 0xFFFF
  let last2 := p.chain x.endAg x.endStep (p.ctr false) (p.rsRise - x.rsGot) p.c.cctr
  let fin : Finish :=
    { clear := if p.c.reduces then some (p.c.clearTy, p.half p.c.scratch 0, p.c.count) else none
      fresh := 1 ≤ p.c.red && p.c.red ≤ 3
      recv := (p.c.recv, p.recvBytes) }
  x.steps.map (fun y => { plain y.img with gate := s.gateOf part p y, brought := y.brought }) ++
    [{ plain last1 with finish := some fin }, plain last2]

/-- Before its steps, a collective that reduces forgets what PUTs brought to its RECVBUF; and before the first two on its counters, the
elements of both halves that have taken nothing take their next contribution as it is, where +0 would count as one (R192, R194)
(DESIGN CHOICE, log entry 35). -/
def State.openColl (s : State) (part : Nat) (c : Coll) : State :=
  if !c.reduces then s
  else
    let s1 := s.unland part c.asid c.recv (c.count * c.esz)
    if 1 < c.epoch || !(1 ≤ c.red && c.red ≤ 3) then s1
    else
      (List.range (2 * c.count)).foldl (fun s k =>
        match s.engXlat part c.asid (c.scratch + c.esz * k) {} with
        | some (.global, pa) =>
          if Tab.get 0 s.sums pa == 0 && !s.fresh.contains (pa, c.esz) then { s with fresh := (pa, c.esz) :: s.fresh } else s
        | _ => s) s1

/-- Why a collective is not posted (R191, R448). -/
inductive CollFail where
  | refused (r : Refused)
  | noSlot (tree : Nat)
  | bad (va sector : Nat)
  | wait (s : State)

/-- The rank whose buffer lies in a module (R193, R196). -/
def State.rankOf (s : State) (part : Nat) (c : Coll) (peers : List Peer) (m : Nat) : Option Nat :=
  (List.range peers.length).find? fun i =>
    match s.engXlat part c.asid (peers.getD i ⟨0, 0, 0, 0⟩).rscr {} with
    | some (sp, _) => Space.module? sp == some m
    | none => false

/-- The entries of a collective by its algorithm (R192, R193); none where a tree names a module of no rank. -/
def State.planOf (s : State) (part die : Nat) (c : Coll) (peers : List Peer) : Option (List Entry) :=
  let n := c.nrank
  let base : Plan := ⟨c, die, peers, n, n, (c.count + n - 1) / n⟩
  let m := Nat.log2 n
  match c.fixed with
  | 1 => let p := { base with rsRise := m + 1, agRise := m + 1 }
    some (s.planEntries part p p.halving)
  | 2 =>
    match s.trees.find? fun t => t.id == c.tree && t.part == part with
    | none => none
    | some t =>
      let kids := t.children.filterMap fun k => s.rankOf part c peers k.1
      let up := t.parent.map fun k => s.rankOf part c peers k.1
      let p := { base with rsRise := t.children.length + 1, agRise := 2 }
      if kids.length != t.children.length then none
      else
        match up with
        | some none => none
        | some (some q) => some (s.planEntries part p (p.tree (some q) kids))
        | none => some (s.planEntries part p (p.tree none kids))
  | _ => some (s.planEntries part base base.ring)

/-- Post every entry, or none (R448). -/
def State.postAll (s : State) (die part : Nat) : List Entry → Except Refused State
  | [] => .ok s
  | x :: xs =>
    match s.postAs die part x with
    | .ok (s1, _) => s1.postAll die part xs
    | .error r => .error r

/-- The group table's pieces, translated (R190). -/
def State.tablePieces (s : State) (part : Nat) (c : Coll) : Option (List Piece) :=
  s.xlatPieces part c.asid c.group c.group { rd := true } { rd := true } (transferPieces c.group c.group (32 * c.nrank))

/-- Post a collective (R191, R192, R448): the state and the number of entries. A transfer that no entry's LEN can hold is refused
(R178) (DESIGN CHOICE, log entry 35). -/
def State.postColl (s : State) (die part : Nat) (b : List Byte) : Except CollFail (State × Nat) :=
  let c := collOf b
  if !c.legal (s.part part) || 2 ^ 32 ≤ c.longest then .error (.refused .badEntry)
  else if 2 ≤ c.algo && c.tree != 0 && !(s.trees.any fun t => t.id == c.tree && t.part == part) then .error (.noSlot c.tree)
  else
    match s.tablePieces part c with
    | none => .error (.refused .badEntry)
    | some ps =>
      if ps.any fun p => !p.lsp.nearRead then .error (.refused .badEntry)
      else if !(ps.all fun p => s.placeReady p.lsp p.lpa p.n false) then
        .error (.wait (ps.foldl (fun s p => s.placeSeek part p.lsp p.lpa p.n false) s))
      else
        match ps.findSome? fun p => (s.placeBad die p.lsp p.lpa p.n).map fun k => (p, k) with
        | some (p, k) => .error (.bad ((c.group + p.off) / 64 * 64) k)
        | none =>
          let peers := peersOf (ps.flatMap fun p => s.nearBytes die p.lsp p.lpa p.n) c.nrank
          match s.planOf part die c peers with
          | none => .error (.refused .badEntry)
          | some es =>
            match (s.openColl part c).postAll die part es with
            | .ok s1 => .ok (s1, es.length)
            | .error r => .error (.refused r)

/-- NCOLL performs (R448). -/
def State.runNcoll (s : State) (o : PipeOp) (hnd : Bool) (b : List Byte) : State :=
  let wg := s.wg o.wg
  let hs := if hnd then [leAt b 12 2, leAt b 14 2, leAt b 14 2 + 1] else []
  match s.handleTrap wg hs with
  | some t => s.failOp o t
  | none =>
    let k := wg.launch.ctrBase
    let b1 := if hnd then putHalf (putHalf b 12 (k + leAt b 12 2)) 14 (k + leAt b 14 2) else b
    match s.postColl wg.die wg.part b1 with
    | .ok (s1, n) => s1.netResult o n
    | .error (.refused r) => s.netResult o r.code
    | .error (.noSlot t) => s.failOp o ⟨.noSlot, 0xFF, 0, t⟩
    | .error (.bad va k) => (s.reportSector k).failOp o ⟨.dataCheck, 0xFF, va, 0⟩
    | .error (.wait s1) => s1

/-! ### Copy and collective nodes on a network queue (R153, R155) -/

/-- The body of a COPY or COLL node: bytes 64 onward (R143, R153). -/
def nodeBody (g : Graph) (node n : Nat) : List Byte := Memory.bytes g.bytes (node + 64) n

/-- A COPY node's transfer: translated, checked, and sent (R153, R155). -/
def State.issueCopyNode (s : State) (die part h node : Nat) (b : List Byte) : State :=
  let src := leAt b 0 8
  let dst := leAt b 8 8
  let done (s : State) (st : Nat) : State := s.modNode h node fun x => { x with sent := true, left := 0, status := firstStatus x.status st }
  let who : Waiter := .node h node
  match s.xlatPieces part (leAt b 24 2) src dst { rd := true } { w := true } (transferPieces src dst (leAt b 16 8)) with
  | none => done s 7
  | some ps =>
    let bad := ps.any fun p =>
      !(p.lsp.nearRead || Space.far p.lsp) || !(p.rsp.nearWrite || Space.far p.rsp) ||
      s.placeLost part die p.lsp p.lpa || s.placeLost part die p.rsp p.rpa ||
      (p.lsp == .host && (match s.hostTarget part p.lpa p.n with | .error _ => true | .ok _ => false)) ||
      (p.rsp == .host && (match s.hostTarget part p.rpa p.n with | .error _ => true | .ok _ => false))
    if ps.any fun p => s.pausedAt p.lsp || s.pausedAt p.rsp then s
    else if bad then done s 7
    else
      match ps.findSome? fun p => s.placeBad die p.lsp p.lpa p.n with
      | some k => done (s.reportSector k) 7
      | none =>
        let us := ps.flatMap fun p => [(p.lsp, p.lpa, p.n, false), (p.rsp, p.rpa, p.n, true)]
        if us.all fun u => s.placeReady u.1 u.2.1 u.2.2.1 u.2.2.2 then
          let out := (ps.filter fun p => Space.far p.lsp || Space.far p.rsp).length
          let hosts := s.readHosts part (ps.flatMap fun p =>
            (if p.lsp == .host then [p.lpa] else []) ++ if p.rsp == .host then [p.rpa] else [])
          let s1 := s.modNode h node fun x => { x with sent := true, left := out, hosts := hosts }
          ps.foldl (fun s p =>
            if Space.far p.lsp then s.fetchFar part who p.lsp p.lpa p.n 255 (p.rsp, p.rpa)
            else if Space.far p.rsp then s.sendFar part who p.rsp p.rpa 255 (s.nearBytes die p.lsp p.lpa p.n)
            else s.nearWrite die part who p.rsp p.rpa (s.nearBytes die p.lsp p.lpa p.n)) s1
        else us.foldl (fun s u => s.placeSeek part u.1 u.2.1 u.2.2.1 u.2.2.2) s

/-- A COLL node's post, as NCOLL posts (R153, R191, R195): a refusal ends the node with BADNODE. -/
def State.issueCollNode (s : State) (die part h node : Nat) (b : List Byte) : State :=
  let c := collOf b
  match s.postColl die part b with
  | .ok (s1, _) =>
    (s1.popNet die part).modNode h node fun x => { x with sent := true, target := some (die, c.cctr, (s.counter die c.cctr).value.toNat + 1) }
  | .error (.wait s1) => s1
  | .error (.bad _ k) => ((s.reportSector k).popNet die part).modNode h node fun x => { x with sent := true, status := firstStatus x.status 6 }
  | .error _ => (s.popNet die part).modNode h node fun x => { x with sent := true, status := firstStatus x.status 6 }

/-- A graph node at the head of a queue. -/
def State.issueNode (s : State) (die part h node : Nat) : State :=
  match s.graph h with
  | none => s.popNet die part
  | some g =>
    match g.run with
    | none => s.popNet die part
    | some r =>
      if (r.node node).sent then s
      else if leAt (Memory.bytes g.bytes node 2) 0 1 == 2 then s.issueCopyNode die part h node (nodeBody g node 64)
      else s.issueCollNode die part h node (nodeBody g node 128)

/-! ### Events of the network queues -/

/-- A network instruction at the head of its queue performs (R184, R443) (DESIGN CHOICE, log entry 72). -/
def State.runNet (s : State) (die part : Nat) (o : PipeOp) : State :=
  let popped := s.popNet die part
  match o.kind with
  | .npost hnd (some img) => popped.runNpost o hnd img
  | .npost hnd none => match s.netImage o 64 with
    | .ok img => popped.runNpost o hnd img
    | .error s1 => if s1.pipe.any fun x => x.id == o.id then s1 else s1.popNet die part
  | .ntrig c set v => popped.runNtrig o c set v
  | .ncan e => popped.runNcan o e
  | .ncoll hnd => match s.netImage o 128 with
    | .ok b =>
      let s1 := s.runNcoll o hnd b
      if s1.pipe.any fun x => x.id == o.id then s1 else s1.popNet die part
    | .error s1 => if s1.pipe.any fun x => x.id == o.id then s1 else s1.popNet die part
  | _ => popped

/-- Workgroups that have ended leave once their network operations have performed (R336) (DESIGN CHOICE, log entry 66). -/
def State.sweepEnded (s : State) : State :=
  { s with wgs := s.wgs.filter fun x =>
      match x.2 with
      | some w => w.place != .ended || s.pipe.any fun o => o.wg == x.1
      | none => false }

/-- ENTRY_ISSUE (R180 to R182, R184): the head of a partition's network queue on a die (DESIGN CHOICE, log entry 71). -/
def execEntryIssue (die part : Nat) (s : State) : Answer :=
  .next (
    if (s.part part).frozen then s
    else
      match s.net die part with
      | [] => s
      | .entry e :: _ => if (s.entry die e).st == .queued then s.issueEntry die e else s
      | .op id :: _ =>
        match s.pipe.find? fun o => o.id == id with
        | some o => (s.runNet die part o).sweepEnded
        | none => s.popNet die part
      | .node h n :: _ => s.issueNode die part h n)

/-- The end of a release: entries freed, counters zeroed, blocks free (R175). -/
def State.endRelease (s : State) (r : Release) : State :=
  let s1 := r.blocks.foldl (fun (s : State) b =>
    { s with
      entries := Tab.clearRange s.entries (16384 * r.die + 256 * b) 256
      counters := Tab.clearRange s.counters (4096 * r.die + 64 * b) 64
      ctrBlocks := Tab.set 0 s.ctrBlocks (64 * r.die + b) 0 }) s
  State.respondTo { s1 with releases := s1.releases.filter fun x => x != r } r.cmd .ok

/-- Whether no entry of a release's blocks is queued or in flight (R175). -/
def State.releaseReady (s : State) (r : Release) : Bool :=
  !(s.entries.any fun x =>
    x.1 / 16384 == r.die && r.blocks.contains (x.1 % 16384 / 256) && (x.2.st == .queued || x.2.st == .inflight))

/-- ENTRY_COMPLETE (R180, R181, R183): the head of a network queue whose messages are all answered. -/
def execEntryComplete (die part : Nat) (s : State) : Answer :=
  .next (
    if (s.part part).frozen then s
    else
      match s.net die part with
      | .entry e :: _ =>
        let x := s.entry die e
        if x.st != .inflight || x.left != 0 then s
        else if x.notes then s.sendNote die e
        else
          let ps := s.clearPlaces x
          if ps.all fun p => s.storeReady (homeDie p.1) p.1 p.2 then (s.popNet die part).completeEntry die e
          else ps.foldl (fun s p => s.seekStores (homeDie p.1) part p.1 p.2) s
      | .node h n :: _ =>
        match s.graph h with
        | some g =>
          match g.run with
          | some r => if (r.node n).sent && (r.node n).left == 0 then s.popNet die part else s
          | none => s
        | none => s
      | _ => s)

/-- Entries of blocks under release that are in flight become FREE on completion (R175). -/
def State.stopRearm (s : State) (r : Release) : State :=
  { s with entries := s.entries.filterMap fun x =>
      if x.1 / 16384 == r.die && r.blocks.contains (x.1 % 16384 / 256) then
        (match x.2.st with
         | .free | .posted => none
         | _ => some (x.1, { x.2 with rearm := false }))
      else some x }

/-- BLOCK_RELEASE (R175): the releases of a partition on a die whose entries have all ended
(DESIGN CHOICE, log entry 2). -/
def execBlockRelease (die part : Nat) (s : State) : Answer :=
  .next ((s.releases.filter fun r => r.die == die && r.part == part && s.releaseReady r).foldl State.endRelease s)

/-! ### Requests from other modules (R73, R187) -/

/-- A request on memory of this module is to be done at the line's home; one whose bytes failed on the way is refused (R37, R68, R187). -/
def State.serveNet (s : State) (n t : Nat) (m : Msg) (work : LineWork) : State :=
  match s.msgPart n t with
  | none => s.netReply n t m 4 NetStatus.perm.num
  | some p =>
    if !m.intact then (s.linkCheck m.addr).netReply n t m 4 NetStatus.dataCheck.num
    else s.addJob ⟨homeDie m.addr, p, lineOf m.addr, work, .sender n t m⟩

/-- NREQ_PUT (R186). -/
def execNreqPut (s : State) : Answer :=
  .next (
    match s.takeMsg 7 1 with
    | none => s
    | some (n, t, m, s1) => s1.serveNet n t m (.put m.mask m.data))

/-- NREQ_GET (R186). -/
def execNreqGet (s : State) : Answer :=
  .next (
    match s.takeMsg 7 2 with
    | none => s
    | some (n, t, m, s1) => s1.serveNet n t m (.get m.addr (m.arg.toNat % 2 ^ 32) none))

/-- NREQ_ATOM (R186). -/
def execNreqAtom (s : State) : Answer :=
  .next (
    match s.takeMsg 7 3 with
    | none => s
    | some (n, t, m, s1) => s1.serveNet n t m (.atom m.addr (m.arg.toNat % 256) (leAt m.data 0 8) (leAt m.data 8 8) none))

/-- Whether a message is the first part of an F64 element's images (R186; DEDUCED, log entry 31). -/
def firstPart (m : Msg) : Bool := m.images && m.arg.toNat % 16 == 3 && m.smask == 0xF

/-- Serve an ACCP (R186, R188). -/
def State.serveAccp (s : State) (n t : Nat) (m : Msg) (data : List Byte) : State :=
  s.serveNet n t m (.accp (m.arg.toNat % 128) (m.arg.getLsbD 7) m.mask data)

/-- NREQ_ACCP (R186, R188): the second part of an F64 element's images joins the first. -/
def execNreqAccp (s : State) : Answer :=
  .next (
    match s.takeMsg 7 4 with
    | none => s
    | some (n, t, m, s1) =>
      if firstPart m then s1.holdMsg n t m
      else
        match if m.images then s1.heldWith m firstPart else none with
        | some h => { s1 with podHeld := s1.podHeld.erase h }.serveAccp n t
            (if h.2.2.intact then m else h.2.2) (h.2.2.data ++ m.data)
        | none => s1.serveAccp n t m m.data)

/-- NREQ_CADD (R176, R187): a fenced one waits for the earlier requests of its port and tag. -/
def execNreqCadd (s : State) : Answer :=
  .next (
    match s.takeMsg 7 5 with
    | none => s
    | some (n, t, m, s1) =>
      if m.arg.getLsbD 48 && !s1.fenceFree n t then s1.holdMsg n t m
      else
        match s1.msgPart n t with
        | none => s1.netReply n t m 4 NetStatus.perm.num
        | some p =>
          match s1.targetCadd p (m.addr / 4096) (m.addr % 4096) (m.arg.toNat % 2 ^ 48) with
          | .ok s2 => s2.netReply n t m 1 0
          | .error e => s1.netReply n t m 4 e.num)

/-! ### Answers from other modules (R73) -/

/-- Take an answer with the request that it answers (DESIGN CHOICE, log entry 26). -/
def State.takeAnswer (s : State) (opc : Nat) : Option (State × Option NetReq × Msg) :=
  match s.takeMsg 8 opc with
  | none => none
  | some (n, t, m, s1) =>
    match s1.netReqs.find? fun r => r.port == n && r.ttag == t && r.mtag == m.mtag && r.held.isEmpty with
    | some r => some ({ s1 with netReqs := s1.netReqs.erase r }, some r, m)
    | none => some (s1, none, m)

/-- An answer without data. -/
def ackEvent (opc : Nat) (status : Msg → Nat) (s : State) : Answer :=
  .next (
    match s.takeAnswer opc with
    | none => s
    | some (s1, none, _) => s1
    | some (s1, some r, m) =>
      let s2 := s1.answer r.who (status m) r.lane r.va
      match r.who with
      | .op id => s2.finishOp id
      | _ => s2)

/-- NRSP_ACK (R73). -/
def execNrspAck (s : State) : Answer := ackEvent 1 (fun _ => 0) s

/-- NRSP_GDATA (R73, R181). -/
def execNrspGdata (s : State) : Answer :=
  .next (
    match s.takeAnswer 2 with
    | none => s
    | some (s1, none, _) => s1
    | some (s1, some r, m) =>
      if !m.intact then (s1.linkCheck m.addr).answer r.who NetStatus.dataCheck.num r.lane r.va
      else
        match r.dst with
        | some d => s1.arrived r.who d r.lane (byteSlice m.data (m.addr % 256) r.len)
        | none => s1.answer r.who 0)

/-- NRSP_ARSP (R73, R181): the old value of an ATOM. -/
def execNrspArsp (s : State) : Answer :=
  .next (
    match s.takeAnswer 3 with
    | none => s
    | some (s1, none, _) => s1
    | some (s1, some r, m) =>
      match r.dst with
      | some d => s1.arrived r.who d r.lane (leBytes r.len m.arg.toNat)
      | none => s1.answer r.who 0)

/-- NRSP_NERR (R73, R183, R409). -/
def execNrspNerr (s : State) : Answer :=
  match s.inbox with
  | (_, _, m) :: _ =>
    match m.chan == 8 && m.opc == 4, s.podReqs.find? fun r => r.mtag == m.mtag && r.line == m.addr / 256 with
    | true, some r => .next (State.podRefused { s with inbox := s.inbox.drop 1 } r)
    | _, _ => ackEvent 4 (fun m => m.arg.toNat % 256) s
  | [] => .next s

end Sys2Proof.Machine
end

