-- ==== Sys2Proof/Machine/Host.lean ====
section
/-! DEFINITION. The Ethernet port and RoCEv2 (R76 to R87, R108): frames, host access to device memory through windows, and the
answers of hosts to device transfers. -/

namespace Sys2Proof.Machine

/-! ### Frames and the link (R76 to R78) -/

/-- The MAC address of a function (R78) (DEDUCED, log entry 109). -/
def funcMac (fn : Nat) : BitVec 48 := Config.baseMac + BitVec.ofNat 48 fn

/-- Whether a MAC address belongs to a function; every function answers something, so each counts as enabled (R77 to R79)
(DEDUCED, log entry 109). -/
def ownMac (mac : BitVec 48) : Bool := (List.range 64).any fun f => funcMac f == mac

/-- ETHERNET_FRAME_DISCARD (R77): malformed, too long, or addressed to no enabled function (DEDUCED, log entry 109). -/
def execEthernetFrameDiscard (malformed : Bool) (length : Nat) (mac : BitVec 48) (s : State) : Answer :=
  .next (
    if !s.base.ethDown && (malformed || 9216 < length || !ownMac mac) then
      { s with base := { s.base with ethDiscards := s.base.ethDiscards + 1 } }
    else s)

/-- ARP (R77). -/
def execArp (fn ip : Nat) (s : State) : Answer :=
  .next (if !s.base.ethDown && fn < 64 && (s.func fn).ip4 == ip then s.send (.arpReply fn ip) else s)

/-- NEIGHBOUR_DISCOVERY (R77). -/
def execNeighbourDiscovery (fn ip : Nat) (s : State) : Answer :=
  .next (if !s.base.ethDown && fn < 64 && (s.func fn).ip6 == ip then s.send (.neighbourReply fn ip) else s)

/-- What waits leaves, once it may (R76, R77) (DESIGN CHOICE, log entry 92). -/
def State.flushEth (s : State) : State := s.ethWait.foldl State.send { s with ethWait := [] }

/-- PRIORITY_FLOW_CONTROL (R77): on the priorities that the hypervisor has enabled; the port sends nothing while its priority is
paused (DESIGN CHOICE, log entry 110). -/
def execPriorityFlowControl (prio : Nat) (pause : Bool) (s : State) : Answer :=
  .next (
    if s.base.ethDown || 8 ≤ prio || !s.base.pfc.getLsbD prio then s
    else
      let m : Byte := 1#8 <<< prio
      State.flushEth
        { s with base := { s.base with pauses := if pause then s.base.pauses ||| m else s.base.pauses &&& ~~~m } })

/-- ETHERNET_LINK_DOWN (R76): exchanges wait, and a pause of the link partner ends. -/
def execEthernetLinkDown (s : State) : Answer := .next { s with base := { s.base with ethDown := true, pauses := 0 } }

/-- ETHERNET_LINK_UP (R76): what waited leaves, after the requests still outstanding, which are retried. -/
def execEthernetLinkUp (s : State) : Answer :=
  .next (
    if !s.base.ethDown then s
    else
      let s1 : State := { s with base := { s.base with ethDown := false }, ethWait := [] }
      s.ethWait.foldl State.send ((s.hostOps.filter fun o => o.sent && !s.ethWait.contains o.msg).foldl (fun s o => s.sendHostMsg o.msg) s1))

/-! ### Congestion (R82) -/

/-- A packet marked by ECN has come on a queue pair: a CNP goes back, at most one in 4 µs, which are 6,400 ticks (R82). -/
def State.marked (s : State) (fn qp : Nat) (ecn : Bool) : State :=
  if !ecn || 64 ≤ fn || 1024 ≤ qp then s
  else
    match (s.qp fn qp).lastCnp with
    | some t => if s.tick < t + 6400 then s else (s.modQp fn qp fun x => { x with lastCnp := some s.tick }).send (.cnp fn qp)
    | none => (s.modQp fn qp fun x => { x with lastCnp := some s.tick }).send (.cnp fn qp)

/-! ### Host access to device memory (R83 to R85) -/

/-- Why a request fails a window check: a partition event names the entry, the address and the reason (R83, R100). -/
structure Denied where
  entry : Nat
  reason : Nat

/-- The memory that a request reaches: physical address and length of each piece in a page (R83)
(DEDUCED, log entry 37) (DEDUCED, log entry 99). -/
def State.windowPieces (s : State) (part : Nat) (q : RdmaReq) (n perm : Nat) (need : Need) : Except Denied (List (Nat × Nat)) :=
  match (s.func q.func).windows.find? fun x => match x.2 with | some w => w.key == q.key | none => false with
  | some (e, some w) =>
    if q.va < w.base || w.base + w.len < q.va + n then .error ⟨e, 2⟩
    else if !w.perms.getLsbD perm then .error ⟨e, 3⟩
    else
      (pagePieces q.va n).foldr (fun x acc =>
        match acc, s.engXlat part w.asid x.1 need with
        | .ok ps, some (.global, pa) => .ok ((pa, x.2) :: ps)
        | .ok _, _ => .error ⟨e, 4⟩
        | .error d, _ => .error d) (.ok [])
  | _ => .error ⟨0xFFFF, 1⟩

/-- A refused request: NAK for remote access error, and ACCESS to the event function (R83, R100; DEDUCED, log entry 37). -/
def State.denyAccess (s : State) (part : Nat) (q : RdmaReq) (d : Denied) : State :=
  (s.partEvent part 0x0001
    (leBytes 1 q.func ++ leBytes 1 0 ++ leBytes 2 d.entry ++ leBytes 8 q.va ++ leBytes 1 d.reason)).send (.nakAccess q.func q.qp)

/-- The failing sector among pieces that are read. -/
def State.badPiece (s : State) (ps : List (Nat × Nat)) : Option Nat := ps.findSome? fun x => s.badSector x.1 x.2

/-- A read that meets a failing sector: NAK for remote operational error, and the first detection is reported (R37, R84). -/
def State.nakSector (s : State) (q : RdmaReq) (k : Nat) : State := (s.reportSector k).send (.nakOperational q.func q.qp)

/-- A host's 64-bit atomic at the home slice (R84); one whose home cannot be reached answers as a failing sector does
(DESIGN CHOICE, log entry 111). -/
def State.hostAtomic (s : State) (q : RdmaReq) (ps : List (Nat × Nat)) (new : Nat → Nat) : State :=
  match s.badPiece ps, ps with
  | some k, _ => s.nakSector q k
  | none, (pa, _) :: _ =>
    let old := s.numAt pa 8
    if s.homeGone pa then s.send (.nakOperational q.func q.qp)
    else (s.engineStore (homeDie pa) pa (leBytes 8 (new old))).send (.atomicResp q.func q.qp old)
  | none, [] => s

/-- The parts of a write that one line holds: offset in its data, address, length. -/
def RdmaHeld.parts (h : RdmaHeld) : List (Nat × Nat × Nat) :=
  (h.pieces.foldl (fun (x : List (Nat × Nat × Nat) × Nat) p =>
    (x.1 ++ (linePieces p.1 p.2).map (fun l => (x.2 + (256 * l.1 + l.2.1 - p.1), 256 * l.1 + l.2.1, l.2.2)), x.2 + p.2)) ([], 0)).1

/-- The parts of a write that are still to be stored. -/
def RdmaHeld.left (h : RdmaHeld) : List (Nat × Nat × Nat) := h.parts.drop h.done

/-- Parts of a write are stored at their homes in order, up to the first whose line is not there yet (R68, R84, R249). -/
def State.writeParts (s : State) (data : List Byte) : List (Nat × Nat × Nat) → State × List (Nat × Nat × Nat)
  | [] => (s, [])
  | x :: r =>
    if s.storeReady (homeDie x.2.1) x.2.1 x.2.2 then
      (s.engineStore (homeDie x.2.1) x.2.1 ((data.drop x.1).take x.2.2)).writeParts data r
    else (s, x :: r)

/-- A request performs on the memory that its window check gave it, and is acknowledged (R83 to R85); what is left of it when a line of a
write is not there yet. A lost home answers as a failing sector does (DESIGN CHOICE, log entry 111). -/
def State.performRdma (s : State) (h : RdmaHeld) : State × Option RdmaHeld :=
  let q := h.req
  let ps := h.pieces
  match h.kind with
  | .write =>
    if ps.any fun p => s.homeGone p.1 then (s.send (.nakOperational q.func q.qp), none)
    else
      match s.writeParts q.data h.left with
      | (s1, []) => (s1.send (.ack q.func q.qp), none)
      | (s1, r) => (s1, some { h with done := h.parts.length - r.length })
  | .read =>
    match s.badPiece ps with
    | some k => (s.nakSector q k, none)
    | none =>
      ((mtuPieces (ps.flatMap fun p => s.bytesAt p.1 p.2)).foldl (fun s p => s.send (.readResp q.func q.qp p.2)) s, none)
  | .compareSwap => (s.hostAtomic q ps fun old => if old == q.cmp.toNat then q.opnd.toNat else old, none)
  | .fetchAdd => (s.hostAtomic q ps fun old => (old + q.opnd.toNat) % 2 ^ 64, none)

/-- Whether a kind of request writes memory. -/
def RdmaKind.writes : RdmaKind → Bool
  | .read => false
  | _ => true

/-- The permission bit of a window that a request needs (R83). -/
def RdmaKind.perm : RdmaKind → Nat
  | .read => 0
  | .write => 1
  | .compareSwap | .fetchAdd => 2

/-- The permissions of the pages that a request needs (R83, R255). -/
def RdmaKind.need : RdmaKind → Need
  | .read => { rd := true }
  | .write => { w := true }
  | .compareSwap | .fetchAdd => { rd := true, w := true, a := true }

/-- The bytes that a request reaches. -/
def RdmaKind.bytes (k : RdmaKind) (q : RdmaReq) : Nat :=
  match k with
  | .read => q.len
  | .write => q.data.length
  | .compareSwap | .fetchAdd => 8

/-- What a request stores next: the rest of a write, or an atomic's bytes. -/
def RdmaHeld.stores (h : RdmaHeld) : List (Nat × Nat) :=
  match h.kind with
  | .read => []
  | .write => h.left.map (·.2)
  | .compareSwap | .fetchAdd => h.pieces

/-- Whether a request may go on now: a read once other modules leave its lines, a write or an atomic once its home die may store to the
next of them, and either at once where a home cannot be reached (R68, R249). -/
def State.rdmaFree (s : State) (h : RdmaHeld) : Bool :=
  match h.kind with
  | .read => h.pieces.all fun x => s.freeIn x.1 x.2 false
  | _ => h.pieces.any (fun x => s.homeGone x.1) || (h.stores.take 1).all fun x => s.storeReady (homeDie x.1) x.1 x.2

/-- Ask for the lines of a request (R68, R249). -/
def State.rdmaSeek (s : State) (h : RdmaHeld) : State :=
  match h.kind with
  | .read => h.pieces.foldl (fun s x => s.recallIn x.1 x.2 false) s
  | _ => h.stores.foldl (fun s x => s.seekStores (homeDie x.1) (s.ownerOf x.1 - 1) x.1 x.2) s

/-- Whether a request that waits is of a queue pair. -/
def RdmaHeld.on (h : RdmaHeld) (fn qp : Nat) : Bool := h.req.func == fn && h.req.qp == qp

/-- A request arrives: its window is checked now, by the entry of now (R108), and it performs, or waits for its lines
and behind earlier requests of its queue pair (R68, R85). A queue pair in its error state answers nothing (R81, R108)
(DEDUCED, log entry 37). -/
def State.serveRdma (s : State) (k : RdmaKind) (q : RdmaReq) : State :=
  if s.base.ethDown || 64 ≤ q.func || 1024 ≤ q.qp || (s.qp q.func q.qp).error then s
  else
    let s := s.marked q.func q.qp q.ecn
    if k.perm == 2 && q.va % 8 != 0 then s.send (.nakInvalid q.func q.qp)
    else
      match (s.func q.func).part with
      | none => s.send (.nakAccess q.func q.qp)
      | some p =>
        match s.windowPieces p q (k.bytes q) k.perm k.need with
        | .error d => s.denyAccess p q d
        | .ok ps =>
          let h : RdmaHeld := { kind := k, req := q, pieces := ps }
          if s.rdmaFree h && !s.rdmaHeld.any fun x => x.on q.func q.qp then
            (match s.performRdma h with
             | (s1, none) => s1
             | (s1, some r) => { s1.rdmaSeek r with rdmaHeld := s.rdmaHeld ++ [r] })
          else { s.rdmaSeek h with rdmaHeld := s.rdmaHeld ++ [h] }

/-- The oldest waiting request of each queue pair. -/
def rdmaHeads : List RdmaHeld → List RdmaHeld
  | [] => []
  | h :: r => h :: (rdmaHeads r).filter fun x => !x.on h.req.func h.req.qp

/-- A request that waits is over, or goes on as what is left of it. -/
def replaceHeld (h : RdmaHeld) (r : Option RdmaHeld) : List RdmaHeld → List RdmaHeld
  | [] => []
  | x :: xs => if x == h then r.toList ++ xs else x :: replaceHeld h r xs

/-- The next step of the requests that wait: one that may go on does; else lines are asked for again (R85). -/
def State.rdmaStage (s : State) : Option State :=
  match (rdmaHeads s.rdmaHeld).find? s.rdmaFree with
  | some h =>
    let x := s.performRdma h
    some { x.1 with rdmaHeld := replaceHeld h x.2 x.1.rdmaHeld }
  | none => ((rdmaHeads s.rdmaHeld).map s.rdmaSeek).find? fun t => t != s

/-- RDMA_WRITE (R83 to R85). -/
def execRdmaWrite (q : RdmaReq) (s : State) : Answer := .next (s.serveRdma .write q)

/-- RDMA_READ (R83 to R85). -/
def execRdmaRead (q : RdmaReq) (s : State) : Answer := .next (s.serveRdma .read q)

/-- COMPARE_SWAP (R84). -/
def execCompareSwap (q : RdmaReq) (s : State) : Answer := .next (s.serveRdma .compareSwap q)

/-- FETCH_ADD (R84). -/
def execFetchAdd (q : RdmaReq) (s : State) : Answer := .next (s.serveRdma .fetchAdd q)

/-! ### Errors and rates of queue pairs (R81, R82, R87) -/

/-- A transfer that its host refuses, or whose queue pair is in error, completes with HOST_NAK (R87, R100); one that nothing waits
for any more is only over (R336). -/
def State.refuseOp (s : State) (o : HostOp) (cause : Nat) : State :=
  if s.waiting o.who then ((s.endHostOp o).hostNakEvent (s.waiterPart o.who) o.index o.offset cause).nakWaiter o.who else s.endHostOp o

/-- A queue pair enters its error state: its outstanding transfers complete with HOST_NAK (R81, R87). -/
def State.qpError (s : State) (fn qp : Nat) : State :=
  let s1 := s.modQp fn qp fun x => { x with error := true }
  (s1.hostOps.filter fun o => o.func == fn && o.qp == qp).foldl (fun s o => s.refuseOp o 2) s1

/-- UNSUPPORTED_OPCODE (R81): the opcodes of RC WRITE, READ and the two atomics are those supported, and never come as this event. -/
def execUnsupportedOpcode (fn : Nat) (pair : MarkedQp) (_opcode : Nat) (s : State) : Answer :=
  .next (
    if s.base.ethDown || 64 ≤ fn || 1024 ≤ pair.qp || (s.qp fn pair.qp).error then s
    else ((s.marked fn pair.qp pair.ecn).send (.nakInvalid fn pair.qp)).qpError fn pair.qp)

/-- CNP (R82): half the rate, not below the minimum (DESIGN CHOICE, log entry 110). -/
def execCnp (fn qp : Nat) (s : State) : Answer :=
  .next (
    if s.base.ethDown || 64 ≤ fn || 1024 ≤ qp then s
    else s.modQp fn qp fun x => { x with rate := max s.base.rateMin (x.rate / 2) })

/-- RATE_RESTORE (R82): one step, up to the full rate. -/
def execRateRestore (fn qp : Nat) (s : State) : Answer :=
  .next (if 64 ≤ fn || 1024 ≤ qp then s else s.modQp fn qp fun x => { x with rate := min 81920 (x.rate + s.base.rateStep) })

/-! ### A host's answers (R87) -/

/-- The outstanding transfer that an answer names: none while the link is down (R76). -/
def State.hostOp? (s : State) (fn qp tag : Nat) : Option HostOp :=
  if s.base.ethDown then none else s.hostOps.find? fun o => o.func == fn && o.qp == qp && o.tag == tag && o.sent

/-- ACKNOWLEDGEMENT (R87). -/
def execAcknowledgement (fn : Nat) (pair : MarkedQp) (tag : Nat) (s : State) : Answer :=
  .next (
    match s.hostOp? fn pair.qp tag with
    | some o => if o.reads then s else ((s.marked fn pair.qp pair.ecn).endHostOp o).answer o.who 0
    | none => s)

/-- READ_RESPONSE (R87): the bytes are written at the copy's destination. -/
def execReadResponse (fn : Nat) (pair : MarkedQp) (tag : Nat) (data : List Byte) (s : State) : Answer :=
  .next (
    match s.hostOp? fn pair.qp tag with
    | some o =>
      match o.dst with
      | some d => ((s.marked fn pair.qp pair.ecn).endHostOp o).arrived o.who d 255 (byteSlice data 0 o.len)
      | none => s
    | none => s)

/-- NAK (R87). -/
def execNak (fn : Nat) (pair : MarkedQp) (tag : Nat) (error : Bool) (s : State) : Answer :=
  .next (
    match s.hostOp? fn pair.qp tag with
    | some o =>
      let s1 := (s.marked fn pair.qp pair.ecn).refuseOp o 1
      if error then s1.qpError fn pair.qp else s1
    | none => s)

end Sys2Proof.Machine
end

