-- ==== Sys2Proof/Machine/Graphs.lean ====
section
/-! DEFINITION. Graphs in graph memory (R143 to R153, R316, R317): their fields, the checks of GSEAL and of a node that becomes
ready, and the ranges that a run may patch. -/

namespace Sys2Proof.Machine

/-! ### Header, node table, node headers (R143, R144) -/

/-- A field of a graph: n bytes at an offset. -/
def Graph.num (g : Graph) (a n : Nat) : Nat := Memory.read g.bytes a n
/-- Whether n bytes at an offset are zero. -/
def Graph.zero (g : Graph) (a n : Nat) : Bool := (Memory.bytes g.bytes a n).all (· == 0)
/-- The graph's size in bytes (R95). -/
def Graph.size (g : Graph) : Nat := g.units * 65536
/-- NNODE. -/
def Graph.nnode (g : Graph) : Nat := g.num 4 4
/-- NODETAB. -/
def Graph.nodetab (g : Graph) : Nat := g.num 8 4
/-- The offset of the node at a table index. -/
def Graph.nodeAt (g : Graph) (i : Nat) : Nat := g.num (g.nodetab + 4 * i) 4
/-- The offsets of all nodes in node-table order. -/
def Graph.offsets (g : Graph) : List Nat := (List.range g.nnode).map g.nodeAt
/-- KIND. -/
def Graph.kind (g : Graph) (n : Nat) : Nat := g.num n 1
/-- AUX. -/
def Graph.aux (g : Graph) (n : Nat) : Nat := g.num (n + 1) 1
/-- NSUCC. -/
def Graph.nsucc (g : Graph) (n : Nat) : Nat := g.num (n + 2) 2
/-- NPRED. -/
def Graph.npred (g : Graph) (n : Nat) : Nat := g.num (n + 4) 4
/-- The successor entries in use. -/
def Graph.succs (g : Graph) (n : Nat) : List Nat := (List.range (min 12 (g.nsucc n))).map fun k => g.num (n + 16 + 4 * k) 4
/-- The node-table index of a node. -/
def Graph.indexOf (g : Graph) (n : Nat) : Nat := g.offsets.findIdx (· == n)

/-- SIZE of each kind (R144); a reserved kind counts its header. -/
def nodeSize (kind : Nat) : Nat :=
  match kind with
  | 1 => 576
  | 2 => 128
  | 3 => 128
  | 4 => 192
  | _ => 64

/-! ### The launch record (R148 to R151, R316) -/

/-- Format slot k of a record (R316). -/
def readSlot (b : List Byte) (k : Nat) : FmtSlot :=
  let o := 192 + 32 * k
  { fmt := leAt b o 1
    bsz := field (leAt b (o + 1) 1) 0 4 == 1
    dith := bitAt (leAt b (o + 2) 1) 0
    sat := bitAt (leAt b (o + 2) 1) 1
    strict := bitAt (leAt b (o + 2) 1) 2
    pln := leAt b (o + 3) 1
    key := BitVec.ofNat 64 (leAt b (o + 4) 8)
    row0 := BitVec.ofNat 32 (leAt b (o + 12) 4)
    col0 := BitVec.ofNat 32 (leAt b (o + 16) 4)
    m00 := BitVec.ofNat 16 (leAt b (o + 20) 2)
    m01 := BitVec.ofNat 16 (leAt b (o + 22) 2)
    m10 := BitVec.ofNat 16 (leAt b (o + 24) 2)
    m11 := BitVec.ofNat 16 (leAt b (o + 26) 2)
    soff := BitVec.ofNat 32 (leAt b (o + 28) 4) }

/-- Role entry k of a record (R150). -/
def readRole (b : List Byte) (k : Nat) : Role :=
  let o := 64 + 32 * k
  { entry := BitVec.ofNat 32 (leAt b o 4), vregs := leAt b (o + 4) 1, wreg := leAt b (o + 5) 1, count := leAt b (o + 6) 1,
    rparam := BitVec.ofNat 64 (leAt b (o + 8) 8) }

/-- A launch record of 512 bytes (R148 to R151). -/
def readLaunch (b : List Byte) : Launch :=
  { roles := (List.range (min 4 (leAt b 2 1))).map (readRole b)
    span := leAt b 3 1
    slots := leAt b 4 2
    gang := leAt b 6 2
    prio := leAt b 8 1
    asid := leAt b 10 2
    reqMask := BitVec.ofNat 16 (leAt b 12 2)
    exclMask := BitVec.ofNat 16 (leAt b 14 2)
    localBytes := leAt b 16 4
    tiles := leAt b 20 1
    accs := leAt b 21 1
    nctr := leAt b 22 1
    ctrBase := leAt b 24 2
    errAddr := leAt b 32 8
    codeBase := leAt b 40 8
    saveAddr := leAt b 48 8
    saveCnt := leAt b 56 4
    fmts := (List.range 8).map (readSlot b)
    gx := leAt b 448 4
    gy := leAt b 452 4
    gz := leAt b 456 4
    paramPtr := BitVec.ofNat 64 (leAt b 464 8)
    params := (List.range 5).map fun k => BitVec.ofNat 64 (leAt b (472 + 8 * k) 8) }

/-- The launch of a LAUNCH node. -/
def Graph.launch (g : Graph) (n : Nat) : Launch := readLaunch (nodeBody g n 512)

/-- Workgroups of the grid (R151). -/
def Launch.total (l : Launch) : Nat := l.gx * l.gy * l.gz
/-- WIN: window registers of a slot (R150). -/
def Launch.win (l : Launch) : Nat := (l.roles.map (·.wreg)).foldl max 0
/-- Fibres of a slot (R150). -/
def Launch.fibres (l : Launch) : Nat := (l.roles.map (·.count)).foldl (· + ·) 0
/-- Bytes of vector register file of a workgroup (R157). -/
def Launch.regBytes (l : Launch) : Nat :=
  l.slots * (64 * l.win + 64 * (l.roles.map fun r => r.count * (8 * r.vregs)).foldl (· + ·) 0)
/-- SAVESTRIDE (R169). -/
def Launch.saveStride (l : Launch) : Nat :=
  let n := 4096 + l.localBytes + 8192 * l.tiles +
    l.slots * (64 * l.win + (l.roles.map fun r => r.count * (512 * r.vregs + 2048)).foldl (· + ·) 0)
  (n + 4095) / 4096 * 4096

/-! ### The checks of each kind (R147, R149 to R153, R189, R191, R317) -/

/-- Whether every one of n bytes of a body is zero. -/
def zeroIn (b : List Byte) (a n : Nat) : Bool := (List.range n).all fun k => b.getD (a + k) 0 == 0

/-- The check of a format slot (R317). -/
def slotLegal (b : List Byte) (k : Nat) : Bool :=
  let o := 192 + 32 * k
  let fs := readSlot b k
  let blk := leAt b (o + 1) 1
  let wide := match fs.format with | some f => f.isWide | none => false
  let fp6 := fs.format == some .e3m2 || fs.format == some .e2m3
  (fs.fmt == 0 || fs.format.isSome) && field blk 0 4 ≤ 1 && field blk 4 4 ≤ 1 && field blk 0 4 == field blk 4 4 &&
  (!fs.bsz || !(wide || fs.format == some .tern)) && (!fs.dith || !wide) &&
  (if fp6 then 5 ≤ fs.pln && fs.pln ≤ 31 else fs.pln == 0) && fs.soff.toNat % 64 == 0 && leAt b (o + 2) 1 < 8

/-- The check of a role entry (R150). -/
def roleLegal (b : List Byte) (k : Nat) : Bool :=
  let o := 64 + 32 * k
  let r := readRole b k
  if k < leAt b 2 1 then
    r.entry.toNat % 8 ≤ 4 && 1 ≤ r.vregs && r.vregs ≤ 31 && r.wreg ≤ 64 && 1 ≤ r.count && r.count ≤ 4 &&
    zeroIn b (o + 7) 1 && zeroIn b (o + 16) 16
  else zeroIn b o 32

/-- GANG's limit for each SPAN (R149). -/
def gangLegal (span gang : Nat) : Bool :=
  match span with
  | 0 => gang == 1
  | 1 => 1 ≤ gang && gang ≤ 4
  | 2 => 1 ≤ gang && gang ≤ 48
  | _ => false

/-- The LAUNCH check (R149 to R152, R317). -/
def launchLegal (p : Partition) (b : List Byte) : Bool :=
  let l := readLaunch b
  leAt b 0 2 == 1 && 1 ≤ leAt b 2 1 && leAt b 2 1 ≤ 4 && gangLegal l.span l.gang && 1 ≤ l.slots && l.slots ≤ 64 &&
  l.prio ≤ 7 && p.hasAsid l.asid && l.reqMask.getLsbD 0 && (l.reqMask &&& l.exclMask) == 0 &&
  l.localBytes % 4096 == 0 && l.localBytes ≤ 524288 && l.tiles ≤ 16 && l.accs ≤ 4 && l.nctr ≤ 64 &&
  l.ctrBase + l.nctr ≤ 4096 && l.errAddr % 8 == 0 && l.codeBase % 64 == 0 && l.saveAddr != 0 && l.saveAddr % 4096 == 0 &&
  1 ≤ l.saveCnt && l.saveCnt ≤ 2 ^ 20 && l.gang ≤ l.saveCnt &&
  zeroIn b 9 1 && zeroIn b 23 1 && zeroIn b 26 6 && zeroIn b 60 4 && zeroIn b 460 4 &&
  (List.range 4).all (roleLegal b) && l.fibres ≤ 4 && (List.range 8).all (slotLegal b) &&
  l.total < 2 ^ 32 && l.total % max 1 l.gang == 0 && l.regBytes ≤ 524288

/-- The COPY check (R153). -/
def copyLegal (p : Partition) (b : List Byte) : Bool :=
  1 ≤ leAt b 16 8 && leAt b 16 8 ≤ 2 ^ 40 && p.hasAsid (leAt b 24 2) && zeroIn b 26 6 && zeroIn b 40 24

/-- The destination check of a HEVENT (R144, R145) (DEDUCED, log entry 64). -/
def State.heventLegal (s : State) (part aux : Nat) : Bool :=
  aux == 0xFF || (1 ≤ aux && aux ≤ 63 && (s.func aux).part == some part)

/-- The check of a node's kind (R145, R147) (DEDUCED, log entry 64). -/
def State.kindLegal (s : State) (g : Graph) (n : Nat) : Bool :=
  match g.kind n with
  | 1 => launchLegal (s.part g.part) (nodeBody g n 512)
  | 2 => copyLegal (s.part g.part) (nodeBody g n 64)
  | 3 => s.heventLegal g.part (g.aux n)
  | 4 => (collOf (nodeBody g n 128)).legal (s.part g.part) && zeroIn (nodeBody g n 128) 72 56
  | _ => false

/-! ### The checks of GSEAL (R145) -/

/-- Whether the header's fields are in range (DEDUCED, log entry 64). -/
def Graph.headerLegal (g : Graph) : Bool :=
  g.num 0 4 == 0xB1A70C4A && 1 ≤ g.nnode && g.nnode ≤ 65536 && g.nodetab % 64 == 0 && 64 ≤ g.nodetab &&
  g.nodetab + 4 * g.nnode ≤ g.size && g.zero 12 52

/-- Whether two ranges share a byte. -/
def rangesMeet (a n b m : Nat) : Bool := decide (a < b + m) && decide (b < a + n)

/-- Whether a node has its own place in the graph. -/
def Graph.placeLegal (g : Graph) (offs : List Nat) (i n : Nat) : Bool :=
  let z := nodeSize (g.kind n)
  n % 64 == 0 && 64 ≤ n && n + z ≤ g.size && !rangesMeet n z g.nodetab (4 * g.nnode) &&
  !(offs.zipIdx.any fun x => x.2 != i && rangesMeet n z x.1 (nodeSize (g.kind x.1)))

/-- Whether a node's header is legal (R144, R145): `names` lists every successor entry of the graph. -/
def Graph.headLegal (g : Graph) (offs names : List Nat) (n : Nat) : Bool :=
  1 ≤ g.kind n && g.kind n ≤ 4 && g.num (n + 8) 4 == nodeSize (g.kind n) && g.nsucc n ≤ 12 && g.npred n ≤ 65535 &&
  g.zero (n + 12) 4 && g.zero (n + 16 + 4 * g.nsucc n) (48 - 4 * g.nsucc n) && (g.succs n).all offs.contains &&
  g.npred n == names.count n && (g.kind n == 3 || g.aux n == 0)

/-- The nodes that a set of nodes reaches, in at most so many steps. -/
def Graph.reach (g : Graph) : Nat → List Nat → List Nat → List Nat
  | 0, seen, _ => seen
  | fuel + 1, seen, front =>
    let next := ((front.flatMap g.succs).filter fun x => !seen.contains x).eraseDups
    if next.isEmpty then seen else g.reach fuel (seen ++ next) next

/-- Whether a node lies on a cycle (R145). -/
def Graph.onCycle (g : Graph) (n : Nat) : Bool := (g.reach g.nnode [] [n]).contains n

/-- Whether a node passes every check of GSEAL. -/
def State.nodeLegal (s : State) (g : Graph) (offs names : List Nat) (i n : Nat) : Bool :=
  g.placeLegal offs i n && g.headLegal offs names n && s.kindLegal g n && !g.onCycle n

/-- The first failure that GSEAL names: node-table index and offset (R145). -/
def State.sealFailure (s : State) (g : Graph) : Option (Nat × Nat) :=
  if !g.headerLegal then some (0xFFFFFFFF, 0)
  else
    let offs := g.offsets
    let names := offs.flatMap g.succs
    (offs.zipIdx.find? fun x => !s.nodeLegal g offs names x.2 x.1).map fun x => (x.2, x.1)

/-! ### Patches (R97, R146) -/

/-- The patchable ranges of each kind: offset within the node, and length (R146, R189). -/
def patchRanges (kind : Nat) : List (Nat × Nat) :=
  match kind with
  | 1 => [(96, 16), (136, 8), (168, 8), (200, 8), (232, 8), (256, 256), (512, 64)]
  | 2 => [(64, 24), (96, 8)]
  | 3 => [(64, 64)]
  | 4 => [(80, 24), (120, 8)]
  | _ => []

/-- Whether a patch is aligned and inside a patchable range (R97). -/
def Graph.patchLegal (g : Graph) (off len : Nat) : Bool :=
  (len == 1 || len == 2 || len == 4 || len == 8) && off % len == 0 &&
  g.offsets.any fun n => (patchRanges (g.kind n)).any fun r => n + r.1 ≤ off && off + len ≤ n + r.1 + r.2

/-- Write patches in list order (R98): offset, length, value. -/
def Graph.patch (g : Graph) (ps : List (Nat × Nat × Nat)) : Graph :=
  { g with bytes := ps.foldl (fun b p => Memory.write b p.1 (leBytes p.2.1 p.2.2)) g.bytes }

end Sys2Proof.Machine
end

