-- ==== Sys2Proof/Machine/Scheduler.lean ====
section
/-! DEFINITION. The scheduler (R154 to R173): runs and nodes, placement, dispatch decisions, and the end of workgroups and nodes. -/

namespace Sys2Proof.Machine

/-! ### Statuses of nodes and the stop of a run (R156, R172) -/

/-- The nodes that a stop leaves out (R154, R156). -/
def skipNode (x : NodeRun) : NodeRun := if x.st == .waiting || x.st == .ready then { x with st := .skipped } else x

/-- The first failing status stops a run (R156). -/
def Run.stop (r : Run) (offs : List Nat) (st n : Nat) : Run :=
  if r.stopped.isSome then r
  else { r with stopped := some (st, n), nodes := offs.foldl (fun t o => Tab.modify {} t o skipNode) r.nodes }

/-- A node of a run takes a status: HOST_NAK lets the run go on, another stops it (R156). -/
def Run.fail (r : Run) (offs : List Nat) (st n : Nat) : Run :=
  let r1 := r.modNode n fun x => { x with status := firstStatus x.status st }
  match st with
  | 0 => r
  | 1 => { r1 with nak := r1.nak.orElse fun _ => some n }
  | _ => r1.stop offs st n

/-- A node takes a status. -/
def State.nodeStatus (s : State) (h n st : Nat) : State :=
  s.modGraph h fun g => { g with run := g.run.map fun r => r.fail g.offsets st n }

/-- ASID and address of a node's error word (R149, R153). -/
def Graph.errPlace (g : Graph) (n : Nat) : Option (Nat × Nat) :=
  match g.kind n with
  | 1 => some ((g.launch n).asid, (g.launch n).errAddr)
  | 2 => some (g.num (n + 88) 2, g.num (n + 96) 8)
  | _ => none

/-- A node fails, for a workgroup's linear index or 0xFFFFFFFF: error word, status, stop of the run (R156, R172). -/
def State.failNode (s : State) (h n st index fcode : Nat) : State :=
  match s.graph h with
  | none => s
  | some g =>
    (match g.errPlace n with
     | some (asid, a) => if a == 0 then s else s.errWord g.part asid a (launchWord index fcode st)
     | none => s).nodeStatus h n st

/-! ### Runs (R98, R154, R156) -/

/-- The body of a run-done event (R156). -/
def runDone (tag : Dword) (rstat nstat seq node : Nat) : List Byte :=
  leBytes 8 tag.toNat ++ leBytes 1 rstat ++ leBytes 1 nstat ++ leBytes 2 0 ++ leBytes 4 seq ++ leBytes 4 node

/-- A node at the start of a run (R154). -/
def Graph.freshNode (g : Graph) (tick n : Nat) : NodeRun :=
  { remaining := g.npred n, st := if g.npred n == 0 then .ready else .waiting, readyAt := tick }

/-- The oldest queued run starts: patches, counts, roots; instruction caches are invalidated (R98, R154, R239; DEDUCED, log entry 9). -/
def State.startRun (s : State) (h : Nat) (g : Graph) : State :=
  match g.queue with
  | [] => s
  | q :: rest =>
    let g1 := g.patch q.patches
    let nodes := g1.offsets.foldl (fun t o => Tab.set {} t o (g1.freshNode s.tick o)) []
    let r : Run := { func := q.func, tag := q.tag, seq := q.seq, nodes := nodes }
    (s.setGraph h (some { g1 with queue := rest, run := some r })).modPart g.part fun p => { p with codeImage := s.mem }

/-- Whether the oldest queued run of a graph may start (R98, R117). -/
def State.runReady (s : State) (g : Graph) : Bool := g.run.isNone && !g.queue.isEmpty && (s.part g.part).st == .active

/-- RUN_START (R98, R154). -/
def execRunStart (h : Nat) (s : State) : Answer :=
  .next (
    match s.graph h with
    | some g => if s.runReady g then s.startRun h g else s
    | none => s)

/-! ### Resources of a core (R157, R158) -/

/-- The free slots of a core (R3). -/
def freeSlots (ws : List (Nat × Workgroup)) : Nat := 64 - (ws.map fun x => x.2.launch.slots).foldl (· + ·) 0

/-- The lowest free contiguous range of local store, on a 4,096-byte boundary (R157) (DESIGN CHOICE, log entry 65). -/
def localPlace (ws : List (Nat × Workgroup)) (n : Nat) : Option Nat :=
  ((List.range 129).map (4096 * ·)).find? fun b =>
    decide (b + n ≤ 524288) && !(ws.any fun x => rangesMeet b n x.2.localBase x.2.launch.localBytes)

/-- Whether a core's free resources meet a workgroup's needs (R157, R160). -/
def coreFits (ws : List (Nat × Workgroup)) (l : Launch) : Bool :=
  let used (f : Launch → Nat) : Nat := (ws.map fun x => f x.2.launch).foldl (· + ·) 0
  decide (l.slots ≤ freeSlots ws) && decide (used Launch.regBytes + l.regBytes ≤ 524288) && (localPlace ws l.localBytes).isSome &&
  decide (used (·.tiles) + l.tiles ≤ 16) && decide (used (·.accs) + l.accs ≤ 4)

/-- The lowest free position of a quarter (DESIGN CHOICE, log entry 65). -/
def freePosition (used : List (Nat × Nat)) (q : Nat) : Option Nat := (List.range 16).find? fun k => !used.contains (q, k)

/-- Quarter and position for slot k: quarter k mod 4, or the lowest with a free slot (R158). -/
def seatFor (used : List (Nat × Nat)) (k : Nat) : Nat × Nat :=
  let qs := k % 4 :: [0, 1, 2, 3]
  (qs.findSome? fun q => (freePosition used q).map fun p => (q, p)).getD (0, 0)

/-- The seats of a workgroup's slots, from slot k on. -/
def seatsFrom (used : List (Nat × Nat)) (k : Nat) : Nat → List (Nat × Nat)
  | 0 => []
  | n + 1 => let x := seatFor used k; x :: seatsFrom (x :: used) (k + 1) n

/-- The seats that a core's workgroups hold. -/
def usedSeats (ws : List (Nat × Workgroup)) : List (Nat × Nat) :=
  ws.flatMap fun x => (List.range x.2.launch.slots).map fun k => ((x.2.slot k).quarter, (x.2.slot k).position)

/-! ### New workgroups (R158, R159, R206) -/

/-- The roles of a slot's fibres in order (R158). -/
def Launch.fibreRoles (l : Launch) : List Nat := l.roles.zipIdx.flatMap fun r => List.replicate r.1.count r.2

/-- A new slot of a workgroup. -/
def newSlot (w : Workgroup) : SlotSt :=
  let rs := w.launch.fibreRoles
  { fibres := rs.zipIdx.foldl (fun t r => Tab.set {} t r.2 (Fibre.enterRole {} w r.1)) [], count := rs.length }

/-- A new workgroup of a launch, before its placement (DESIGN CHOICE, log entry 65). -/
def newWg (g : Graph) (h node index gangIx : Nat) (seq : Nat) : Workgroup :=
  let l := g.launch node
  let w : Workgroup := { part := g.part, graph := h, runSeq := seq, node := node, index := index, gangIx := gangIx, launch := l }
  { w with slots := (List.range l.slots).foldl (fun t k => Tab.set {} t k (newSlot w)) [] }

/-- A slot as it is placed: fibre 0 becomes CURRENT if it may run; watchdog counts start (R206, R333). -/
def SlotSt.placed (x : SlotSt) (seat : Nat × Nat) : SlotSt :=
  let y : SlotSt := { x with quarter := seat.1, position := seat.2, lastIssue := 0, fbarCount := 0, winCount := [], lastFib := 0, current := none }
  if (x.fib 0).st == .waiting then { y.setFib 0 { x.fib 0 with st := .current } with current := some 0 } else y

/-- A workgroup takes its resources of a core (R157 to R159). Zeroing the local store takes 2,048 bytes a cycle. -/
def State.seated (s : State) (w : Workgroup) (vcore lcore : Nat) : Workgroup :=
  let ws := s.wgsOn lcore
  let seats := seatsFrom (usedSeats ws) 0 w.launch.slots
  { w with
    place := .resident
    vcore := vcore
    lcore := lcore
    localBase := (localPlace ws w.launch.localBytes).getD 0
    readyAt := s.now (lcore / 48) + (w.launch.localBytes + 2047) / 2048
    slots := seats.zipIdx.foldl (fun t x => Tab.set {} t x.2 ((Tab.get {} t x.2).placed x.1)) w.slots
    bars := w.bars.map fun b => (b.1, { b.2 with count := 0 })
    passed := 0
    promoted := false }

/-! ### Candidates (R160, R161, R167) -/

/-- Whether a core's features suit a launch (R160, R162). -/
def State.featuresFit (s : State) (lcore : Nat) (l : Launch) : Bool :=
  let f := (s.cairnOf lcore).cfeat
  (f &&& l.reqMask) == l.reqMask && (f &&& l.exclMask) == 0

/-- Whether a core takes workgroups: neither retired, quarantined nor isolated (R135, R138, R160). -/
def State.coreServes (s : State) (lcore : Nat) : Bool :=
  (s.cairnOf lcore).serv == .inService && !s.base.isolated.contains (lcore / 48)

/-- The virtual and logical cores of a partition's map that are not retired and suit a launch. -/
def State.suited (s : State) (p : Partition) (l : Launch) : List (Nat × Nat) :=
  p.cores.zipIdx.filterMap fun c => if !c.1.2 && s.featuresFit c.1.1 l then some (c.2, c.1.1) else none

/-- The span that a launch's gangs keep to: quad, or die (R111, R149). -/
def Launch.spanOf (l : Launch) (lcore : Nat) : Nat := if l.span == 1 then lcore / 4 else lcore / 48

/-- Whether an empty map could not hold n workgroups together (R167). -/
def State.neverFits (s : State) (p : Partition) (l : Launch) (n : Nat) : Bool :=
  let cs := s.suited p l
  if l.span == 0 then cs.isEmpty
  else !(cs.any fun c => decide (n ≤ (cs.filter fun d => l.spanOf d.2 == l.spanOf c.2).length))

/-- The candidates for a workgroup (R160). -/
def State.candidates (s : State) (p : Partition) (l : Launch) : List (Nat × Nat) :=
  (s.suited p l).filter fun c => s.coreServes c.2 && coreFits (s.wgsOn c.2) l

/-- The candidate with the most free slots, lowest virtual number first (R161). -/
def State.roomiest (s : State) (cs : List (Nat × Nat)) : Option (Nat × Nat) :=
  cs.foldl (fun best c =>
    match best with
    | none => some c
    | some b => if freeSlots (s.wgsOn b.2) < freeSlots (s.wgsOn c.2) then some c else some b) none

/-- The cores for n workgroups of a launch (R160, R161). -/
def State.placement (s : State) (p : Partition) (l : Launch) (n : Nat) : Option (List (Nat × Nat)) :=
  let cs := s.candidates p l
  if l.span == 0 then (s.roomiest cs).map fun c => [c]
  else
    ((List.range 960).map fun k => cs.filter fun c => l.spanOf c.2 == k).findSome? fun xs =>
      if n ≤ xs.length && !xs.isEmpty then some (xs.take n) else none

/-! ### Ready workgroups (R163, R164, R166) -/

/-- A ready workgroup or gang: saved members, or none for the next of a launch; its launch; and its place in the order. -/
structure Ready where
  handle : Nat
  node : Nat
  saved : List Nat
  launch : Launch
  promoted : Bool
  key : List Nat
  deriving DecidableEq, Repr

/-- How many workgroups are placed together. -/
def Ready.size (x : Ready) : Nat := if x.saved.isEmpty then x.launch.gang else x.saved.length

/-- Lexicographic order. -/
def lexLt : List Nat → List Nat → Bool
  | a :: as, b :: bs => if a < b then true else if b < a then false else lexLt as bs
  | [], _ :: _ => true
  | _, [] => false

/-- The order's key (R164) (DESIGN CHOICE, log entry 68). -/
def readyKey (promoted : Bool) (l : Launch) (saved : Bool) (readyAt tabIx index handle : Nat) : List Nat :=
  [b2n (!promoted), 7 - l.prio, b2n (!saved), readyAt, tabIx, index, handle]

/-- The next workgroup or gang of a launch, where R163 allows it. -/
def Graph.readyNode (g : Graph) (h : Nat) (r : Run) (n : Nat) : Option Ready :=
  let x := r.node n
  let l := g.launch n
  if x.st == .active && g.kind n == 1 && r.stopped.isNone && decide (x.next < l.total) && decide (x.out + l.gang ≤ l.saveCnt) then
    some ⟨h, n, [], l, x.promoted, readyKey x.promoted l false x.readyAt (g.indexOf n) x.next h⟩
  else none

/-- Whether a workgroup is in the save area. -/
def Workgroup.isSaved (w : Workgroup) : Bool := match w.place with | .saved .. => true | _ => false

/-- A saved workgroup or gang, listed at its first member (R164, R170). -/
def State.readySaved (s : State) (i : Nat) (w : Workgroup) : Option Ready :=
  let gs := s.gangOf w
  match gs, s.graph w.graph with
  | x :: _, some g =>
    if x.1 == i && gs.all fun y => y.2.isSaved then
      let at_ := match g.run with | some r => (r.node w.node).readyAt | none => 0
      some ⟨w.graph, w.node, gs.map (·.1), w.launch, w.promoted, readyKey w.promoted w.launch true at_ (g.indexOf w.node) w.index w.graph⟩
    else none
  | _, _ => none

/-- The ready workgroups of a partition (R164). -/
def State.ready (s : State) (part : Nat) : List Ready :=
  (s.graphs.flatMap fun x =>
    match x.2 with
    | some g => (match g.run with
      | some r => if g.part == part then g.offsets.filterMap (g.readyNode x.1 r) else []
      | none => [])
    | none => []) ++
  s.wgs.filterMap fun x =>
    match x.2 with
    | some w => if w.part == part && w.isSaved then s.readySaved x.1 w else none
    | none => none

/-- Insert by key. -/
def insertReady (x : Ready) : List Ready → List Ready
  | [] => [x]
  | y :: r => if lexLt x.key y.key then x :: y :: r else y :: insertReady x r

/-- The first ready workgroup with a placement, and its cores: with one promoted, only the first (R164, R166). -/
def State.placeable (s : State) (part : Nat) : Option (Ready × List (Nat × Nat)) :=
  let p := s.part part
  if p.st != .active || p.frozen then none
  else
    let xs := (s.ready part).foldl (fun l x => insertReady x l) []
    let xs := match xs with | x :: _ => if x.promoted then [x] else xs | [] => []
    xs.findSome? fun x => (s.placement p x.launch x.size).map fun cs => (x, cs)

/-! ### Dispatch decisions (R165, R166) -/

/-- The partitions that something can be placed for, in ascending number. -/
def State.choices (s : State) : List (Nat × Ready × List (Nat × Nat)) :=
  (List.range 32).filterMap fun p => (s.placeable p).map fun x => (p, x.1, x.2)

/-- The partition whose turn it is, among those given. -/
def turnOf (from_ : Nat) (xs : List (Nat × Ready × List (Nat × Nat))) : Option (Nat × Ready × List (Nat × Nat)) :=
  (xs.find? fun x => decide (from_ ≤ x.1)).orElse fun _ => xs.head?

/-- The next decision, and whether it starts a round (R165). -/
def State.decision (s : State) : Option (Bool × Nat × Ready × List (Nat × Nat)) :=
  let xs := s.choices
  match turnOf s.roundNext (xs.filter fun x => (s.part x.1).credit != 0) with
  | some x => some (false, x)
  | none => (turnOf s.roundNext xs).map fun x => (true, x)

/-- A new round's credit (R165). -/
def State.newRound (s : State) : State :=
  let ps := s.choices.map (·.1)
  (List.range 32).foldl (fun s p => s.modPart p fun x => { x with credit := if ps.contains p then x.weight else 0 }) s

/-- The logical die of a decision: that of its first core. -/
def decisionDie (cs : List (Nat × Nat)) : Nat :=
  match cs with
  | c :: _ => c.2 / 48
  | [] => 0

/-- Place the next workgroups of a launch (R151, R163). -/
def State.placeNew (s : State) (x : Ready) (cs : List (Nat × Nat)) : State :=
  match s.graph x.handle with
  | none => s
  | some g =>
    match g.run with
    | none => s
    | some r =>
      let first := (r.node x.node).next
      let s1 := cs.zipIdx.foldl (fun (s : State) c =>
        let w := newWg g x.handle x.node (first + c.2) c.2 r.seq
        { s.setWg s.nextWg (s.seated w c.1.1 c.1.2) with nextWg := s.nextWg + 1 }) s
      s1.modNode x.handle x.node fun n => { n with next := n.next + cs.length, out := n.out + cs.length, passed := 0, promoted := false }

/-- The physical pieces of a save record, page by page, or none where a save write would fault (R169, R255)
(DEDUCED, log entry 34). -/
def State.recordPieces (s : State) (part : Nat) (l : Launch) (rec : Nat) : Option (List (Nat × Nat)) :=
  (pagePieces (l.saveAddr + rec * l.saveStride) l.saveStride).foldr (fun x acc =>
    match acc, s.engXlat part l.asid x.1 { w := true } with
    | some ps, some (.global, pa) => some ((pa, x.2) :: ps)
    | _, _ => none) (some [])

/-- The bytes of a save record: its layout is the scheduler's own, so they are free values (R169; DESIGN CHOICE, log entry 36). -/
def recordBytes (draw from_ n : Nat) : List Byte :=
  (List.range n).map fun k => (Config.freeValue draw (2 ^ 42 + from_ + k)).truncate 8

/-- Whether a record's bytes are still those that were written (DESIGN CHOICE, log entry 36). -/
def State.recordIntact (s : State) (w : Workgroup) : Bool :=
  match w.place with
  | .saved rec draw =>
    match s.recordPieces w.part w.launch rec with
    | some ps => (ps.foldl (fun (x : Bool × Nat) p => (x.1 && s.bytesAt p.1 p.2 == recordBytes draw x.2 p.2, x.2 + p.2)) (true, 0)).1
    | none => true
  | _ => true

/-- A fibre whose arrival has performed restarts at its barrier, as a wait only, with the live-ins of the waypoint that follows;
any other restarts at its restart point (R225). -/
def Fibre.savedPoint (fb : Fibre) : Nat × LiveIn :=
  match fb.arrival with
  | some a => (fb.pc.getD ((lanesOf fb.live).headD 0) fb.restart, a.live)
  | none => (fb.restart, fb.livein)

/-- The highest live-in count of a kind among fibres that have not exited. -/
def maxLive (fs : Tab Fibre) (f : LiveIn → Nat) : Nat :=
  fs.foldl (fun m x => if x.2.st == .exited then m else max m (f x.2.savedPoint.2)) 0

/-- Live-in registers, V, S, W and T, and local store after software has written the save area: free values (R169). -/
def Workgroup.spoilt (w : Workgroup) (draw : Nat) : Workgroup :=
  let v (k : Nat) : Dword := Config.freeValue draw (2 ^ 43 + k)
  let fib (slot f : Nat) (fb : Fibre) : Fibre :=
    let o := 2 ^ 20 * (4 * slot + f)
    { fb with
      v := (List.range (16 * fb.livein.nv)).foldl (fun t k => Tab.set 0 t k ((v (o + k)).truncate 32)) fb.v
      s := (List.range fb.livein.ns).foldl (fun t k => Tab.set 0 t k (v (o + 8192 + k))) fb.s }
  let nw (x : SlotSt) : Nat := maxLive x.fibres (·.nw)
  let nt := w.slots.foldl (fun m x => max m (maxLive x.2.fibres (·.nt))) 0
  { w with
    slots := w.slots.map fun x => (x.1, { x.2 with
      fibres := x.2.fibres.map fun y => (y.1, fib x.1 y.1 y.2)
      win := (List.range (16 * nw x.2)).foldl (fun t k => Tab.set 0 t k ((v (2 ^ 41 + 1024 * x.1 + k)).truncate 32)) x.2.win })
    tiles := (List.range nt).map fun k =>
      let o := 2 ^ 42 + 2 ^ 14 * k
      (k, { Tab.get {} w.tiles k with
        data := (List.range 8192).foldl (fun t b => Tab.set 0 t b ((v (o + b)).truncate 8)) []
        row0 := (v (o + 8192)).truncate 32
        col0 := (v (o + 8193)).truncate 32
        tb := (v (o + 8194)).getLsbD 0 })
    localMem := (List.range w.launch.localBytes).foldl (fun t k => Tab.set 0 t k ((v (2 ^ 40 + k)).truncate 8)) [] }

/-- Place saved workgroups again (R170). -/
def State.placeSaved (s : State) (x : Ready) (cs : List (Nat × Nat)) : State :=
  (x.saved.zip cs).foldl (fun (s : State) c =>
    let w := s.wg c.1
    let w1 := if s.recordIntact w then w else w.spoilt s.free
    { s.setWg c.1 (s.seated w1 c.2.1 c.2.2) with free := s.free + 1 }) s

/-- The other ready workgroups of the partition count the decision (R166). -/
def State.countPassed (s : State) (x : Ready) : State :=
  if x.saved.isEmpty then s.modNode x.handle x.node fun n => { n with passed := n.passed + 1 }
  else x.saved.foldl (fun s i => s.setWg i { s.wg i with passed := (s.wg i).passed + 1 }) s

/-- Make a decision (R164 to R166, R170). -/
def State.makeDecision (s : State) (round : Bool) (p : Nat) (x : Ready) (cs : List (Nat × Nat)) : State :=
  let others := (s.ready p).filter fun y => y != x
  let s1 := if round then s.newRound else s
  let s2 := { s1 with roundNext := p + 1 }.modPart p fun q => { q with credit := q.credit - 1 }
  let s3 := if x.saved.isEmpty then s2.placeNew x cs else s2.placeSaved x cs
  others.foldl State.countPassed s3

/-- DISPATCH_DECISION (R164 to R166): the die decides only for its own cores. -/
def execDispatchDecision (ldie : Nat) (s : State) : Answer :=
  .next (
    match s.decision with
    | some (round, p, x, cs) => if decisionDie cs == ldie then s.makeDecision round p x cs else s
    | none => s)

/-- PROMOTION (R166): the next workgroup of a launch, and its saved ones. -/
def execPromotion (h n : Nat) (s : State) : Answer :=
  let up (c : Nat) (b : Bool) : Bool := b || decide (2 ^ 20 ≤ c)
  let s1 := s.modNode h n fun x => { x with promoted := up x.passed x.promoted }
  .next { s1 with wgs := s1.wgs.map fun x => (x.1, x.2.map fun w =>
    if w.graph == h && w.node == n then { w with promoted := up w.passed w.promoted } else w) }

/-! ### Nodes (R147, R154, R155) -/

/-- The lowest logical die that holds cores of a partition (R153). -/
def Partition.firstDie (p : Partition) : Nat := (p.cores.map fun c => c.1 / 48).foldl min 79

/-- A READY node is checked and becomes ACTIVE (R147, R153 to R155, R167). -/
def State.dispatchNode (s : State) (h n : Nat) (g : Graph) : State :=
  let go (s : State) : State := s.modNode h n fun x => { x with st := .active }
  let p := s.part g.part
  if !s.kindLegal g n then ((go s).modNode h n fun x => { x with sent := true }).failNode h n 6 0xFFFFFFFF 0
  else
    match g.kind n with
    | 1 =>
      let l := g.launch n
      if l.total != 0 && s.neverFits p l l.gang then (go s).failNode h n 4 0xFFFFFFFF 0 else go s
    | 3 => if g.aux n == 0xFF then go s else (go s).event (g.aux n) 2 g.part (nodeBody g n 64)
    | _ => (go s).setNet p.firstDie g.part ((s.net p.firstDie g.part) ++ [.node h n])

/-- Whether a node may be dispatched. -/
def State.nodeReady (s : State) (g : Graph) (n : Nat) : Bool :=
  (s.part g.part).st == .active && match g.run with | some r => (r.node n).st == .ready | none => false

/-- NODE_DISPATCH (R147, R154, R155). -/
def execNodeDispatch (h n : Nat) (s : State) : Answer :=
  .next (
    match s.graph h with
    | some g => if s.nodeReady g n then s.dispatchNode h n g else s
    | none => s)

/-- Whether an ACTIVE node is complete (R155, R156, R195). -/
def State.nodeOver (s : State) (g : Graph) (r : Run) (n : Nat) : Bool :=
  let x := r.node n
  x.st == .active &&
  match g.kind n with
  | 1 => x.out == 0 && (r.stopped.isSome || decide ((g.launch n).total ≤ x.next))
  | 2 => x.sent && x.left == 0
  | 4 => x.sent && match x.target with
    | some (die, c, v) => decide (v ≤ (s.counter die c).value.toNat)
    | none => true
  | _ => true

/-- The counts of a finished node's successors drop (R154). -/
def Run.release (r : Run) (tick : Nat) (succs : List Nat) : Run :=
  succs.foldl (fun r k => r.modNode k fun x =>
    let m := x.remaining - 1
    if x.st == .waiting && m == 0 then { x with remaining := m, st := .ready, readyAt := tick } else { x with remaining := m }) r

/-- The end of a run whose nodes are all done or left out (R156). -/
def State.endRun (s : State) (h : Nat) : State :=
  match s.graph h with
  | none => s
  | some g =>
    match g.run with
    | none => s
    | some r =>
      if g.offsets.all fun n => (r.node n).st == .done || (r.node n).st == .skipped then
        let x : Nat × Nat × Nat := match r.stopped, r.nak with
          | some (st, n), _ => (1, st, n)
          | none, some n => (0, 1, n)
          | none, none => (0, 0, 0)
        (s.setGraph h (some { g with run := none })).event r.func 1 g.part (runDone r.tag x.1 x.2.1 r.seq x.2.2)
      else s

/-- A node leaves the network queues. -/
def State.unqueueNode (s : State) (h n : Nat) : State :=
  { s with netQ := (s.netQ.map fun q => (q.1, q.2.filter fun i => i != .node h n)).filter fun q => !q.2.isEmpty }

/-- A node is complete: a failure that it holds stops the run, its successors' counts drop, and the run may end (R154 to R156). -/
def State.finishNode (s : State) (h n : Nat) (g : Graph) (x : NodeRun) : State :=
  let s1 := s.unqueueNode h n
  let s2 := if g.kind n == 2 && x.status != 0 && x.status != 6 then s1.failNode h n x.status 0xFFFFFFFF 0
    else if g.kind n == 4 then s1.nodeStatus h n x.status else s1
  (s2.modGraph h fun g => { g with run := g.run.map fun r =>
    (r.modNode n fun x => { x with st := .done }).release s.tick (g.succs n) }).endRun h

/-- NODE_DONE (R154 to R156). -/
def execNodeDone (h n : Nat) (s : State) : Answer :=
  .next (
    match s.graph h with
    | some g =>
      (match g.run with
       | some r => if s.nodeOver g r n then s.finishNode h n g (r.node n) else s
       | none => s)
    | none => s)

end Sys2Proof.Machine
end

