-- ==== Sys2Proof/Machine/Partitions.lean ====
section
/-! DEFINITION. What a partition's life does to the rest of the machine: functions moved (R79, R108, R124), granules zeroed (R119,
R123), the end of a swap-out (R125), and the stages of PDESTROY (R119, R142). -/

namespace Sys2Proof.Machine

/-! ### Work in flight (R168, R336) -/

/-- Memory-pipe operations that have not performed are dropped and engine commands abandoned, with what they have not stored yet;
network-queue operations stay. -/
def State.dropWork (s : State) (w : Nat) : State :=
  { s with
    pipe := s.pipe.filter fun o => o.wg != w || o.kind.ofNetwork
    jobs := s.jobs.filter fun j => match j.tells with
      | .waiter (.cmd core id) => s.waiterWg (.cmd core id) != w
      | _ => true }.modCore (s.wg w).lcore fun c =>
    { c with copyQ := c.copyQ.filter fun x => x.wg != w, matQ := c.matQ.filter fun x => x.wg != w }

/-! ### Functions (R79, R108, R124) -/

/-- The graphs of a partition: handle and graph. -/
def State.graphsOf (s : State) (part : Nat) : List (Nat × Graph) :=
  s.graphs.filterMap fun x => match x.2 with | some g => if g.part == part then some (x.1, g) else none | none => none

/-- Queued runs are cancelled, each with a run event (R98, R156). -/
def State.cancelRuns (s : State) (h : Nat) (p : RunReq → Bool) : State :=
  match s.graph h with
  | none => s
  | some g =>
    (g.queue.filter p).foldl (fun s r => s.event r.func 1 g.part (runDone r.tag 2 0 r.seq 0))
      (s.setGraph h (some { g with queue := g.queue.filter fun r => !p r }))

/-- Every command of a function in progress is answered (R79). -/
def State.answerAll (s : State) (fn : Nat) (st : Status) : State := (s.func fn).busy.foldl (fun s b => s.respond fn b.1 st) s

/-- Every transfer of a function's queue pairs is over: its own complete with HOST_NAK, those of its hosts get no further response
(R87, R108). -/
def State.dropTransfers (s : State) (fn : Nat) : State :=
  let s1 : State := { s with rdmaHeld := s.rdmaHeld.filter fun h => h.req.func != fn }
  (s1.hostOps.filter fun o => o.func == fn).foldl (fun s o => s.refuseOp o 2)
    (s1.setFunc fn { s1.func fn with qpsDown := true })

/-- A function's queue pairs, windows, host targets and event queue are emptied, and it belongs to a partition or to none (R79);
host transfers that its queue pairs carried complete with HOST_NAK (R87) (DEDUCED, log entry 47). -/
def State.emptyFunc (s : State) (fn : Nat) (q : Option Nat) : State :=
  let s1 := (s.answerAll fn .gone).dropTransfers fn
  s1.setFunc fn
    { s1.func fn with part := q, qps := [], qpsDown := false, windows := [], targets := [], events := [], dropped := 0 }

/-- A reassignment (R79, R108, R124): the function's queued runs are cancelled, and it leaves its roles
(DEDUCED, log entry 47). -/
def State.reassign (s : State) (fn : Nat) (q : Option Nat) : State :=
  match (s.func fn).part with
  | none => s.emptyFunc fn q
  | some p =>
    let s1 := (s.graphsOf p).foldl (fun s x => s.cancelRuns x.1 fun r => r.func == fn) s
    (s1.emptyFunc fn q).modPart p fun x =>
      { x with
        dataFn := if x.dataFn == some fn then none else x.dataFn
        eventFn := if x.eventFn == some fn then none else x.eventFn }

/-! ### Granules (R119, R123) -/

/-- The granules that the machine has (R123). -/
def granules : Nat := 983040

/-- A line's entries of a table keyed by unit and line are dropped for a granule. -/
def dropGranule {α : Type} (t : Tab α) (g : Nat) : Tab α := t.filter fun x => x.1 % 2 ^ 40 / 8192 != g

/-- Every byte of a granule is zero with a valid check value, and nothing is cached, accumulated or spilled there (R119). -/
def State.zeroGranule (s : State) (g : Nat) : State :=
  { s with
    mem := Tab.clearRange s.mem (g * 2 ^ 21) (2 ^ 21)
    failing := Tab.clearRange s.failing (g * 32768) 32768
    reported := Tab.clearRange s.reported (g * 32768) 32768
    accs := (Tab.clearRange s.accs (g * 2 ^ 21) (2 ^ 21)).filter fun x =>
      match x.2 with
      | some e => (match e.spillAt with | some a => a / 2 ^ 21 != g | none => true)
      | none => false
    sums := Tab.clearRange s.sums (g * 2 ^ 21) (2 ^ 21)
    fresh := s.fresh.filter fun x => x.1 / 2 ^ 21 != g
    landed := Tab.clearRange s.landed (g * 8192) 8192
    homes := Tab.clearRange s.homes (g * 8192) 8192
    podDir := Tab.clearRange s.podDir (g * 8192) 8192
    podAwait := Tab.clearRange s.podAwait (g * 8192) 8192
    podExcl := Tab.clearRange s.podExcl (g * 8192) 8192
    lines := dropGranule s.lines g
    l1 := dropGranule s.l1 g
    orderQ := s.orderQ.filter fun r => r.line / 8192 != g
    mesh := s.mesh.filter fun m => m.line / 8192 != g
    jobs := s.jobs.filter fun j => j.line / 8192 != g }

/-- No cache holds a line of a broadcast window any more (R251). -/
def State.dropWindow (s : State) (w : Nat) : State :=
  { s with
    lines := s.lines.filter fun x => x.1 % 2 ^ 40 / 2 ^ 32 != 64 + w
    l1 := s.l1.filter fun x => x.1 % 2 ^ 40 / 2 ^ 32 != 64 + w }

/-- The lines of a granule of which other modules hold copies (DESIGN CHOICE, log entry 45). -/
def State.podHeldLines (s : State) (g : Nat) : List Nat := (s.podDir.map (·.1)).filter fun l => l / 8192 == g

/-- GRANULE_ZEROED (R119, R123, R141): copies of other modules come back first; a lost home's granule waits for its die
(DESIGN CHOICE, log entry 45). -/
def execGranuleZeroed (g : Nat) (s : State) : Answer :=
  .next (
    if Tab.get 0 s.owner g < 100 || s.homeLost (g * 2 ^ 21) then s
    else
      let s1 := (s.podHeldLines g).foldl (fun s l => s.recall l false none) s
      if (s1.podHeldLines g).isEmpty then { s1.zeroGranule g with owner := Tab.set 0 s1.owner g 0 } else s1)

/-- Granules first to first + n are each in a state. -/
def State.granulesAll (s : State) (first n : Nat) (p : Nat → Bool) : Bool :=
  (List.range n).all fun k => p (Tab.get 0 s.owner (first + k))

/-- Set the owner of granules. -/
def State.setOwners (s : State) (first n o : Nat) : State :=
  { s with owner := (List.range n).foldl (fun t k => Tab.set 0 t (first + k) o) s.owner }

/-! ### The end of a swap-out (R125) -/

/-- Whether a workgroup is resident. -/
def residentOf (p : Nat) (x : Option Workgroup) : Bool :=
  match x with
  | some w => w.part == p && w.place == .resident
  | none => false

/-- Whether a request to another module was issued by a core or its copy engine, not by a fabric engine or a graph (R125). -/
def Waiter.ofCore : Waiter → Bool
  | .cmd .. | .op _ => true
  | .entry .. | .node .. => false

/-- Whether steps 2 and 3 of a swap-out are done: nothing resident, and no request of the partition's cores and copy engines, no flit of
either epoch and no answer of another module is still on its way (R125, R137). -/
def State.suspendOver (s : State) (p : Nat) : Bool :=
  (s.part p).st == .suspending && !(s.wgs.any fun x => residentOf p x.2) && !(s.orderQ.any fun r => r.part == p) &&
  !(s.mesh.any fun m => m.part == p) && !(s.jobs.any fun j => j.part == p) && !(s.podReqs.any fun r => r.part == p) &&
  !(s.netReqs.any fun r => r.who.ofCore && s.msgPart r.port r.ttag == some p)

/-! ### PDESTROY (R119, R142) -/

/-- Steps 1 to 3: workgroups and runs go, every block is under release, and the queue pairs enter their error state (R108)
(DESIGN CHOICE, log entry 44). -/
def State.beginDestroy (s : State) (p : Nat) (cmd : Option (Nat × Nat)) : State :=
  let ws := s.wgs.filterMap fun x => match x.2 with | some w => if w.part == p then some x.1 else none | none => none
  let gs := (s.graphsOf p).map (·.1)
  let s1 := gs.foldl (fun s h => s.setGraph h none) s
  let s2 : State := { s1 with
    netQ := (s1.netQ.map fun q => (q.1, q.2.filter fun i => match i with | .node h _ => !gs.contains h | _ => true)).filter
      fun q => !q.2.isEmpty }
  let s3 := ws.foldl (fun s w => (s.dropWork w).endWg w) s2
  let rs := (List.range 80).filterMap fun die =>
    match (List.range 64).filter fun b => s3.blockOwner die b == p + 1 && !(s3.releases.any fun r => r.die == die && r.blocks.contains b) with
    | [] => none
    | bs => some (⟨die, p, bs, none⟩ : Release)
  let s4 := rs.foldl State.stopRearm { s3 with releases := s3.releases ++ rs }
  let fns := (List.range 64).filter fun f => (s.func f).part == some p
  (fns.foldl State.dropTransfers s4).modPart p fun x => { x with st := .destroying, cmd := none, endCmd := cmd }

/-- Whether nothing of a partition is left in the network queues. -/
def State.networkOver (s : State) (p : Nat) : Bool :=
  !(s.releases.any fun r => r.part == p) && !(s.jobs.any fun j => j.part == p) && s.netQ.all (fun q => q.1 % 32 != p || q.2.isEmpty) &&
  s.wgs.all fun x => match x.2 with | some w => w.part != p | none => true

/-- Translations of a range of ASIDs are gone (R122, R256; DEDUCED, log entry 42). -/
def State.dropAsids (s : State) (a n : Nat) : State :=
  let out (x : Nat) : Bool := !(decide (a ≤ x) && decide (x < a + n))
  { s.keepTlb (fun e => out e.asid) with
    walks := s.walks.filter fun w => out w.2.1
    walkFails := s.walkFails.filter fun w => out w.asid }

/-- Steps 4 to 6: functions unassigned, tags unmapped, tree identifiers and windows freed, and granules on their way to zero
(DESIGN CHOICE, log entry 44). -/
def State.midDestroy (s : State) (p : Nat) : State :=
  let fns := (List.range 64).filter fun f => (s.func f).part == some p
  let gone (s : State) (f : Nat) : State :=
    let s1 := s.emptyFunc f none
    s1.setFunc f { s1.func f with qpsDown := true }
  let wins := s.bwins.filterMap fun x => match x.2 with | some b => if b.part == p then some x.1 else none | none => none
  let s1 := (wins.foldl State.dropWindow (fns.foldl gone s)).dropAsids (s.part p).asidBase (s.part p).asidCount
  { s1.modPart p fun x => { x with dataFn := none, eventFn := none, roots := [], spill := none } with
    ttags := s1.ttags.filter fun x => x.2 != p + 1
    trees := s1.trees.filter fun t => t.part != p
    bwins := s1.bwins.filter fun x => match x.2 with | some b => b.part != p | none => false
    owner := s1.owner.map fun x => (x.1, if x.2 == p + 1 then 100 + p else x.2) }

/-- Whether steps 4 and 5 are still to be done: the partition has functions, tags, trees, windows or granules
(DESIGN CHOICE, log entry 44). -/
def State.midDue (s : State) (p : Nat) : Bool :=
  s.owner.any (fun x => x.2 == p + 1) || s.ttags.any (fun x => x.2 == p + 1) || s.trees.any (fun t => t.part == p) ||
  s.funcs.any (fun f => f.2.part == some p) || s.bwins.any fun x => match x.2 with | some b => b.part == p | none => false

/-- The next stage of what a partition's SUSPEND or PDESTROY still has to do, where it is due (R119, R125, R142). -/
def State.partStage (s : State) (p : Nat) : Option State :=
  let x := s.part p
  match x.st with
  | .suspending =>
    if s.suspendOver p then
      let s1 := (s.setPart p { x with st := .suspended, cmd := none }).respondTo x.cmd .ok
      some (if x.endCmd.isSome then s1.beginDestroy p x.endCmd else s1)
    else none
  | .destroying =>
    if !s.networkOver p then none
    else if s.midDue p then some (s.midDestroy p)
    else if s.owner.any fun g => g.2 == 100 + p then none
    else some ((s.setPart p {}).respondTo x.endCmd .ok)
  | _ => none

end Sys2Proof.Machine
end

