-- ==== Sys2Proof/Machine/Endings.lean ====
section
/-! DEFINITION. How workgroups leave a core before they retire: pre-emption with its save records, swap-out and swap-in (R125, R126,
R167 to R171, R225, R226), the barrier watchdog (R333 to R335), discards, and the fate of work in flight (R336). -/

namespace Sys2Proof.Machine

/-! ### Endings -/

/-- A workgroup ends without retiring: resources and record are free, the error word is written, and its run stops (R171, R172). -/
def State.endEarly (s : State) (w st fcode : Nat) : State :=
  let wg := s.wg w
  ((s.dropWork w).failNode wg.graph wg.node st wg.index fcode).endWg w

/-! ### What a save record keeps (R169, R225, R226) -/

/-- A fibre as its record gives it back: live-ins, lanes, frozen mark, recorded phases (R159, R169, R226, R306, R452)
(DEDUCED, log entry 80). -/
def Fibre.saved (fb : Fibre) (w : Workgroup) : Fibre :=
  if fb.st == .exited then { fb with latches := [], f := [], timers := [], hist := [], status := [] }
  else
    let x := fb.savedPoint
    let s0 := entryS w (w.role fb.role)
    let f0 : Fibre :=
      { st := if fb.st == .frozen then .frozen else .waiting
        role := fb.role
        live := fb.live
        v := fb.v.filter fun e => decide (e.1 < 16 * x.2.nv)
        s := (List.range 128).foldl (fun t k => Tab.set 0 t k (if k < x.2.ns then Tab.get 0 fb.s k else Tab.get 0 s0 k)) []
        restart := x.1
        livein := x.2
        atEntry := fb.atEntry
        recPhase := fb.recPhase
        arrival := fb.arrival
        frozenBy := fb.frozenBy }
    f0.moveTo f0.live fun _ => x.1

/-- A slot as its record gives it back: declared window registers with their tags (R169). -/
def SlotSt.saved (x : SlotSt) (w : Workgroup) : SlotSt :=
  let n := maxLive x.fibres (·.nw)
  { fibres := x.fibres.map fun y => (y.1, y.2.saved w)
    count := x.count
    win := x.win.filter fun e => decide (e.1 < 16 * n)
    tags := x.tags.filter fun e => decide (e.1 < n) }

/-- A workgroup as its record gives it back (R169). -/
def Workgroup.savedAs (w : Workgroup) (rec draw : Nat) : Workgroup :=
  let n := w.slots.foldl (fun m x => max m (maxLive x.2.fibres (·.nt))) 0
  { w with
    place := .saved rec draw
    slots := w.slots.map fun x => (x.1, x.2.saved w)
    tiles := (w.tiles.filter fun t => decide (t.1 < n)).map fun t => (t.1, { t.2 with busy := 0 })
    accs := []
    passed := 0
    promoted := false }

/-- The lowest free save records of a launch, in order (R169). -/
def State.freeRecords (s : State) (w : Workgroup) (n : Nat) : List Nat :=
  let used := s.wgs.filterMap fun x =>
    match x.2 with
    | some y => if y.graph == w.graph && y.runSeq == w.runSeq && y.node == w.node then
        (match y.place with | .saved r _ => some r | _ => none) else none
    | none => none
  ((List.range (used.length + n)).filter fun k => !used.contains k).take n

/-- The lowest free save record of a launch (R169). -/
def State.freeRecord (s : State) (w : Workgroup) : Nat := (s.freeRecords w 1).headD 0

/-- Write a save record's bytes (R169) (DESIGN CHOICE, log entry 36). -/
def State.writeRecord (s : State) (die : Nat) (ps : List (Nat × Nat)) : State :=
  (ps.foldl (fun (x : State × Nat) p => (x.1.engineStore die p.1 (recordBytes s.free x.2 p.2), x.2 + p.2)) (s, 0)).1

/-! ### Pre-emption (R168 to R170) -/

/-- Whether the record may be written: no operation of the network queue is still to perform, and no region-closing operation or command
has performed in part (R225, R290, R336) (DESIGN CHOICE, log entry 66). -/
def State.recordReady (s : State) (w : Nat) : Bool :=
  let k := s.core (s.wg w).lcore
  !(s.pipe.any fun o => o.wg == w && (o.kind.ofNetwork || (o.closing.isSome && o.accs.any (·.done)))) &&
  !((k.copyQ ++ k.matQ).any fun c => c.wg == w && c.sent && c.closing.isSome)

/-- One workgroup is pre-empted (R168); a save write that faults ends it with SAVEFAIL (R169). -/
def State.saveWg (s : State) (i : Nat) : State :=
  let w := s.wg i
  let rec_ := s.freeRecord w
  match s.recordPieces w.part w.launch rec_ with
  | none => s.endEarly i 5 0
  | some ps =>
    let s1 := (s.dropWork i).writeRecord w.die ps
    { s1.setWg i (w.savedAs rec_ s.free) with free := s.free + 1 }

/-- The resident members of the gang that a workgroup pulls with it. -/
def State.leavers (s : State) (w : Workgroup) : List Nat :=
  ((s.gangOf w).filter fun x => x.2.place == .resident).map (·.1)

/-- The pieces of the save records that the leaving members of a gang take now. -/
def State.leaveRoom (s : State) (w : Workgroup) : List (Nat × Nat) :=
  (s.freeRecords w (s.leavers w).length).flatMap fun k => (s.recordPieces w.part w.launch k).getD []

/-- Whether the pre-emption of a workgroup with its gang may take place (DESIGN CHOICE, log entry 66). -/
def State.preemptReady (s : State) (w : Workgroup) : Bool :=
  !(s.part w.part).frozen && s.leaving w && (s.leavers w).all s.recordReady

/-- PREEMPTION (R168): the workgroup with its whole gang; the die takes the lines of the records first (R68, R249). -/
def execPreemption (w : Nat) (s : State) : Answer :=
  .next (
    let wg := s.wg w
    if wg.place == .resident && s.preemptReady wg then
      let ps := s.leaveRoom wg
      if ps.all fun p => s.storeReady wg.die p.1 p.2 then (s.leavers wg).foldl State.saveWg s
      else ps.foldl (fun s p => s.seekStores wg.die wg.part p.1 p.2) s
    else s)

/-! ### The test of R167 again, and swap-in (R126, R167, R239) -/

/-- The ACTIVE launches of a partition that have workgroups not yet placed: handle, node, launch. -/
def State.unplaced (s : State) (part : Nat) : List (Nat × Nat × Launch) :=
  s.graphs.flatMap fun x =>
    match x.2 with
    | some g => (match g.run with
      | some r =>
        if g.part == part && r.stopped.isNone then
          g.offsets.filterMap fun n =>
            let l := g.launch n
            if g.kind n == 1 && (r.node n).st == .active && decide ((r.node n).next < l.total) then some (x.1, n, l) else none
        else []
      | none => [])
    | none => []

/-- Every saved workgroup and every launch with workgroups not yet placed is tested, and those that could no longer be placed end with
NOFIT (R167, R173). -/
def State.retestFit (s : State) (part : Nat) : State :=
  let p := s.part part
  let gone := (s.ready part).filter fun x => !x.saved.isEmpty && s.neverFits p x.launch x.size
  let unfit := (s.unplaced part).filter fun x => s.neverFits p x.2.2 x.2.2.gang
  unfit.foldl (fun s x => s.failNode x.1 x.2.1 4 0xFFFFFFFF 0)
    (gone.foldl (fun s x => x.saved.foldl (fun s i => s.endEarly i 4 0) s) s)

/-- RESUME (R126, R167, R239): the partition is ACTIVE, its instruction caches are invalid, and fits are tested again
(DEDUCED, log entry 9). -/
def State.resumePart (s : State) (part : Nat) : State :=
  (s.modPart part fun p => { p with st := .active, codeImage := s.mem }).retestFit part

/-! ### The barrier watchdog (R333 to R335) -/

/-- An object that the watchdog counts. -/
inductive Watched where
  | bar (n : Nat)
  | fbar (slot : Nat)
  | win (slot n : Nat)
  deriving DecidableEq, Repr

/-- The fibres of a workgroup with slot and number, in order. -/
def Workgroup.fibList (w : Workgroup) : List (Nat × Nat × Fibre) :=
  (List.range w.launch.slots).flatMap fun k => (List.range (w.slot k).count).map fun f => (k, f, (w.slot k).fib f)

/-- The lowest fibre BLOCKED on an object. -/
def Workgroup.blockedAt (w : Workgroup) (x : Watched) : Option (Nat × Nat × Fibre) :=
  w.fibList.find? fun y =>
    y.2.2.st == .blocked &&
    match x, y.2.2.block with
    | .bar n, some (.barrier m) => n == m
    | .fbar k, some (.fbar _) => k == y.1
    | .win k n, some (.window m _ _) => k == y.1 && n == m
    | _, _ => false

/-- An object's count. -/
def Workgroup.watchCount (w : Workgroup) (x : Watched) : Nat :=
  match x with
  | .bar n => (w.bar n).count
  | .fbar k => (w.slot k).fbarCount
  | .win k n => Tab.get 0 (w.slot k).winCount n

/-- The objects of a workgroup in the order of R335. -/
def Workgroup.watched (w : Workgroup) : List Watched :=
  (List.range 16).map .bar ++ (List.range w.launch.slots).map .fbar ++
  (List.range w.launch.slots).flatMap fun k => (List.range 64).map (.win k)

/-- The first expired object, with the lowest fibre BLOCKED on it (R333, R335). -/
def State.expired (s : State) (w : Workgroup) : Option (Watched × Nat × Nat × Fibre) :=
  w.watched.findSome? fun x =>
    if 2 ^ (s.part w.part).wdog ≤ w.watchCount x then (w.blockedAt x).map fun y => (x, y) else none

/-- The FBAR mask on which a fibre is BLOCKED. -/
def Fibre.fbarMask (fb : Fibre) : BitVec 4 := match fb.block with | some (.fbar m) => m | _ => 0

/-- OBJKIND, OBJIDX, OSLOT, PHASE, EXPECTED, ARRIVED of the diagnostic header (R334). -/
def watchFields (w : Workgroup) (x : Watched) (fb : Fibre) : List Nat :=
  match x with
  | .bar n => [1, n, 0xFF, b2n (w.bar n).phase, (w.bar n).expected, (w.bar n).arrived]
  | .fbar k =>
    let m := fb.fbarMask
    [2, m.toNat, k, 0, (fibresOf m).length, ((fibresOf m).filter fun f => ((w.slot k).fib f).waitsAt m).length]
  | .win k n => [3, n, k, 0, 0, 0]

/-- A fibre's entry in the diagnostic record (R334). -/
def diagEntry (x : Nat × Nat × Fibre) : List Byte :=
  let fb := x.2.2
  let pc := if fb.st == .exited then fb.exitPc else fb.pc.getD ((lanesOf fb.live).headD 0) 0
  leBytes 1 x.1 ++ leBytes 1 x.2.1 ++ leBytes 1 fb.role ++ leBytes 1 fb.st.num ++ leBytes 2 fb.live.toNat ++
  leBytes 2 fb.laneSets.length ++ leBytes 8 (pcForm pc) ++ leBytes 8 (pcForm fb.restart) ++
  leBytes 1 fb.livein.nv ++ leBytes 1 fb.livein.ns ++ leBytes 1 fb.livein.nw ++ leBytes 1 fb.livein.nt ++
  leBytes 4 (match fb.frozenBy with | some (n, _) => n | none => 0)

/-- The diagnostic record (R334). -/
def State.diagRecord (s : State) (w : Workgroup) (x : Watched) (fb : Fibre) (frseq : Nat) : List Byte :=
  let f := watchFields w x fb
  let fs := w.fibList
  leBytes 1 (f.getD 0 0) ++ leBytes 1 (f.getD 1 0) ++ leBytes 1 (f.getD 2 0) ++ leBytes 1 (f.getD 3 0) ++
  leBytes 2 (f.getD 4 0) ++ leBytes 2 (f.getD 5 0) ++ leBytes 4 frseq ++ leBytes 4 w.index ++ leBytes 2 w.vcore ++
  leBytes 2 fs.length ++ leBytes 1 (s.part w.part).wdog ++ leBytes 3 0 ++ leBytes 8 s.stamp ++ List.replicate 32 0 ++
  fs.flatMap diagEntry

/-- Termination by the watchdog (R334): WDOG and DIAG are set in the record, and SRC is 3. -/
def State.terminate (s : State) (i : Nat) (x : Watched) (y : Nat × Nat × Fibre) : State :=
  let w := s.wg i
  let fb := y.2.2
  let f := watchFields w x fb
  let n := (s.part w.part).frseq + 1
  let t : Trap := ⟨.barrierTimeout, 0xFF, 0, f.getD 0 0 + 256 * f.getD 1 0⟩
  let pc := fb.pc.getD ((lanesOf fb.live).headD 0) 0
  let rec_ := faultRecord s w y.1 y.2.1 pc fb.live 6 3 n t
  let diag := s.diagRecord w x fb n
  let s1 := s.modPart w.part fun p => { p with diags := (p.diags ++ [(n, diag)]).drop (p.diags.length - 15) }
  (s1.queueRecord w.part n rec_).endEarly i 2 0x09

/-- WATCHDOG_EXPIRY (R333 to R335). -/
def execWatchdogExpiry (w : Nat) (s : State) : Answer :=
  .next (
    let wg := s.wg w
    if s.runs wg then
      match s.expired wg with
      | some (x, y) => s.terminate w x y
      | none => s
    else s)

end Sys2Proof.Machine
end

