-- ==== Sys2Proof/Machine/Hash.lean ====
section
/-! DEFINITION. SHA-256 and the verification of LMS and HSS signatures (R103, R107): the manual names the standards, and this file
follows them (PRESUMED, log entry 106). Numbers in these structures are big-endian, as the standards have them (R7). -/

namespace Sys2Proof.Machine

/-! ### SHA-256 -/

/-- The four words of a 128-bit number, from its high end. -/
def words4 (x : Nat) : List Word := [BitVec.ofNat 32 (x >>> 96), BitVec.ofNat 32 (x >>> 64), BitVec.ofNat 32 (x >>> 32), BitVec.ofNat 32 x]

/-- The round constants, four in each number. -/
def shaK : List Word := List.flatMap words4 [
  0x428a2f9871374491b5c0fbcfe9b5dba5, 0x3956c25b59f111f1923f82a4ab1c5ed5,
  0xd807aa9812835b01243185be550c7dc3, 0x72be5d7480deb1fe9bdc06a7c19bf174,
  0xe49b69c1efbe47860fc19dc6240ca1cc, 0x2de92c6f4a7484aa5cb0a9dc76f988da,
  0x983e5152a831c66db00327c8bf597fc7, 0xc6e00bf3d5a7914706ca635114292967,
  0x27b70a852e1b21384d2c6dfc53380d13, 0x650a7354766a0abb81c2c92e92722c85,
  0xa2bfe8a1a81a664bc24b8b70c76c51a3, 0xd192e819d6990624f40e3585106aa070,
  0x19a4c1161e376c082748774c34b0bcb5, 0x391c0cb34ed8aa4a5b9cca4f682e6ff3,
  0x748f82ee78a5636f84c878148cc70208, 0x90befffaa4506cebbef9a3f7c67178f2]

/-- The first hash value. -/
def shaStart : List Word := words4 0x6a09e667bb67ae853c6ef372a54ff53a ++ words4 0x510e527f9b05688c1f83d9ab5be0cd19

/-- A number as n big-endian bytes. -/
def beBytes (n x : Nat) : List Byte := (leBytes n x).reverse

/-- The big-endian number of some bytes. -/
def beNat (bs : List Byte) : Nat := leNat bs.reverse

/-- The padded message: a one bit, zeros, and the length in bits. -/
def shaPad (m : List Byte) : List Byte :=
  m ++ [0x80] ++ List.replicate ((119 - m.length % 64) % 64) 0 ++ beBytes 8 (8 * m.length)

/-- The next word of the message schedule, from the sixteen before it, newest first. -/
def shaNext (w : List Word) : Word :=
  let a := w.getD 1 0
  let b := w.getD 14 0
  let s1 := a.rotateRight 17 ^^^ a.rotateRight 19 ^^^ (a >>> 10)
  let s0 := b.rotateRight 7 ^^^ b.rotateRight 18 ^^^ (b >>> 3)
  s1 + w.getD 6 0 + s0 + w.getD 15 0

/-- The schedule of a block: its words and 48 more. -/
def shaSchedule (block : List Byte) : List Word :=
  let w := (List.range 16).map fun k => BitVec.ofNat 32 (beNat (byteSlice block (4 * k) 4))
  ((List.range 48).foldl (fun ws _ => shaNext ws :: ws) w.reverse).reverse

/-- One round on the working variables a to h. -/
def shaRound (v : List Word) (k w : Word) : List Word :=
  match v with
  | [a, b, c, d, e, f, g, h] =>
    let s1 := e.rotateRight 6 ^^^ e.rotateRight 11 ^^^ e.rotateRight 25
    let ch := (e &&& f) ^^^ (~~~e &&& g)
    let t1 := h + s1 + ch + k + w
    let s0 := a.rotateRight 2 ^^^ a.rotateRight 13 ^^^ a.rotateRight 22
    let maj := (a &&& b) ^^^ (a &&& c) ^^^ (b &&& c)
    [t1 + (s0 + maj), a, b, c, d + t1, e, f, g]
  | _ => v

/-- A block joins the hash value. -/
def shaBlock (h : List Word) (block : List Byte) : List Word :=
  let v := (shaK.zip (shaSchedule block)).foldl (fun v x => shaRound v x.1 x.2) h
  (h.zip v).map fun x => x.1 + x.2

/-- SHA-256 (PRESUMED, log entry 106). -/
def sha256 (m : List Byte) : List Byte :=
  let p := shaPad m
  ((List.range (p.length / 64)).foldl (fun h k => shaBlock h (byteSlice p (64 * k) 64)) shaStart).flatMap fun w => beBytes 4 w.toNat

/-! ### LM-OTS, LMS and HSS (RFC 8554) -/

/-- A one-time signature scheme with 32-byte hashes: type code, width of a digit, digits, shift of the checksum. -/
structure OtsSet where
  code : Nat
  w : Nat
  p : Nat
  ls : Nat
  deriving DecidableEq, Repr

/-- LM-OTS_SHA256_N32_W8. -/
def otsW8 : OtsSet := ⟨4, 8, 34, 0⟩
/-- LM-OTS_SHA256_N32_W4. -/
def otsW4 : OtsSet := ⟨3, 4, 67, 4⟩

/-- A Merkle tree with 32-byte nodes: type code and height. -/
structure LmsSet where
  code : Nat
  height : Nat
  ots : OtsSet
  deriving DecidableEq, Repr

/-- The firmware root tree: LMS_SHA256_M32_H20 (R103). -/
def lmsRoot : LmsSet := ⟨8, 20, otsW8⟩
/-- The tree below it: LMS_SHA256_M32_H10 (R103). -/
def lmsBelow : LmsSet := ⟨6, 10, otsW8⟩

/-- Digit i of a string, in digits of w bits from the most significant. -/
def otsDigit (bs : List Byte) (i w : Nat) : Nat :=
  (bs.getD (i * w / 8) 0).toNat / 2 ^ (8 - w - i * w % 8) % 2 ^ w

/-- The digest with its checksum. -/
def otsChecked (o : OtsSet) (q : List Byte) : List Byte :=
  let sum := ((List.range (256 / o.w)).map fun i => 2 ^ o.w - 1 - otsDigit q i o.w).sum
  q ++ beBytes 2 (sum * 2 ^ o.ls)

/-- Steps of a hash chain from one position on. -/
def otsChain (pre : List Byte) (i : Nat) : Nat → Nat → List Byte → List Byte
  | 0, _, x => x
  | n + 1, j, x => otsChain pre i n (j + 1) (sha256 (pre ++ beBytes 2 i ++ beBytes 1 j ++ x))

/-- The one-time public key that a signature leads to, for a tree identifier, leaf and message. -/
def otsCandidate (o : OtsSet) (ident : List Byte) (leaf : Nat) (msg sig : List Byte) : List Byte :=
  let pre := ident ++ beBytes 4 leaf
  let d := otsChecked o (sha256 (pre ++ beBytes 2 0x8181 ++ byteSlice sig 4 32 ++ msg))
  let z := (List.range o.p).flatMap fun i =>
    let a := otsDigit d i o.w
    otsChain pre i (2 ^ o.w - 1 - a) a (byteSlice sig (36 + 32 * i) 32)
  sha256 (pre ++ beBytes 2 0x8080 ++ z)

/-- The root that a leaf's value leads to along its path. -/
def lmsClimb (ident : List Byte) : Nat → List Byte → List (List Byte) → List Byte
  | _, x, [] => x
  | node, x, y :: r =>
    let pair := if node % 2 == 1 then y ++ x else x ++ y
    lmsClimb ident (node / 2) (sha256 (ident ++ beBytes 4 (node / 2) ++ beBytes 2 0x8383 ++ pair)) r

/-- Bytes of a one-time signature, and of a tree's signature. -/
def OtsSet.size (o : OtsSet) : Nat := 36 + 32 * o.p
/-- Bytes of a tree's signature. -/
def LmsSet.size (t : LmsSet) : Nat := 8 + t.ots.size + 32 * t.height

/-- Whether a tree's signature over a message verifies under a public key of 56 bytes (PRESUMED, log entry 106). -/
def lmsVerify (t : LmsSet) (key msg sig : List Byte) : Bool :=
  let ident := byteSlice key 8 16
  let leaf := beNat (byteSlice sig 0 4)
  let ots := byteSlice sig 4 t.ots.size
  let path := (List.range t.height).map fun k => byteSlice sig (8 + t.ots.size + 32 * k) 32
  let kc := otsCandidate t.ots ident leaf msg ots
  let node := 2 ^ t.height + leaf
  key.length == 56 && sig.length == t.size && beNat (byteSlice key 0 4) == t.code && beNat (byteSlice key 4 4) == t.ots.code &&
  beNat (byteSlice ots 0 4) == t.ots.code && beNat (byteSlice sig (4 + t.ots.size) 4) == t.code && decide (leaf < 2 ^ t.height) &&
  lmsClimb ident node (sha256 (ident ++ beBytes 4 node ++ beBytes 2 0x8282 ++ kc)) path == byteSlice key 24 32

/-- Whether a two-level signature over a message verifies under a public key of 60 bytes: the upper tree signs the public key of
the lower one, and that one the message (PRESUMED, log entry 106). -/
def hssVerify (upper lower : LmsSet) (key msg sig : List Byte) : Bool :=
  let s0 := byteSlice sig 4 upper.size
  let k1 := byteSlice sig (4 + upper.size) 56
  let s1 := sig.drop (60 + upper.size)
  key.length == 60 && beNat (byteSlice key 0 4) == 2 && beNat (byteSlice sig 0 4) == 1 &&
  lmsVerify upper (key.drop 4) k1 s0 && lmsVerify lower k1 msg s1

end Sys2Proof.Machine
end

