-- ==== Sys2Proof/Machine/Trailhead.lean ====
section
/-! DEFINITION. The Trailhead protocol (R88 to R94): acceptance of datagrams, senders and lengths, and the commands on graphs, events,
windows and keys, identity and firmware, with DIAG (R95 to R107, R331, R332, R337, R338). -/

namespace Sys2Proof

/-- A number in a payload. -/
def Datagram.arg (d : Datagram) (a n : Nat) : Nat := Machine.leAt d.payload a n

/-- The length of a payload. -/
def Datagram.len (d : Datagram) : Nat := d.payload.length

/-- Whether reserved bytes of a payload are zero, as BADARG of R93 asks: pairs of first byte and count (DESIGN CHOICE, log entry 108). -/
def Datagram.zeros (d : Datagram) (rs : List (Nat × Nat)) : Bool :=
  rs.all fun r => (List.range r.2).all fun k => d.payload.getD (r.1 + k) 0 == 0

/-- A header that a command may have (R88): reserved bits of FLAGS are ignored (R9) (DESIGN CHOICE, log entry 107). -/
def Datagram.wellFormed (d : Datagram) : Bool :=
  d.magic == 0x7A11 && d.ver == 1 && decide (d.func < 64) && d.flags % 4 == 0 && d.claim == d.len && decide (d.len ≤ 8192) &&
  d.status == 0

/-- The patches of a GRUN: offset, length, value (R97). -/
def Datagram.patches (d : Datagram) : List (Nat × Nat × Nat) :=
  (List.range (d.arg 12 2)).map fun k => (d.arg (16 + 16 * k) 4, d.arg (20 + 16 * k) 1, d.arg (24 + 16 * k) 8)

/-- PLAIN of a datagram that may be plain: IDENTIFY and ATTEST (R89). -/
def Datagram.plain (d : Datagram) : Bool := Machine.bitAt d.flags 2 && (d.opc == 1 || d.opc == 2)

/-- The PCONFIG items, with the one that RETIRE, MEM, TTAG, FABRIC and BWIN name by a further byte (R60, R120, R123, R139, R175,
R243, R251, R254, R258, R454). -/
def Datagram.item (d : Datagram) : Instr :=
  match d.arg 1 1 with
  | 0x01 => .weight
  | 0x02 => .gshare
  | 0x03 => .wdog
  | 0x04 => .coremap
  | 0x05 => .funcs
  | 0x06 => .asids
  | 0x07 => if d.arg 4 1 == 1 then .memRelease else .memGrant
  | 0x08 => .start
  | 0x09 => .suspend
  | 0x0A => .resume
  | 0x0B => if d.arg 6 1 == 1 then .retireHide else .retireExpose
  | 0x0C => if d.arg 6 1 == 1 then .ttagUnmap else .ttagMap
  | 0x0D => if d.arg 5 1 == 1 then .fabricRelease else .fabricGrant
  | 0x0E => .accspill
  | 0x0F => .asroot
  | 0x10 => .tlbinv
  | 0x11 => match d.arg 5 1 with
    | 1 => .bwinDestroy
    | 2 => .bwinSetWriter
    | _ => .bwinCreate
  | 0x12 => .priv
  | _ => .badop

/-- The sub-operations of YPORT (R94). -/
def Datagram.subPort (d : Datagram) : Instr :=
  match d.arg 1 1 with
  | 0 => .fixed
  | 1 => .switched
  | 2 => .enable
  | 3 => .disable
  | 4 => .peer
  | 5 => if Machine.bitAt (d.arg 8 8) 11 then .routeClear else .route
  | 6 => .read
  | _ => .badop

/-- The sub-operations of DIAG (R331). -/
def Datagram.subDiag (d : Datagram) : Instr :=
  match d.arg 0 1 with
  | 0 => .diagResume
  | 1 => .diagContinue
  | 2 => .discard
  | 3 => .diagread
  | 4 => .pfreeze
  | 5 => .pthaw
  | 6 => .dumpread
  | _ => .badop

/-- The command of a datagram (R92); `badop` stands for an unlisted opcode, item or sub-operation
(DEDUCED, log entry 38). -/
def Datagram.command (d : Datagram) : Instr :=
  match d.opc with
  | 0x01 => .identify
  | 0x02 => .attest
  | 0x03 => .ping
  | 0x10 => .galloc
  | 0x11 => .gload
  | 0x12 => .gseal
  | 0x13 => .gfree
  | 0x14 => .grun
  | 0x15 => .gcancel
  | 0x20 => .evread
  | 0x21 => .winset
  | 0x22 => .htset
  | 0x23 => d.subDiag
  | 0x30 => .pcreate
  | 0x31 => .pdestroy
  | 0x32 => d.item
  | 0x33 => .fassign
  | 0x34 => .keyset
  | 0x40 => .ykey
  | 0x41 => d.subPort
  | 0x42 => .yquiesce
  | 0x43 => .yresume
  | 0x44 => .treealloc
  | 0x45 => .treefree
  | 0x50 => .fwstage
  | 0x51 => .telread
  | 0x52 => .telwrite
  | _ => .badop

end Sys2Proof

namespace Sys2Proof.Machine

/-- Who may send a command (R92, R331). -/
inductive Sender92 where
  | any | hyper | assigned | diag | none
  deriving DecidableEq, Repr

/-- The sender that the table lists for an opcode (R92, R331). -/
def senderOf (opc : Nat) : Sender92 :=
  match opc with
  | 0x01 | 0x02 | 0x03 | 0x20 => .any
  | 0x10 | 0x11 | 0x12 | 0x13 | 0x14 | 0x15 | 0x21 | 0x22 => .assigned
  | 0x23 => .diag
  | 0x30 | 0x31 | 0x32 | 0x33 | 0x34 | 0x40 | 0x41 | 0x42 | 0x43 | 0x44 | 0x45 | 0x50 | 0x51 | 0x52 => .hyper
  | _ => .none

/-- Whether a function may send an opcode (R79, R92). -/
def State.maySend (s : State) (fn opc : Nat) : Bool :=
  match senderOf opc with
  | .any | .none => true
  | .hyper => fn == 0
  | .assigned => (s.func fn).part.isSome
  | .diag => fn == 0 || (s.func fn).part.isSome

/-! ### Acceptance (R88 to R91, R104) -/

/-- What becomes of an arriving SEQ (R90). -/
inductive Arrival90 where
  | fresh | cached (st : Nat) (payload : List Byte) | drop | below
  deriving DecidableEq, Repr

/-- The row of R90 for a SEQ (DEDUCED, log entry 38). -/
def Func.arrival (f : Func) (seq : Nat) : Arrival90 :=
  if seq == 0 || seq + 64 < f.top then .below
  else if f.top < seq then .fresh
  else if seq != f.top && !f.seen.getLsbD (f.top - 1 - seq) then .fresh
  else
    match f.cache.find? fun c => c.1 == seq with
    | some c => .cached c.2.1 c.2.2
    | none => .drop

/-- The window with a SEQ accepted (R90). -/
def Func.accept (f : Func) (d : Datagram) : Func :=
  let f1 : Func :=
    if f.top < d.seq then
      let k := d.seq - f.top
      { f with top := d.seq, seen := (if 64 < k then 0 else f.seen <<< k) ||| (if k ≤ 64 then 1#64 <<< (k - 1) else 0) }
    else { f with seen := f.seen ||| (1#64 <<< (f.top - 1 - d.seq)) }
  { f1 with busy := f1.busy ++ [(d.seq, d.ip, d.udp)], lastAddr := some (d.ip, d.udp) }

/-- A message that fails authentication (R33, R89). -/
def State.authFail (s : State) : State := { s with base := { s.base with authFails := s.base.authFails + 1 } }

/-- What the controller answers in recovery (R104). -/
def servedInRecovery (d : Datagram) : Bool := d.func == 0 && (d.opc == 1 || d.opc == 2 || d.opc == 3 || d.opc == 0x50)

/-- Answer a datagram: a plain command at once, an accepted one by its SEQ (R89, R90). -/
def State.reply (s : State) (d : Datagram) (st : Status) (payload : List Byte := []) : State :=
  if d.plain then s.send (.reply d.func d.ip d.udp d.seq st.num payload) else s.respond d.func d.seq st payload

/-- Whether a datagram is authentic for a function: its tag verifies under the function's key (R89, R102)
(DESIGN CHOICE, log entry 15). -/
def Func.authentic (f : Func) (d : Datagram) : Bool := f.key.isSome && d.key == f.key

/-- The acceptance of a datagram: the state, and whether its command is to be served (R88 to R92, R104; DEDUCED, log entry 38). What
is no command is discarded and not counted (DESIGN CHOICE, log entry 15) (DESIGN CHOICE, log entry 107). -/
def State.accept (s : State) (d : Datagram) : State × Bool :=
  let f := s.func d.func
  if !d.wellFormed then (s, false)
  else if s.base.recovery && !servedInRecovery d then (s, false)
  else if d.plain then (s, true)
  else if bitAt d.flags 2 || !f.authentic d then (s.authFail, false)
  else
    match f.arrival d.seq with
    | .below => ({ s with base := { s.base with belowWindow := s.base.belowWindow + 1 } }, false)
    | .drop => (s, false)
    | .cached st p => (s.send (.reply d.func d.ip d.udp d.seq st p), false)
    | .fresh =>
      let s1 := s.setFunc d.func (f.accept d)
      if 32 ≤ f.busy.length then (s1.respond d.func d.seq .busy, false)
      else if senderOf d.opc == .none then (s1.respond d.func d.seq .badop, false)
      else if !s1.maySend d.func d.opc then (s1.respond d.func d.seq .denied, false)
      else (s1, true)

/-- A command of the oldest datagram; another datagram's turn changes nothing, and exchanges wait while the link is down (R76). -/
def command (i : Instr) (body : Datagram → State → State) (s : State) : Answer :=
  .next (
    match s.rx with
    | [] => s
    | d :: rest =>
      if s.base.ethDown || d.command != i then s
      else
        match State.accept { s with rx := rest } d with
        | (s1, true) => body d s1
        | (s1, false) => s1)

/-- A command whose fields must pass a check, or BADARG (R93, R94) (DESIGN CHOICE, log entry 108). -/
def checked (i : Instr) (ok : Datagram → Bool) (body : Datagram → State → State) (s : State) : Answer :=
  command i (fun d s => if ok d then body d s else s.reply d .badarg) s

/-- BADOP (R92): an unlisted opcode is answered at acceptance; what is left is an item or sub-operation that is not listed (R94). -/
def execBadop (s : State) : Answer := command .badop (fun d s => s.reply d .badarg) s

/-! ### Identity, attestation and firmware (R103 to R107) -/

/-- PING (R94). -/
def execPing (s : State) : Answer := checked .ping (fun d => d.len == 0) (fun d s => s.reply d .ok) s

/-- The part number in ASCII, zero-padded (R94, R106). -/
def partNumber : List Byte := [0x42, 0x4C, 0x4E, 0x2D, 0x38, 0x34, 0, 0]

/-- The identity public key, Ferique's certificate over it, the intermediate public key and its signature (R94, R106). -/
def identityParts : List (List Byte) :=
  [Config.identityKey, Config.identityCertificate, Config.intermediateKey, Config.intermediateSignature]

/-- IDENTIFY (R94, R106). -/
def execIdentify (s : State) : Answer :=
  checked .identify (fun d => d.len == 0)
    (fun d s =>
      s.reply d .ok
        (leBytes 8 Config.moduleIdentity.toNat ++ partNumber ++ identityParts.flatMap (fun x => leBytes 2 x.length) ++
          identityParts.flatten)) s

/-- A partition's configuration, as its digest covers it: core map, functions, weight, routing table version (R107)
(DESIGN CHOICE, log entry 112). -/
def State.configBytes (s : State) (part : Nat) : List Byte :=
  let p := s.part part
  (p.cores.flatMap fun c => leBytes 2 c.1) ++
  ((List.range 64).filter fun f => (s.func f).part == some part).flatMap (leBytes 1) ++
  leBytes 2 p.weight ++ leBytes 4 s.base.rtver

/-- The Cairn map as bytes (R33, R112) (DESIGN CHOICE, log entry 112). -/
def State.cairnBytes (s : State) (c : Nat) : List Byte :=
  let e := s.cairnOf c
  leBytes 1 (e.pdie % 7) ++ leBytes 1 (e.pdie / 7) ++ leBytes 1 e.pcore ++ leBytes 1 (e.partner.getD 0xFF) ++ leBytes 2 e.cfeat.toNat

/-- SERV of a logical core (R33). -/
def Serv.num : Serv → Nat
  | .inService => 0 | .quarantined => 1 | .retired => 2 | .isolated => 3 | .fenced => 4

/-- The service state of a logical core as it is reported: an isolated die's cores in service are isolated (R33, R135). -/
def State.servOf (s : State) (c : Nat) : Serv :=
  if (s.cairnOf c).serv == .inService && s.isIsolated (c / 48) then .isolated else (s.cairnOf c).serv

/-- The report of ATTEST before its signature (R94, R107): the defect map is the service state of every logical core, a byte each
(DESIGN CHOICE, log entry 112). -/
def State.report (s : State) (fn : Nat) (nonce : List Byte) : List Byte :=
  let part := (s.func fn).part
  let maps := fn == 0
  nonce ++ leBytes 8 Config.moduleIdentity.toNat ++ leBytes 4 s.base.secVersion ++ leBytes 2 (part.getD 0xFFFF) ++
  leBytes 2 s.base.measurements.length ++
  (match part with | some p => sha256 (s.configBytes p) | none => List.replicate 32 0) ++
  (if maps then sha256 ((List.range 3840).flatMap s.cairnBytes) else List.replicate 32 0) ++
  (if maps then sha256 ((List.range 3840).flatMap fun c => leBytes 1 (s.servOf c).num) else List.replicate 32 0) ++
  s.base.measurements.flatMap fun m => leBytes 32 m.toNat

/-- A new session tree is begun, if the identity tree has an index left: the index advances first (R105)
(DEDUCED, log entry 113). -/
def Module.beginSession (m : Module) : Module :=
  if m.identityLeft == 0 then { m with sessionLeft := 0, sessionBusy := false }
  else { m with identityIx := m.identityIx + 1, identityLeft := m.identityLeft - 1, sessionLeft := 0, sessionBusy := true }

/-- The session tree of an attestation: LMS_SHA256_M32_H15 with LM-OTS_SHA256_N32_W4 (R103). -/
def lmsSession : LmsSet := ⟨7, 15, otsW4⟩

/-- The bytes of an attestation's signature: a tree signs the session tree's public key, and that one the report (R103). -/
def attestBytes : Nat := 4 + lmsRoot.size + 56 + lmsSession.size

/-- ATTEST (R94, R105, R107): it is served while the session tree has signatures left, whatever is left of the identity tree
(DEDUCED, log entry 113). -/
def execAttest (s : State) : Answer :=
  checked .attest (fun d => d.len == 32)
    (fun d s =>
      if s.base.sessionBusy || s.base.sessionLeft == 0 then s.reply d .busy
      else
        let r := s.report d.func d.payload
        let sig := byteSlice (Config.signature (32768 * s.base.identityIx + s.base.sessionLeft) r) 0 attestBytes
        let m : Module := { s.base with sessionLeft := s.base.sessionLeft - 1 }
        State.reply { s with base := if m.sessionLeft == 0 then m.beginSession else m } d .ok (r ++ leBytes 4 sig.length ++ sig)) s

/-- SESSION_TREE (R105): the generation of a session tree is complete. -/
def execSessionTree (s : State) : Answer :=
  .next (if s.base.sessionBusy then { s with base := { s.base with sessionBusy := false, sessionLeft := 32768 } } else s)

/-- Whether every byte of an image of a length has been written, from a place on (R94) (DESIGN CHOICE, log entry 114). -/
def covered (parts : List (Nat × Nat)) (total : Nat) : Nat → Nat → Bool
  | 0, at_ => decide (total ≤ at_)
  | fuel + 1, at_ =>
    decide (total ≤ at_) ||
    match (parts.filterMap fun p => if p.1 ≤ at_ && at_ < p.1 + p.2 then some (p.1 + p.2) else none).foldl max 0 with
    | 0 => false
    | e => covered parts total fuel e

/-- A firmware image that the boot chain takes: its root key is the one whose digest the fuses hold, its signature verifies, and its
security version is not below the count of blown fuse bits (R103, R104). -/
def Module.imageOk (m : Module) (img : List Byte) : Bool :=
  let x := Config.imageParts img
  sha256 x.1 == beBytes 32 Config.rootKeyDigest.toNat && hssVerify lmsRoot lmsBelow x.1 x.2.2.1 x.2.1 && decide (m.blown ≤ x.2.2.2)

/-- FWSTAGE (R94, R104): parts in any order; the last one starts the verification, and a failure empties the store
(DESIGN CHOICE, log entry 114). -/
def execFwstage (s : State) : Answer :=
  checked .fwstage
    (fun d =>
      let n := d.arg 8 4
      64 ≤ d.len && 1 ≤ d.arg 0 4 && d.arg 0 4 ≤ 2 ^ 26 && d.arg 4 4 % 64 == 0 && 1 ≤ n && n ≤ 8128 && d.len == 64 + n &&
      d.arg 12 1 < 2 && d.zeros [(13, 51)] && d.arg 4 4 + n ≤ d.arg 0 4)
    (fun d s =>
      let total := d.arg 0 4
      let off := d.arg 4 4
      let st : Staging := if s.base.staging.total == total then s.base.staging else { total := total }
      let st1 : Staging := { st with
        bytes := Memory.write st.bytes off (d.payload.drop 64), parts := st.parts ++ [(off, d.arg 8 4)], verified := none }
      let put (x : Staging) : State := { s with base := { s.base with staging := x } }
      if d.arg 12 1 == 0 then (put st1).reply d .ok
      else if !covered st1.parts total (st1.parts.length + 1) 0 then s.reply d .badarg
      else
        let img := Memory.bytes st1.bytes 0 total
        if s.base.imageOk img then (put { st1 with verified := some img }).reply d .ok else (put {}).reply d .badsig) s

/-! ### Graph memory and runs (R95 to R98) -/

/-- The partition of a command's function. -/
def State.partOf (s : State) (d : Datagram) : Nat := ((s.func d.func).part).getD 0

/-- The graph that a command names, if it is the sender's partition's. -/
def State.graphFor (s : State) (d : Datagram) : Option Graph :=
  match s.graph (d.arg 0 4) with
  | some g => if g.part == s.partOf d then some g else none
  | none => none

/-- The lowest free range of a partition's share, which the graphs held never exceed (R95) (DEDUCED, log entry 46). -/
def freeUnits (gs : List (Nat × Graph)) (share n : Nat) : Option Nat :=
  ((0 :: gs.map fun g => g.2.base + g.2.units).filter fun b =>
    decide (b + n ≤ share) && decide ((gs.map fun g => g.2.units).sum + n ≤ share) && !(gs.any fun g => rangesMeet b n g.2.base g.2.units)).foldl
      (fun m b => match m with | none => some b | some k => some (min k b)) none

/-- The next handle that no graph holds, and is not 0 (DESIGN CHOICE, log entry 68). -/
def State.freeHandle (s : State) : Nat :=
  (((List.range (s.graphs.length + 2)).map fun k => (s.nextHandle + k) % 2 ^ 32).find? fun h => h != 0 && (s.graph h).isNone).getD 1

/-- GALLOC (R95). -/
def execGalloc (s : State) : Answer :=
  checked .galloc (fun d => d.len == 4 && d.arg 0 4 != 0)
    (fun d s =>
      let gs := s.graphsOf (s.partOf d)
      let n := d.arg 0 4
      match freeUnits gs (s.part (s.partOf d)).share n with
      | some b =>
        if 1024 ≤ gs.length then s.reply d .nospace
        else
          let h := s.freeHandle
          State.reply { s.setGraph h (some { part := s.partOf d, base := b, units := n }) with nextHandle := (h + 1) % 2 ^ 32 } d .ok
            (leBytes 4 h)
      | none => s.reply d .nospace) s

/-- GLOAD (R94, R96). -/
def execGload (s : State) : Answer :=
  checked .gload
    (fun d => 64 ≤ d.len && 1 ≤ d.arg 4 4 && d.arg 4 4 ≤ 8128 && d.len == 64 + d.arg 4 4 && d.arg 8 8 % 64 == 0 && d.zeros [(16, 48)])
    (fun d s =>
      match s.graphFor d with
      | none => s.reply d .badarg
      | some g =>
        if g.sealed then s.reply d .sealed
        else if g.size < d.arg 8 8 + d.arg 4 4 then s.reply d .badarg
        else
          (s.setGraph (d.arg 0 4) (some { g with bytes := Memory.write g.bytes (d.arg 8 8) (d.payload.drop 64) })).reply d .ok) s

/-- GSEAL (R96, R145). -/
def execGseal (s : State) : Answer :=
  checked .gseal (fun d => d.len == 4)
    (fun d s =>
      match s.graphFor d with
      | none => s.reply d .badarg
      | some g =>
        if g.sealed then s.reply d .ok
        else
          match s.sealFailure g with
          | some (i, o) => s.reply d .badgraph (leBytes 4 i ++ leBytes 4 o)
          | none => (s.setGraph (d.arg 0 4) (some { g with sealed := true })).reply d .ok) s

/-- GFREE (R96). -/
def execGfree (s : State) : Answer :=
  checked .gfree (fun d => d.len == 4)
    (fun d s =>
      match s.graphFor d with
      | none => s.reply d .badarg
      | some g =>
        if g.run.isSome || !g.queue.isEmpty then s.reply d .busy else (s.setGraph (d.arg 0 4) none).reply d .ok) s

/-- GRUN (R97, R98, R117) (DEDUCED, log entry 69). -/
def execGrun (s : State) : Answer :=
  checked .grun
    (fun d => 16 ≤ d.len && d.arg 12 2 ≤ 64 && d.zeros [(14, 2)] && d.len == 16 + 16 * d.arg 12 2 &&
      (List.range (d.arg 12 2)).all (fun k => d.zeros [(21 + 16 * k, 3)]) &&
      (Datagram.patches d).all fun p => p.2.1 == 1 || p.2.1 == 2 || p.2.1 == 4 || p.2.1 == 8)
    (fun d s =>
      match s.graphFor d with
      | none => s.reply d .badarg
      | some g =>
        let ps := Datagram.patches d
        if !g.sealed then s.reply d .badarg
        else if (s.part g.part).st == .opened then s.reply d .busy
        else if !(ps.all fun p => g.patchLegal p.1 p.2.1) then s.reply d .badpatch
        else if 16 ≤ g.queue.length then s.reply d .busy
        else
          let n := (g.lastSeq + 1) % 2 ^ 32
          let r : RunReq := { func := d.func, tag := BitVec.ofNat 64 (d.arg 4 8), seq := n, patches := ps }
          (s.setGraph (d.arg 0 4) (some { g with queue := g.queue ++ [r], lastSeq := n })).reply d .ok (leBytes 4 n)) s

/-- GCANCEL (R98). -/
def execGcancel (s : State) : Answer :=
  checked .gcancel (fun d => d.len == 4)
    (fun d s =>
      match s.graphFor d with
      | none => s.reply d .badarg
      | some g => (s.cancelRuns (d.arg 0 4) fun _ => true).reply d .ok (leBytes 4 g.queue.length)) s

/-! ### Events, windows, host targets, keys (R83, R86, R101, R102) -/

/-- Release events; the first release that makes room after drops queues an overflow event (R99 to R101). -/
def State.releaseEvents (s : State) (fn upTo : Nat) : State :=
  let f := s.func fn
  let left := f.events.filter fun e => decide (upTo < e.1)
  let s1 := s.setFunc fn { f with events := left }
  if f.dropped != 0 && left.length < f.events.length then
    (s1.setFunc fn { f with events := left, dropped := 0 }).event fn 6 ((f.part).getD 0xFFFF) (leBytes 4 f.dropped)
  else s1

/-- EVREAD (R94, R101). -/
def execEvread (s : State) : Answer :=
  checked .evread (fun d => d.len == 6 && d.arg 4 2 ≤ 96)
    (fun d s =>
      let s1 := if d.arg 0 4 == 0 then s else s.releaseEvents d.func (d.arg 0 4)
      let f := s1.func d.func
      let es := f.events.take (d.arg 4 2)
      s1.reply d .ok (leBytes 4 es.length ++ leBytes 4 f.evseq ++ leBytes 8 0 ++ es.flatMap (·.2))) s

/-- WINSET (R83, R94). -/
def execWinset (s : State) : Answer :=
  checked .winset
    (fun d => d.len == 26 && d.arg 0 2 < 4096 && d.arg 2 1 < 8 && d.zeros [(3, 1)] && d.arg 8 8 % 65536 == 0 && d.arg 16 8 % 65536 == 0)
    (fun d s =>
      let f := s.func d.func
      let len := d.arg 16 8
      if len != 0 && !(s.part (s.partOf d)).hasAsid (d.arg 24 2) then s.reply d .badarg
      else
        let w : Option MemWin :=
          if len == 0 then none
          else some { perms := BitVec.ofNat 3 (d.arg 2 1), key := BitVec.ofNat 32 (d.arg 4 4), base := d.arg 8 8, len := len, asid := d.arg 24 2 }
        (s.setFunc d.func { f with windows := Tab.set none f.windows (d.arg 0 2) w }).reply d .ok) s

/-- HTSET (R86, R94). -/
def execHtset (s : State) : Answer :=
  checked .htset (fun d => d.len == 24 && d.arg 0 2 < 256 && d.arg 2 2 < 1024)
    (fun d s =>
      let f := s.func d.func
      let t : Option HostTarget :=
        if d.arg 16 8 == 0 then none
        else some { qp := d.arg 2 2, key := BitVec.ofNat 32 (d.arg 4 4), base := d.arg 8 8, len := d.arg 16 8 }
      (s.setFunc d.func { f with targets := Tab.set none f.targets (d.arg 0 2) t }).reply d .ok) s

/-- KEYSET (R94, R102): it takes effect, and is answered, once the function's commands in progress are answered
(DESIGN CHOICE, log entry 115). -/
def execKeyset (s : State) : Answer :=
  checked .keyset (fun d => d.len == 64 && 1 ≤ d.arg 0 1 && d.arg 0 1 ≤ 63 && d.zeros [(1, 31)])
    (fun d s =>
      let fn := d.arg 0 1
      let k : BitVec 256 := BitVec.ofNat 256 (d.arg 32 32)
      let f := s.func fn
      if f.busy.isEmpty then (s.setFunc fn (f.withKey k)).reply d .ok
      else if f.newKey.isSome then s.reply d .busy
      else s.setFunc fn { f with newKey := some k, keyCmd := some (d.func, d.seq) }) s

/-- TRAY_KEY_INSTALL (R102): function 0's key, through the management port. -/
def execTrayKeyInstall (key : BitVec 256) (s : State) : Answer := .next (s.setFunc 0 ((s.func 0).withKey key))

/-! ### DIAG (R331, R332, R337, R338) -/

/-- The payload of DIAG is 16 bytes, and PART a partition that exists. -/
def State.diagOk (s : State) (d : Datagram) : Bool :=
  d.len == 16 && d.zeros [(1, 1)] && d.arg 2 2 < 32 && (s.part (d.arg 2 2)).st != .free

/-- A DIAG command that function 0 or the partition's event function may send, or function 0 alone (R331). -/
def diag (i : Instr) (events : Bool) (body : Datagram → State → State) (s : State) : Answer :=
  command i (fun d s =>
    if d.func != 0 && !(events && d.arg 2 2 < 32 && (s.part (d.arg 2 2)).eventFn == some d.func) then s.reply d .denied
    else if s.diagOk d then body d s
    else s.reply d .badarg) s

/-- The fibre that a record of a partition froze, with the record's code (R329 to R331). -/
def State.frozenFib (s : State) (part frseq : Nat) : Option (Nat × Nat × Nat × Nat) :=
  s.wgs.findSome? fun x =>
    match x.2 with
    | some w =>
      if w.part == part && w.place != .ended then
        w.fibList.findSome? fun y =>
          match y.2.2.st, y.2.2.frozenBy with
          | .frozen, some (n, c) => if n == frseq then some (x.1, y.1, y.2.1, c) else none
          | _, _ => none
      else none
    | none => none

/-- RESUME (R226, R331). -/
def execDiagResume (s : State) : Answer :=
  diag .diagResume true
    (fun d s =>
      match s.frozenFib (d.arg 2 2) (d.arg 4 4) with
      | none => s.reply d .badarg
      | some (w, k, f, _) => if s.outstanding w k f then s.reply d .busy else (s.resumeFibre w k f).reply d .ok) s

/-- The address of the instruction that a record names: its PC field, or the lowest lane's where the record is not kept. -/
def State.recordPc (s : State) (part frseq w k f : Nat) : Nat :=
  match (s.part part).faultQ.find? fun r => r.1 == frseq with
  | some r => leAt r.2 8 8
  | none => (s.fib w k f).pc.getD ((lanesOf (s.fib w k f).live).headD 0) 0

/-- CONTINUE (R331, R332) (DEDUCED, log entry 70). -/
def execDiagContinue (s : State) : Answer :=
  diag .diagContinue true
    (fun d s =>
      match s.frozenFib (d.arg 2 2) (d.arg 4 4) with
      | none => s.reply d .badarg
      | some (w, k, f, c) =>
        if (c != FaultCode.trap.num && c != FaultCode.bkpt.num) || (s.wg w).place != .resident then s.reply d .badarg
        else if s.outstanding w k f then s.reply d .busy
        else (s.continueFibre w k f (s.recordPc (d.arg 2 2) (d.arg 4 4) w k f)).reply d .ok) s

/-- DISCARD (R171, R331). -/
def execDiscard (s : State) : Answer :=
  diag .discard true
    (fun d s =>
      match s.frozenFib (d.arg 2 2) (d.arg 4 4) with
      | none => s.reply d .badarg
      | some (w, _, _, c) => (s.endEarly w 3 c).reply d .ok) s

/-- Up to 8,192 bytes from an offset. -/
def chunk (bs : List Byte) (off : Nat) : List Byte := (bs.drop off).take 8192

/-- DIAGREAD (R331, R334). -/
def execDiagread (s : State) : Answer :=
  diag .diagread true
    (fun d s =>
      match (s.part (d.arg 2 2)).diags.find? fun r => r.1 == d.arg 4 4 with
      | some r => s.reply d .ok (chunk r.2 (d.arg 8 8))
      | none => s.reply d .badarg) s

/-- PFREEZE (R331, R337). -/
def execPfreeze (s : State) : Answer := diag .pfreeze false (fun d s => (s.freezePart (d.arg 2 2)).reply d .ok) s

/-- A fibre's clocks after a stop of some cycles (R337) (DEDUCED, log entry 70). -/
def Fibre.delay (fb : Fibre) (n : Nat) : Fibre :=
  { fb with
    timers := fb.timers.map fun x => (x.1 + n, x.2)
    status := fb.status.map fun x => (x.1 + n, x.2)
    latches := fb.latches.map fun x => (x.1, { x.2 with ready := x.2.ready + n })
    lastIssue := fb.lastIssue + n
    writeAt := fb.writeAt + n }

/-- A workgroup's clocks after a stop. -/
def Workgroup.delay (w : Workgroup) (n : Nat) : Workgroup :=
  { w with
    readyAt := w.readyAt + n
    slots := w.slots.map fun x => (x.1, { x.2 with fibres := x.2.fibres.map fun y => (y.1, y.2.delay n) }) }

/-- The entries of a partition on a die whose threshold is met, in the order of one check (R180, R337). -/
def State.thawFiring (s : State) (die part : Nat) : List (Nat × Entry) :=
  (s.entries.filterMap fun x =>
    if x.1 / 16384 == die && x.2.st == .posted && x.2.part == part &&
       decide (x.2.thresh ≤ (s.counter die (entTctr x.2.img)).value.toNat) then some (x.1 % 16384, x.2)
    else none).foldl (fun acc x => State.firing.insertBy x acc) []

/-- A partition freeze is released: every fibre continues as though no time had passed, and posted entries are checked (R337). -/
def State.thawPart (s : State) (part : Nat) : State :=
  let p := s.part part
  let n (die : Nat) : Nat := s.now die - Tab.get (s.now die) p.frozenAt die
  let s1 := s.setPart part { p with frozen := false }
  let s2 : State := { s1 with wgs := s1.wgs.map fun x => (x.1, x.2.map fun w => if w.part == part then w.delay (n w.die) else w) }
  let s3 := p.cores.foldl (fun s c => s.modCore c.1 fun k => { k with cycles0 := k.cycles0 + n (c.1 / 48) }) s2
  (List.range 80).foldl (fun s die =>
    (s.thawFiring die part).foldl (fun s x =>
      (s.setEntry die x.1 { x.2 with st := .queued }).setNet die part (s.net die part ++ [.entry x.1])) s) s3

/-- PTHAW (R331, R337). -/
def execPthaw (s : State) : Answer :=
  diag .pthaw false (fun d s => if (s.part (d.arg 2 2)).frozen then (s.thawPart (d.arg 2 2)).reply d .ok else s.reply d .busy) s

/-- DUMPREAD (R331, R338). -/
def execDumpread (s : State) : Answer :=
  diag .dumpread false
    (fun d s =>
      match (s.part (d.arg 2 2)).image with
      | some bs => s.reply d .ok (chunk bs (d.arg 8 8))
      | none => s.reply d .busy) s

end Sys2Proof.Machine
end

