-- ==== Sys2Proof/Machine/Telemetry.lean ====
section
/-! DEFINITION. The commands on Yilbel ports (R43, R50, R59 to R65, R74, R75, R94), on the reduction table (R196), and on the telemetry
window (R32, R33). -/

namespace Sys2Proof.Machine

/-! ### Keys (R59, R61) -/

/-- A transmit key is installed: its FCTR starts at 0, and a tag's only key is the one in use (R53, R59). -/
def Port.installTx (p : Port) (t j : Nat) (key : Option (BitVec 256)) : Port :=
  { p with
    txKeys := Tab.set none p.txKeys (2 * t + j) key
    fctr := Tab.set 0 p.fctr (2 * t + j) 0
    inUse := if p.hasTx t (1 - j) then p.inUse else Tab.set 0 p.inUse t j
    spent := p.spent.filter (· != 2 * t + j) }

/-- A receive key is installed: a tag's only key is the one in use (R59, R61). -/
def Port.installRx (p : Port) (t j : Nat) (key : Option (BitVec 256)) : Port :=
  { p with
    rxKeys := Tab.set none p.rxKeys (2 * t + j) key
    rxUse := if (Tab.get none p.rxKeys (2 * t + (1 - j))).isSome then p.rxUse else Tab.set 0 p.rxUse t j }

/-- YKEY (R61): an index that holds a key is in use or not yet retired (DESIGN CHOICE, log entry 54). -/
def execYkey (s : State) : Answer :=
  checked .ykey (fun d => d.len == 64 && d.arg 0 1 < 96 && d.arg 1 1 < 2 && d.arg 3 1 < 2 && d.zeros [(4, 28)])
    (fun d s =>
      let n := d.arg 0 1
      let t := d.arg 2 1
      let k := 2 * t + d.arg 3 1
      let key : Option (BitVec 256) := some (BitVec.ofNat 256 (d.arg 32 32))
      let p := s.port n
      if d.arg 1 1 == 0 then
        if (Tab.get none p.txKeys k).isSome then s.reply d .busy
        else ((s.setPort n (p.installTx t (d.arg 3 1) key)).pump).reply d .ok
      else if (Tab.get none p.rxKeys k).isSome then s.reply d .busy
      else (s.setPort n (p.installRx t (d.arg 3 1) key)).reply d .ok) s

/-! ### YPORT (R43, R50, R75, R94, R181) -/

/-- The response of YPORT: YPSTAT and YPEER (R94). -/
def State.portReply (s : State) (d : Datagram) (n : Nat) : State :=
  s.reply d .ok (leBytes 4 (s.port n).stat ++ leBytes 4 0 ++ leBytes 8 (s.port n).peer.toNat)

/-- A sub-operation of YPORT on the port of byte 0. -/
def portItem (i : Instr) (ok : Datagram → Bool) (body : Datagram → Nat → State → State) (s : State) : Answer :=
  checked i (fun d => d.len == 16 && d.arg 0 1 < 96 && d.zeros [(2, 6)] && ok d) (fun d s => body d (d.arg 0 1) s) s

/-- The number of fixed ports but for one. -/
def State.fixedPorts (s : State) (n : Nat) : Nat := (s.ports.filter fun x => x.1 != n && x.2.fixed).length

/-- FIXED (R43): a 33rd fixed port is refused (DESIGN CHOICE, log entry 55). -/
def execFixed (s : State) : Answer :=
  portItem .fixed (fun _ => true)
    (fun d n s =>
      if (s.port n).st != .disabled then s.reply d .busy
      else if 32 ≤ s.fixedPorts n then s.reply d .nospace
      else (s.modPort n fun p => { p with fixed := true }).portReply d n) s

/-- SWITCHED (R43) (DESIGN CHOICE, log entry 55). -/
def execSwitched (s : State) : Answer :=
  portItem .switched (fun _ => true)
    (fun d n s =>
      if (s.port n).st != .disabled then s.reply d .busy
      else (s.modPort n fun p => { p with fixed := false }).portReply d n) s

/-- ENABLE (R75): a port that is enabled already is left as it is (DESIGN CHOICE, log entry 55). -/
def execEnable (s : State) : Answer :=
  portItem .enable (fun _ => true)
    (fun d n s => (s.modPort n fun p => if p.st == .disabled then { p.fresh with st := .down } else p).portReply d n) s

/-- DISABLE (R75): outstanding requests complete as at a fault. -/
def execDisable (s : State) : Answer :=
  portItem .disable (fun _ => true)
    (fun d n s =>
      let s1 := if (s.port n).st == .disabled || (s.port n).st == .fault then s else s.portFault n
      (s1.modPort n fun p => { p with st := .disabled, carrier := 0, lanes := 0 }).portReply d n) s

/-- PEER (R50): accepted while the port is DISABLED, DOWN or HOLD. -/
def execPeer (s : State) : Answer :=
  portItem .peer (fun _ => true)
    (fun d n s =>
      match (s.port n).st with
      | .disabled | .down | .hold => (s.modPort n fun p => { p with peer := BitVec.ofNat 64 (d.arg 8 8) }).portReply d n
      | _ => s.reply d .busy) s

/-- The module route table with an entry (R94, R181). -/
def State.setRoute (s : State) (m x : Nat) : State := { s with base := { s.base with routes := Tab.set 0 s.base.routes m x } }

/-- ROUTE (R94, R181). -/
def execRoute (s : State) : Answer :=
  portItem .route (fun d => d.arg 8 8 < 2048) (fun d n s => (s.setRoute (d.arg 8 8) (n + 1)).portReply d n) s

/-- ROUTE with operand [11] set: the module's entry is cleared (R94). -/
def execRouteClear (s : State) : Answer :=
  portItem .routeClear (fun d => d.arg 8 8 < 4096) (fun d n s => (s.setRoute (d.arg 8 8 % 2048) 0).portReply d n) s

/-- READ (R94). -/
def execRead (s : State) : Answer := portItem .read (fun _ => true) (fun d n s => s.portReply d n) s

/-! ### Quiesce and resume (R62 to R65) -/

/-- YQUIESCE (R62, R65). -/
def execYquiesce (s : State) : Answer :=
  checked .yquiesce (fun d => d.len == 12 && d.arg 0 1 < 96 && d.zeros [(1, 3)])
    (fun d s =>
      let n := d.arg 0 1
      let p := s.port n
      if p.fixed then s.reply d .notSwitched
      else if p.st != .active || p.quiescing then s.reply d .ok (leBytes 4 p.stat)
      else
        s.setPort n { p with
          st := if p.training.isSome then .active else .drain
          quiescing := true
          peerDone := false
          drainUs := if d.arg 4 4 == 0 then 100 else d.arg 4 4
          holdMs := if d.arg 8 4 == 0 then 100 else d.arg 8 4
          cmd := some (d.func, d.seq) }) s

/-- YRESUME (R62, R64, R65): answered on the identity's match or mismatch (DESIGN CHOICE, log entry 105). -/
def execYresume (s : State) : Answer :=
  checked .yresume (fun d => d.len == 48 && d.arg 0 1 < 96 && d.zeros [(1, 7)])
    (fun d s =>
      let n := d.arg 0 1
      let p := s.port n
      if p.st != .hold then s.reply d .busy
      else
        State.pump (s.setPort n ({ p with
          st := .verify
          lanes := 0
          peer := BitVec.ofNat 64 (d.arg 8 8)
          note := d.payload.drop 16
          cmd := some (d.func, d.seq) }.sendTraining p.carrier))) s

/-! ### The reduction table (R196) -/

/-- TREEALLOC (R196) (DEDUCED, log entry 56). -/
def execTreealloc (s : State) : Answer :=
  checked .treealloc
    (fun d =>
      16 ≤ d.len && d.arg 0 4 != 0 && d.arg 6 1 ≤ 8 && d.len == 16 + 4 * d.arg 6 1 && d.zeros [(7, 1), (12, 4)] &&
      (d.arg 8 2 == 0xFFFF || d.arg 10 2 < 96) && (List.range (d.arg 6 1)).all fun k => d.arg (18 + 4 * k) 2 < 96)
    (fun d s =>
      if 32 ≤ d.arg 4 1 || (s.part (d.arg 4 1)).st == .free then s.reply d .badarg
      else if s.trees.any fun t => t.id == d.arg 0 4 then s.reply d .badarg
      else if 64 ≤ s.trees.length then s.reply d .noSlot
      else
        let t : Tree :=
          { id := d.arg 0 4, part := d.arg 4 1, ttag := d.arg 5 1
            parent := if d.arg 8 2 == 0xFFFF then none else some (d.arg 8 2, d.arg 10 2)
            children := (List.range (d.arg 6 1)).map fun k => (d.arg (16 + 4 * k) 2, d.arg (18 + 4 * k) 2) }
        State.reply { s with trees := s.trees ++ [t] } d .ok) s

/-- TREEFREE (R196): BUSY while an entry of a posted collective names the identifier. -/
def execTreefree (s : State) : Answer :=
  checked .treefree (fun d => d.len == 4)
    (fun d s =>
      if !(s.trees.any fun t => t.id == d.arg 0 4) then s.reply d .badarg
      else if s.entries.any fun e => e.2.st != .free && e.2.tree == d.arg 0 4 then s.reply d .busy
      else State.reply { s with trees := s.trees.filter fun t => t.id != d.arg 0 4 } d .ok) s

/-! ### The telemetry window (R32, R33) -/

/-- DTSTAT (R32). -/
def Die.stat (d : Die) : Nat :=
  d.step * 2 ^ 16 + d.hot.toNat * 2 ^ 8 + b2n d.trip * 8 + b2n (d.kPower != 0) * 4 + b2n (d.kTherm != 0) * 2 + b2n d.warn

/-- Sensor readings as signed halves. -/
def sensorBytes (t : Tab Half) (n : Nat) : List Byte := (List.range n).flatMap fun k => leBytes 2 (Tab.get 0 t k).toNat

/-- A physical die's 32 bytes (R33). -/
def Die.record (d : Die) : List Byte :=
  sensorBytes d.sensors 8 ++ leBytes 4 d.stat ++ leBytes 1 d.st ++ leBytes 1 (d.logical.getD 0xFF) ++ leBytes 1 d.group ++ leBytes 1 0 ++
  leBytes 4 d.soft ++ leBytes 4 0

/-- The partition whose core map names a core, or 0xFF (R33). -/
def State.corePart (s : State) (c : Nat) : Nat :=
  match s.parts.find? fun x => x.2.cores.any fun y => y.1 == c with
  | some x => x.1
  | none => 0xFF

/-- The 16 bytes of a Cairn map entry (R33, R112). -/
def State.cairnRecord (s : State) (c : Nat) : List Byte :=
  s.cairnBytes c ++ leBytes 1 (s.servOf c).num ++ leBytes 1 (s.corePart c) ++ List.replicate 8 0

/-- A byte of the telemetry window (R33). -/
def State.telByte (s : State) (a : Nat) : Byte :=
  let rec_ (base size : Nat) (f : Nat → List Byte) : Byte := (f ((a - base) / size)).getD ((a - base) % size) 0
  if a < 0x40 then (leBytes 8 1 ++ leBytes 8 Config.moduleIdentity.toNat ++ leBytes 8 s.stamp).getD a 0
  else if a < 0x60 then (sensorBytes s.base.frameSensors 16).getD (a - 0x40) 0
  else if 0x100 ≤ a && a < 0x100 + 32 * 84 then rec_ 0x100 32 fun n => (s.die n).record
  else if 0x1000 ≤ a && a < 0x1000 + 16 * 96 then
    rec_ 0x1000 16 fun n => leBytes 4 (s.port n).stat ++ leBytes 4 0 ++ leBytes 8 (s.port n).peer.toNat
  else if 0x2000 ≤ a && a < 0x2000 + 8 * 112 then rec_ 0x2000 8 fun n => leBytes 8 (0xF000000000 + 65536 * n)
  else if 0x3000 ≤ a && a < 0x4000 then rec_ 0x3000 2 fun m => leBytes 2 ((s.routeOf m).getD 0xFFFF)
  else if 0x4000 ≤ a && a < 0x4020 then
    (leBytes 8 s.base.ethDiscards ++ leBytes 8 s.base.authFails ++ leBytes 8 s.base.belowWindow ++ leBytes 8 s.base.detours).getD (a - 0x4000) 0
  else if 0x10000 ≤ a && a < 0x10000 + 16 * 3840 then rec_ 0x10000 16 s.cairnRecord
  else 0

/-- A port whose YPSTAT a read of [a, a + n) covers has RETRY cleared (R33, R74). -/
def State.clearRetry (s : State) (a n : Nat) : State :=
  (List.range 96).foldl (fun s k =>
    if (s.port k).retry != 0 && rangesMeet a n (0x1000 + 16 * k) 4 then s.modPort k fun p => { p with retry := 0 } else s) s

/-- TELREAD (R33, R94). -/
def execTelread (s : State) : Answer :=
  checked .telread (fun d => d.len == 12 && 1 ≤ d.arg 8 4 && d.arg 8 4 ≤ 8192 && d.arg 0 8 + d.arg 8 4 ≤ 2 ^ 20)
    (fun d s =>
      let bs := (List.range (d.arg 8 4)).map fun k => s.telByte (d.arg 0 8 + k)
      (s.clearRetry (d.arg 0 8) (d.arg 8 4)).reply d .ok bs) s

/-- The effect of a TELWRITE: only bits that are cleared by writing one (R32, R33, R74). -/
def State.telWrite (s : State) (a w : Nat) : State :=
  if 0x100 ≤ a && a < 0x100 + 32 * 84 && a % 32 == 16 then
    if bitAt w 0 then s.setDie ((a - 0x100) / 32) { s.die ((a - 0x100) / 32) with warn := false } else s
  else if 0x1000 ≤ a && a < 0x1000 + 16 * 96 && a % 16 == 0 then
    s.modPort ((a - 0x1000) / 16) fun p => { p with events := p.events &&& ~~~(BitVec.ofNat 8 (w / 2 ^ 9)) }
  else s

/-- TELWRITE (R33, R94). -/
def execTelwrite (s : State) : Answer :=
  checked .telwrite (fun d => d.len == 12 && d.arg 0 8 % 4 == 0 && d.arg 0 8 + 4 ≤ 2 ^ 20)
    (fun d s => (s.telWrite (d.arg 0 8) (d.arg 8 4)).reply d .ok) s

end Sys2Proof.Machine
end

