-- ==== Sys2Proof/Machine/Hypervisor.lean ====
section
/-! DEFINITION. The hypervisor's commands on partitions: PCREATE, PDESTROY, FASSIGN and the items of PCONFIG (R95, R117 to R126, R139,
R175, R243, R251, R254, R258, R454). -/

namespace Sys2Proof.Machine

/-! ### Partitions and functions (R118, R119, R124) -/

/-- The partition that PCREATE takes: the number wanted, or the lowest free one; BADARG or NOSPACE (R118). -/
def State.freePart (s : State) (want : Nat) : Except Status Nat :=
  if want == 0xFF then
    match (List.range 32).find? fun p => (s.part p).st == .free with
    | some p => .ok p
    | none => .error .nospace
  else if 32 ≤ want || (s.part want).st != .free then .error .badarg
  else .ok want

/-- PCREATE (R40, R118) (DESIGN CHOICE, log entry 43). -/
def execPcreate (s : State) : Answer :=
  checked .pcreate (fun d => d.len == 8 && d.zeros [(1, 7)])
    (fun d s =>
      if !s.base.ready then s.reply d .busy
      else
        match s.freePart (d.arg 0 1) with
        | .error st => s.reply d st
        | .ok p => (s.setPart p { st := .opened }).reply d .ok (leBytes 1 p)) s

/-- PDESTROY (R119, R142): one sent during a SUSPEND follows its end (DESIGN CHOICE, log entry 43). -/
def execPdestroy (s : State) : Answer :=
  checked .pdestroy (fun d => d.len == 8 && d.zeros [(1, 7)] && d.arg 0 1 < 32)
    (fun d s =>
      let p := d.arg 0 1
      let x := s.part p
      match x.st with
      | .free => s.reply d .badarg
      | .destroying => s.reply d .busy
      | .suspending =>
        if x.endCmd.isSome then s.reply d .busy else s.setPart p { x with endCmd := some (d.func, d.seq) }
      | _ => s.beginDestroy p (some (d.func, d.seq))) s

/-- FASSIGN (R79, R108, R124); a FREE partition takes no function (DESIGN CHOICE, log entry 43). -/
def execFassign (s : State) : Answer :=
  checked .fassign (fun d => d.len == 8 && d.zeros [(2, 6)] && 1 ≤ d.arg 0 1 && d.arg 0 1 ≤ 63 && (d.arg 1 1 < 32 || d.arg 1 1 == 0xFF))
    (fun d s =>
      let q := if d.arg 1 1 == 0xFF then none else some (d.arg 1 1)
      match q with
      | none => (if (s.func (d.arg 0 1)).part == none then s else s.reassign (d.arg 0 1) none).reply d .ok
      | some p =>
        match (s.part p).st with
        | .free => s.reply d .badarg
        | .destroying => s.reply d .busy
        | _ => (if (s.func (d.arg 0 1)).part == some p then s else s.reassign (d.arg 0 1) (some p)).reply d .ok) s

/-! ### Items of PCONFIG (R120) -/

/-- The states in which an item is accepted (R120); a partition whose SUSPEND is under way is still ACTIVE. -/
inductive ItemStates where
  | any | rest | openOnly | activeOnly | suspendedOnly
  deriving DecidableEq, Repr

/-- Whether an item is accepted in a state (DESIGN CHOICE, log entry 43). -/
def ItemStates.takes : ItemStates → PartSt → Bool
  | _, .free | _, .destroying => false
  | .any, _ => true
  | .rest, st => st == .opened || st == .suspended
  | .openOnly, st => st == .opened
  | .activeOnly, st => st == .active
  | .suspendedOnly, st => st == .suspended

/-- A PCONFIG item: BADARG for a partition that is FREE or does not exist, BUSY in a state that is not listed, BADARG for a bad field. -/
def item (i : Instr) (sts : ItemStates) (ok : Datagram → Partition → Bool) (body : Datagram → Nat → State → State) (s : State) :
    Answer :=
  command i (fun d s =>
    let p := d.arg 0 1
    let x := s.part p
    if 32 ≤ p || x.st == .free then s.reply d .badarg
    else if !sts.takes x.st then s.reply d .busy
    else if d.len < 8 || !d.zeros [(2, 2)] || !ok d x then s.reply d .badarg
    else body d p s) s

/-- An item that changes its partition alone. -/
def simpleItem (i : Instr) (sts : ItemStates) (ok : Datagram → Partition → Bool) (f : Datagram → Partition → Partition) (s : State) :
    Answer :=
  item i sts ok (fun d p s => (s.modPart p (f d)).reply d .ok) s

/-- WEIGHT (R120, R165). -/
def execWeight (s : State) : Answer :=
  simpleItem .weight .any (fun d _ => d.len == 8 && d.zeros [(6, 2)] && d.arg 4 2 != 0) (fun d x => { x with weight := d.arg 4 2 }) s

/-- The graph memory that partitions hold, but for one (R95) (DEDUCED, log entry 46). -/
def State.sharesOf (s : State) (p : Nat) : Nat := (s.parts.filter fun x => x.1 != p).foldl (fun n x => n + x.2.share) 0

/-- GSHARE (R95, R120): the module has 2,048 units (DEDUCED, log entry 46). -/
def execGshare (s : State) : Answer :=
  item .gshare .rest (fun d _ => d.len == 8 && d.arg 4 4 ≤ 2048)
    (fun d p s =>
      let n := d.arg 4 4
      if n < ((s.graphsOf p).map fun g => g.2.units).sum then s.reply d .busy
      else if 2048 < n + s.sharesOf p then s.reply d .nospace
      else (s.modPart p fun x => { x with share := n }).reply d .ok) s

/-- WDOG (R120, R333). -/
def execWdog (s : State) : Answer :=
  simpleItem .wdog .any (fun d _ => d.len == 8 && d.zeros [(5, 3)] && 16 ≤ d.arg 4 1 && d.arg 4 1 ≤ 32)
    (fun d x => { x with wdog := d.arg 4 1 }) s

/-- The entries of a COREMAP item up to its truncation, and whether it truncates; none where an entry follows 0xFFFF (R121). -/
def mapEntries : List Nat → Option (List Nat × Bool)
  | [] => some ([], false)
  | c :: r =>
    if c == 0xFFFF then (if r.all (· == 0xFFFF) then some ([], true) else none)
    else (mapEntries r).map fun x => (c :: x.1, x.2)

/-- Whether a logical core is in service (R113, R121). -/
def State.inService (s : State) (c : Nat) : Bool := decide (c < 3840) && (s.cairnOf c).cfeat.getLsbD 0 && s.coreServes c

/-- Whether another partition's map names a logical core, or a hide that waits has taken it as its spare (R121, R142). -/
def State.coreTaken (s : State) (p c : Nat) : Bool :=
  (s.parts.any fun x => x.1 != p && x.2.cores.any fun y => y.1 == c) ||
  s.base.deferred.any fun d => d.command == .retireHide && d.arg 8 2 == c

/-- The core map that a COREMAP item makes, if it is accepted (R121). -/
def State.newMap (s : State) (p v0 : Nat) (es : List Nat) : Option (List (Nat × Bool)) :=
  let old := (s.part p).cores
  match mapEntries es with
  | none => none
  | some (cs, cut) =>
    let m : List (Nat × Bool) := old.take v0 ++ cs.map (fun c => (c, false)) ++ (if cut then [] else old.drop (v0 + cs.length))
    let names : List Nat := m.map (·.1)
    if v0 ≤ old.length && cs.all (fun c => s.inService c && !s.coreTaken p c) && decide names.Nodup && m.length ≤ 3840 then some m
    else none

/-- A core that enters a map: its counters start at zero (R452). -/
def State.enterMap (s : State) (c : Nat) : State :=
  s.modCore c fun k => { copyQ := k.copyQ, matQ := k.matQ, cycles0 := s.now (c / 48), picker := k.picker }

/-- COREMAP (R120, R121, R129). -/
def execCoremap (s : State) : Answer :=
  item .coremap .rest (fun d _ => d.len == 8 + 2 * d.arg 6 2)
    (fun d p s =>
      match s.newMap p (d.arg 4 2) ((List.range (d.arg 6 2)).map fun k => d.arg (8 + 2 * k) 2) with
      | none => s.reply d .badarg
      | some m =>
        let old := (s.part p).cores.map (·.1)
        let s1 := ((m.map (·.1)).filter fun c => !old.contains c).foldl State.enterMap s
        ((s1.modPart p fun x => { x with cores := m }).touchView p).reply d .ok) s

/-- FUNCS (R80, R120). -/
def execFuncs (s : State) : Answer :=
  item .funcs .any (fun d _ => d.len == 8 && d.zeros [(6, 2)])
    (fun d p s =>
      let role (f : Nat) : Option Nat := if f == 0xFF then none else some f
      let ok (f : Nat) : Bool := f == 0xFF || (decide (f < 64) && (s.func f).part == some p)
      if ok (d.arg 4 1) && ok (d.arg 5 1) then
        (s.modPart p fun x => { x with dataFn := role (d.arg 4 1), eventFn := role (d.arg 5 1) }).reply d .ok
      else s.reply d .badarg) s

/-- ASIDS (R120, R122): roots outside the new range are gone (DESIGN CHOICE, log entry 53). -/
def execAsids (s : State) : Answer :=
  item .asids .openOnly (fun d _ => d.len == 8 && 1 ≤ d.arg 6 2 && d.arg 4 2 + d.arg 6 2 ≤ 8192)
    (fun d p s =>
      let a := d.arg 4 2
      let n := d.arg 6 2
      if s.parts.any fun x => x.1 != p && rangesMeet a n x.2.asidBase x.2.asidCount then s.reply d .badarg
      else
        (s.modPart p fun x =>
          { x with asidBase := a, asidCount := n, roots := x.roots.filter fun r => decide (a ≤ r.1) && decide (r.1 < a + n) }).reply d .ok) s

/-- The granule range of an item at bytes 8 to 15. -/
def Datagram.granulesOk (d : Datagram) : Bool := d.arg 8 4 + d.arg 12 4 ≤ granules

/-- MEM with byte 4 zero: a grant (R120, R123); a granule on its way to zero cannot be granted yet
(DESIGN CHOICE, log entry 45). -/
def execMemGrant (s : State) : Answer :=
  item .memGrant .any (fun d _ => d.len == 16 && d.arg 4 1 == 0 && d.zeros [(5, 3)] && Datagram.granulesOk d)
    (fun d p s =>
      let g := d.arg 8 4
      let n := d.arg 12 4
      if !s.granulesAll g n fun o => o == 0 || o == p + 1 || 100 ≤ o then s.reply d .badarg
      else if !s.granulesAll g n fun o => o < 100 then s.reply d .busy
      else (s.setOwners g n (p + 1)).reply d .ok) s

/-- Whether an accumulator image of a partition lies spilled in a granule for which `q` holds (R243). -/
def State.spilledIn (s : State) (p : Nat) (q : Nat → Bool) : Bool :=
  s.accs.any fun x =>
    match x.2 with
    | some e => s.ownerOf x.1 == p + 1 && (match e.spillAt with | some a => q (a / 2 ^ 21) | none => false)
    | none => false

/-- MEM with byte 4 one: a release (R120, R123, R243); the granules are zeroed before they can be granted again. -/
def execMemRelease (s : State) : Answer :=
  item .memRelease .rest (fun d _ => d.len == 16 && d.zeros [(5, 3)] && Datagram.granulesOk d)
    (fun d p s =>
      let g := d.arg 8 4
      let n := d.arg 12 4
      if !s.granulesAll g n fun o => o == p + 1 then s.reply d .badarg
      else if s.spilledIn p fun k => decide (g ≤ k) && decide (k < g + n) then s.reply d .busy
      else (s.setOwners g n (100 + p)).reply d .ok) s

/-- An item of 8 bytes with no argument. -/
def bareItem (d : Datagram) (_ : Partition) : Bool := d.len == 8 && d.zeros [(4, 4)]

/-- START (R40, R117) (DEDUCED, log entry 9). -/
def execStart (s : State) : Answer :=
  item .start .openOnly bareItem
    (fun d p s =>
      let x := s.part p
      if x.cores.isEmpty || x.share == 0 then s.reply d .badarg
      else (s.setPart p { x with st := .active, codeImage := s.mem }).reply d .ok) s

/-- SUSPEND (R125): answered when the partition is SUSPENDED. -/
def execSuspend (s : State) : Answer :=
  item .suspend .activeOnly bareItem (fun d p s => s.modPart p fun x => { x with st := .suspending, cmd := some (d.func, d.seq) }) s

/-- Whether a drain commit's pause is under way (R134). -/
def State.paused (s : State) : Bool := s.base.pendingTable.isSome

/-- A command that waits for the end of a drain commit's pause (R137, R142). -/
def State.defer (s : State) (d : Datagram) (body : Datagram → State → State) : State :=
  if s.paused then { s with base := { s.base with deferred := s.base.deferred ++ [d] } } else body d s

/-- The effect of a RESUME (R126); the partition may have left SUSPENDED while it waited. -/
def resumeBody (d : Datagram) (s : State) : State :=
  if (s.part (d.arg 0 1)).st == .suspended then (s.resumePart (d.arg 0 1)).reply d .ok else s.reply d .busy

/-- RESUME (R126, R137). -/
def execResume (s : State) : Answer := item .resume .suspendedOnly bareItem (fun d _ s => s.defer d resumeBody) s

/-! ### Retirement (R139, R140, R142) -/

/-- A core leaves service in the Cairn map's service state. -/
def State.retireCore (s : State) (c : Nat) : State :=
  s.setCairn c { s.cairnOf c with serv := if (s.cairnOf c).serv == .fenced then .fenced else .retired }

/-- Fits are tested again where the partition places workgroups, at a retirement under expose mode (R167). -/
def State.retest (s : State) (p : Nat) : State := if (s.part p).st == .active then s.retestFit p else s

/-- Expose (R139): the virtual core keeps its number and is never placed on again. -/
def exposeBody (d : Datagram) (s : State) : State :=
  let p := d.arg 0 1
  let v := d.arg 4 2
  match (s.part p).cores[v]? with
  | none => s.reply d .badarg
  | some (c, _) =>
    (((s.retireCore c).modPart p fun x => { x with cores := x.cores.set v (c, true) }).touchView p |>.retest p).reply d .ok

/-- RETIRE, expose (R139, R142) (DESIGN CHOICE, log entry 48). -/
def execRetireExpose (s : State) : Answer :=
  item .retireExpose .any
    (fun d x => (d.len == 8 || (d.len == 10 && d.zeros [(8, 2)])) && d.arg 6 1 == 0 && d.zeros [(7, 1)] && d.arg 4 2 < x.cores.length)
    (fun d _ s => s.defer d exposeBody) s

/-- A spare with the counters of the core that it replaces: its engines and its picker stay its own, and CYCLES goes on from the value
`cycles` at the spare's cycle `now` (R139, R452). -/
def Core.carried (k spare : Core) (cycles now : Nat) : Core :=
  { k with copyQ := spare.copyQ, matQ := spare.matQ, picker := spare.picker, cyclesBase := cycles, cycles0 := now }

/-- Hide (R139): the virtual number names the spare, which takes the counters over. -/
def hideBody (d : Datagram) (s : State) : State :=
  let p := d.arg 0 1
  let v := d.arg 4 2
  let n := d.arg 8 2
  match (s.part p).cores[v]? with
  | none => s.reply d .badarg
  | some (c, _) =>
    if !s.inService n || s.parts.any (fun x => x.2.cores.any fun y => y.1 == n) || (s.cairnOf n).cfeat != (s.cairnOf c).cfeat then
      s.reply d .badarg
    else
      let s1 := s.setCore n ((s.core c).carried (s.core n) (s.cyclesOf c) (s.now (n / 48)))
      (((s1.modPart p fun x => { x with cores := x.cores.set v (n, false) }).touchView p).retireCore c).reply d .ok

/-- RETIRE, hide (R139, R142) (DESIGN CHOICE, log entry 48). -/
def execRetireHide (s : State) : Answer :=
  item .retireHide .any (fun d x => d.len == 10 && d.zeros [(7, 1)] && d.arg 4 2 < x.cores.length) (fun d _ s => s.defer d hideBody) s

/-! ### Tenant tags (R60, R120) -/

/-- The ports that a TTAG item names. -/
def tagPorts (n : Nat) : List Nat := if n == 0xFF then List.range 96 else [n]

/-- The fields of a TTAG item (DEDUCED, log entry 49). -/
def tagOk (d : Datagram) (_ : Partition) : Bool := d.len == 8 && d.zeros [(7, 1)] && (d.arg 4 1 < 96 || d.arg 4 1 == 0xFF) && 1 ≤ d.arg 5 1

/-- TTAG, map (R60): a tag of a port belongs to one partition, and a partition has one tag on a port
(DEDUCED, log entry 49). -/
def execTtagMap (s : State) : Answer :=
  item .ttagMap .any (fun d x => tagOk d x && d.arg 6 1 == 0)
    (fun d p s =>
      let t := d.arg 5 1
      let ns := tagPorts (d.arg 4 1)
      let free (n : Nat) : Bool :=
        (Tab.get 0 s.ttags (256 * n + t) == 0 || Tab.get 0 s.ttags (256 * n + t) == p + 1) &&
        (match s.tagOf n p with | some k => k == t | none => true)
      if !ns.all free then s.reply d .badarg
      else (State.touchView { s with ttags := ns.foldl (fun m n => Tab.set 0 m (256 * n + t) (p + 1)) s.ttags } p).reply d .ok) s

/-- TTAG, unmap (R60) (DEDUCED, log entry 49). -/
def execTtagUnmap (s : State) : Answer :=
  item .ttagUnmap .any tagOk
    (fun d p s =>
      let t := d.arg 5 1
      let ns := (tagPorts (d.arg 4 1)).filter fun n => Tab.get 0 s.ttags (256 * n + t) == p + 1
      if ns.isEmpty then s.reply d .badarg
      else (State.touchView { s with ttags := ns.foldl (fun m n => Tab.set 0 m (256 * n + t) 0) s.ttags } p).reply d .ok) s

/-! ### Fabric blocks, spill region, page tables, windows, privilege -/

/-- The fields of a FABRIC item (R175). -/
def fabricOk (d : Datagram) (_ : Partition) : Bool := d.len == 10 && d.arg 4 1 < 80 && d.arg 6 2 < 64 && d.arg 6 2 + d.arg 8 2 ≤ 64

/-- The blocks of a FABRIC item. -/
def fabricBlocks (d : Datagram) : List Nat := (List.range (d.arg 8 2)).map fun k => d.arg 6 2 + k

/-- Whether a block of a die is under release (DESIGN CHOICE, log entry 50). -/
def State.releasing (s : State) (die b : Nat) : Bool := s.releases.any fun r => r.die == die && r.blocks.contains b

/-- FABRIC, grant (R175) (DESIGN CHOICE, log entry 50). -/
def execFabricGrant (s : State) : Answer :=
  item .fabricGrant .any (fun d x => fabricOk d x && d.arg 5 1 == 0)
    (fun d p s =>
      let die := d.arg 4 1
      let bs := fabricBlocks d
      if !bs.all fun b => s.blockOwner die b == 0 || s.blockOwner die b == p + 1 then s.reply d .badarg
      else if bs.any (s.releasing die) then s.reply d .busy
      else State.reply { s with ctrBlocks := bs.foldl (fun t b => Tab.set 0 t (64 * die + b) (p + 1)) s.ctrBlocks } d .ok) s

/-- FABRIC, release: answered when its blocks are free (R175) (DESIGN CHOICE, log entry 50). -/
def execFabricRelease (s : State) : Answer :=
  item .fabricRelease .rest fabricOk
    (fun d p s =>
      let die := d.arg 4 1
      let bs := fabricBlocks d
      if !bs.all fun b => s.blockOwner die b == p + 1 then s.reply d .badarg
      else if bs.any (s.releasing die) then s.reply d .busy
      else
        let r : Release := ⟨die, p, bs, some (d.func, d.seq)⟩
        State.stopRearm { s with releases := s.releases ++ [r] } r) s

/-- ACCSPILL (R243). -/
def execAccspill (s : State) : Answer :=
  item .accspill .rest (fun d _ => d.len == 16 && d.zeros [(4, 4)] && (d.arg 12 4 == 0 || Datagram.granulesOk d))
    (fun d p s =>
      let g := d.arg 8 4
      let n := d.arg 12 4
      if !s.granulesAll g n fun o => o == p + 1 then s.reply d .badarg
      else if s.spilledIn p fun k => !(decide (g ≤ k) && decide (k < g + n)) then s.reply d .busy
      else (s.modPart p fun x => { x with spill := if n == 0 then none else some (g, n) }).reply d .ok) s

/-- ASROOT (R254). -/
def execAsroot (s : State) : Answer :=
  item .asroot .any (fun d x => d.len == 16 && d.zeros [(6, 2)] && x.hasAsid (d.arg 4 2) && d.arg 8 8 % 4096 == 0)
    (fun d p s =>
      let a := d.arg 8 8
      if a != 0 && !(decide (a < dramBytes) && s.ownerOf a == p + 1) then s.reply d .badarg
      else (s.modPart p fun x => { x with roots := Tab.set 0 x.roots (d.arg 4 2) a }).reply d .ok) s

/-- PRIV (R454). -/
def execPriv (s : State) : Answer :=
  simpleItem .priv .rest (fun d _ => d.len == 8 && d.zeros [(5, 3)] && d.arg 4 1 < 2) (fun d x => { x with priv := d.arg 4 1 == 1 }) s

/-- The range of a TLBINV: none for every page of the ASID (R258). -/
def tlbRange (d : Datagram) : Option (Nat × Nat) := if d.arg 6 1 == 1 then none else some (d.arg 8 8, d.arg 16 8)

/-- Whether bytes [a, a + n) lie in a range. -/
def inRange (r : Option (Nat × Nat)) (a n : Nat) : Bool :=
  match r with
  | none => true
  | some (b, k) => rangesMeet a n b k

/-- The names of accesses, commands and entries that a TLBINV waits for: an identifier, or 2^64 and the place of an entry, or 2^80 and
the place of a graph node (DEDUCED, log entry 52). -/
def State.usesAsid (s : State) (asid : Nat) (r : Option (Nat × Nat)) : List Nat :=
  let ops := s.pipe.filterMap fun o =>
    if (s.wg o.wg).launch.asid == asid && o.accs.any (fun a => !a.done && a.space != .localStore && inRange r a.va 512) then some o.id
    else none
  let cmds := s.cores.flatMap fun c =>
    (c.2.copyQ ++ c.2.matQ).filterMap fun x =>
      if x.started && (s.wg x.wg).launch.asid == asid && x.trans.any (fun t => inRange r (65536 * t.1) 65536) then some x.id
      else none
  let ents := s.entries.filterMap fun e =>
    if e.2.st == .inflight && entAsid e.2.img == asid &&
        (inRange r (entLaddr e.2.img) (entBytes e.2.img) || inRange r (entRaddr e.2.img) (entBytes e.2.img)) then some (2 ^ 64 + e.1)
    else none
  let nodes := s.netQ.flatMap fun q => q.2.filterMap fun i =>
    match i with
    | .node h n =>
      (match s.graph h with
       | some g => (match g.run with | some x => if (x.node n).sent then some (2 ^ 80 + h * 2 ^ 32 + n) else none | none => none)
       | none => none)
    | _ => none
  ops ++ cmds ++ ents ++ nodes

/-- Whether something that a TLBINV waits for is still under way. -/
def State.stillUses (s : State) (k : Nat) : Bool :=
  s.pipe.any (fun o => o.id == k) || s.cores.any (fun c => (c.2.copyQ ++ c.2.matQ).any fun x => x.id == k) ||
  (2 ^ 64 ≤ k && k < 2 ^ 80 && (Tab.get {} s.entries (k - 2 ^ 64)).st == .inflight) ||
  (2 ^ 80 ≤ k && s.netQ.any fun q => q.2.contains (.node ((k - 2 ^ 80) / 2 ^ 32) ((k - 2 ^ 80) % 2 ^ 32)))

/-- TLBINV (R258): entries are dropped, failed walks are forgotten, and the response waits for what used them
(DEDUCED, log entry 10) (DEDUCED, log entry 52). -/
def execTlbinv (s : State) : Answer :=
  item .tlbinv .any
    (fun d x =>
      d.len == 24 && x.hasAsid (d.arg 4 2) && d.arg 6 1 < 2 && d.zeros [(7, 1)] &&
      (d.arg 6 1 == 1 || (d.arg 8 8 % 65536 == 0 && d.arg 16 8 % 65536 == 0)))
    (fun d _ s =>
      let a := d.arg 4 2
      let r := tlbRange d
      { s.keepTlb (fun e => !(e.asid == a && inRange r (e.page * 2 ^ e.bits) (2 ^ e.bits))) with
        walkFails := s.walkFails.filter fun w => !(w.asid == a && inRange r (w.page * 65536) 65536)
        invs := s.invs ++ [(d.func, d.seq, s.usesAsid a r)] }) s

/-- The window that a BWIN item names, if the partition owns it. -/
def State.ownWindow (s : State) (p : Nat) (d : Datagram) : Option BWin :=
  match Tab.get none s.bwins (d.arg 4 1) with
  | some b => if b.part == p then some b else none
  | none => none

/-- The fields of every BWIN item (R251) (DESIGN CHOICE, log entry 51). -/
def bwinOk (d : Datagram) (_ : Partition) : Bool := d.len == 26 && d.arg 4 1 < 64

/-- The granules of a window (R251). -/
def BWin.granuleList (b : BWin) : List Nat := (List.range b.rows).flatMap fun r => b.members.map fun m => 80 * (b.row0 + r) + m

/-- BWIN, create (R251): every replica starts as zero (DESIGN CHOICE, log entry 51). -/
def execBwinCreate (s : State) : Answer :=
  item .bwinCreate .rest
    (fun d x => bwinOk d x && d.arg 5 1 == 0 && 1 ≤ d.arg 12 4 && d.arg 8 4 + d.arg 12 4 ≤ granules / 80)
    (fun d p s =>
      let b : BWin :=
        { part := p, writer := d.arg 6 2, row0 := d.arg 8 4, rows := d.arg 12 4
          members := (List.range 80).filter fun m => bitAt (d.arg 16 10) m }
      match Tab.get none s.bwins (d.arg 4 1) with
      | some w => s.reply d (if w.part == p then .busy else .badarg)
      | none =>
        if !b.members.contains b.writer || !b.granuleList.all (fun g => Tab.get 0 s.owner g == p + 1) then s.reply d .badarg
        else
          State.reply { (b.granuleList.foldl State.zeroGranule s).dropWindow (d.arg 4 1) with bwins := Tab.set none s.bwins (d.arg 4 1) (some b) } d .ok) s

/-- BWIN, destroy (R251) (DESIGN CHOICE, log entry 51). -/
def execBwinDestroy (s : State) : Answer :=
  item .bwinDestroy .rest bwinOk
    (fun d p s =>
      match s.ownWindow p d with
      | none => s.reply d .badarg
      | some _ => State.reply { s.dropWindow (d.arg 4 1) with bwins := Tab.set none s.bwins (d.arg 4 1) none } d .ok) s

/-- BWIN, set writer (R251): it takes effect, and is answered, after every STB of the previous writer has performed. -/
def execBwinSetWriter (s : State) : Answer :=
  item .bwinSetWriter .any bwinOk
    (fun d p s =>
      match s.ownWindow p d with
      | none => s.reply d .badarg
      | some b =>
        if b.members.contains (d.arg 6 2) then { s with writers := s.writers ++ [(d.arg 4 1, d.arg 6 2, d.func, d.seq)] }
        else s.reply d .badarg) s

/-! ### What waits for other work (R251, R258) -/

/-- Whether an STB into a window is still to perform. -/
def State.stbInto (s : State) (w : Nat) : Bool :=
  s.pipe.any fun o => (match o.kind with | .stb .. => true | _ => false) && o.accs.any fun a => a.pa / 2 ^ 40 == w

/-- The first change of writer that may take effect, made (R251). -/
def State.writerStage (s : State) : Option State :=
  (s.writers.find? fun x => !s.stbInto x.1).map fun x =>
    let s1 : State := { s with writers := s.writers.erase x }
    match Tab.get none s.bwins x.1 with
    | some b => State.respond { s1 with bwins := Tab.set none s1.bwins x.1 (some { b with writer := x.2.1 }) } x.2.2.1 x.2.2.2 .ok
    | none => s1.respond x.2.2.1 x.2.2.2 .ok

/-- The first TLBINV for which something has ended, with what is left, or answered (R258) (DEDUCED, log entry 52). -/
def State.invStage (s : State) : Option State :=
  (s.invs.find? fun x => x.2.2.isEmpty || x.2.2.any fun k => !s.stillUses k).map fun x =>
    let left := x.2.2.filter s.stillUses
    if left.isEmpty then State.respond { s with invs := s.invs.erase x } x.1 x.2.1 .ok
    else { s with invs := s.invs.map fun y => if y == x then (x.1, x.2.1, left) else y }

end Sys2Proof.Machine
end

