-- ==== Sys2Proof/Machine/Wafer.lean ====
section
/-! DEFINITION. The module and its wafer: bring-up and power (R19 to R24, R40, R104, R109 to R113, R141), Lantern inputs (R28), thermal
and power throttling (R29 to R32), remaps (R24 to R26), scrubs (R38, R39), routing tables (R133 to R137), quarantine (R138) and
the loss of a die (R141), with the module freeze (R337, R338). -/

namespace Sys2Proof.Machine

/-! ### The module freeze (R337, R338) -/

/-- A coherence state as a number. -/
def Moesi.num : Moesi → Nat
  | .i => 0
  | .s => 1
  | .e => 2
  | .o => 3
  | .m => 4

/-- A home record as numbers: its owner, and whether the line is pinned. -/
def Home.nats (h : Home) : List Nat :=
  (match h.owner with
   | .none => [0, 0]
   | .shared => [1, 0]
   | .em d => [2, d]
   | .o d => [3, d]) ++ [b2n h.pinned]

/-- A transient record as numbers. -/
def Trans.nats (x : Trans) : List Nat :=
  [match x.kind with | .isD => 0 | .imAd => 1 | .smA => 2 | .omA => 3 | .miA => 4, x.die, x.id]

/-- The value of a request kind (R245). -/
def OrderKind.num : OrderKind → Nat
  | .rds => 1 | .rdx => 2 | .own => 3 | .upg => 4 | .putm => 5 | .puto => 6 | .pin => 7

/-- A request of an order lane: its frame and station, and its slot (R244). -/
def OrderReq.nats (r : OrderReq) : List Nat := [r.frame, r.station, r.slot r.kind.num]

/-- The cores of a die that hold a line in their L1s, a bit for each (R240). -/
def State.presenceBits (s : State) (die line : Nat) : Nat :=
  s.l1.foldl (fun m x => if l1Of die line x.1 then m ||| 2 ^ (x.1 / 2 ^ 40 % 48) else m) 0

/-- The sections of a die that only a module freeze has: L2 tags with home records, accumulator tables, and the station's queues,
transient records and groups (R338). -/
def State.dumpDie (s : State) (die : Nat) : List Byte :=
  let opq (kind : Nat) (xs : List Nat) : List Byte := dumpPart kind die 0xFFFF 0 (Config.dumpSection kind xs)
  let homes := s.homes.filter fun x => homeDie (256 * x.1) == die
  opq 10 (((s.lines.filter fun x => x.1 / 2 ^ 40 == die).flatMap fun x =>
      [x.1 % 2 ^ 40, x.2.st.num, s.presenceBits die (x.1 % 2 ^ 40), x.2.fill.toNat, x.2.dirty.toNat]) ++ homes.flatMap fun x => x.1 :: x.2.nats) ++
  opq 11 ((s.accs.filter fun x => homeDie x.1 == die).flatMap fun x =>
    x.1 :: match x.2 with | some e => e.images.map (·.toNat) | none => []) ++
  dumpPart 12 die 0xFFFF 0
    (((List.range 4096).flatMap fun k => leBytes 8 (s.counter die k).word) ++
     (List.range 16384).flatMap fun k => (s.entry die k).bytes) ++
  opq 13 (((s.orderQ.filter fun r => r.die == die).flatMap OrderReq.nats) ++ (homes.flatMap fun x => x.2.trans.flatMap Trans.nats) ++
    (List.range 84).map fun d => (s.die d).group) ++
  dumpPart 14 die 0xFFFF 0 (s.parts.flatMap fun p => p.2.faultQ.flatMap fun r => r.2)

/-- The read-out image of a module freeze (R338) (DESIGN CHOICE, log entry 23). -/
def State.dumpModule (s : State) : List Byte :=
  (List.range 80).flatMap fun die => (List.range 48).flatMap (fun k => s.dumpCore (48 * die + k)) ++ s.dumpDie die

/-- The freeze line is asserted for the whole module (R337). -/
def State.freezeModule (s : State) (c : FreezeCause) : State :=
  if s.base.frozen.isSome then s else { s with base := { s.base with frozen := some c, image := some s.dumpModule } }

/-- ORDER_SLOT_ERROR (R27). -/
def execOrderSlotError (die : Nat) (s : State) : Answer := .next (if die < 84 then s.freezeModule .orderSlot else s)

/-! ### Lantern inputs (R28) -/

/-- LANTERN (R28): a module event, and the freeze when fewer than six inputs are valid. -/
def execLantern (mask : BitVec 8) (s : State) : Answer :=
  .next (
    if mask == s.base.lantern then s
    else
      let n := popCount mask.toNat 8
      let s1 := State.moduleEvent { s with base := { s.base with lantern := mask } } 0x0103 (leBytes 1 n ++ leBytes 1 mask.toNat)
      if n < 6 then s1.freezeModule .dark else s1)

/-! ### Thermal and power (R29 to R32) -/

/-- The throttle threshold of a die's sensor in 0.125 °C, where it has one (R30). -/
def throttleAt (sensor : Nat) : Option Int :=
  if sensor == 6 || 8 ≤ sensor then none else if sensor == 5 then some 760 else some 840

/-- Views of the partitions that hold cores of a die advance (R129, R131). -/
def State.touchDie (s : State) (pdie : Nat) : State :=
  match (s.die pdie).logical with
  | none => s
  | some l => s.parts.foldl (fun s p => if p.2.dies.contains l then s.touchView p.1 else s) s

/-- Change a physical die. -/
def State.modDie (s : State) (d : Nat) (f : Die → Die) : State := s.setDie d (f (s.die d))

/-- A THERMAL module event (R100). -/
def State.thermalEvent (s : State) (die sensor cond : Nat) (reading : Half) : State :=
  s.moduleEvent 0x0104 (leBytes 1 die ++ leBytes 1 sensor ++ leBytes 1 cond ++ leBytes 1 0 ++ leBytes 2 reading.toNat)

/-- Whether a reading is at a distance from a sensor's throttle threshold or above (R30). -/
def reaches (sensor : Nat) (reading : Half) (above : Int) : Bool :=
  match throttleAt sensor with
  | some t => decide (t + above ≤ reading.toInt)
  | none => false

/-- A reading is recorded: HOT shows whether it is at or above its throttle threshold (R29, R32, R33). -/
def Die.sense (d : Die) (sensor : Nat) (reading : Half) : Die :=
  let bit : Byte := 1#8 <<< sensor
  { d with
    sensors := Tab.set 0 d.sensors sensor reading
    hot := if reaches sensor reading 0 then d.hot ||| bit else d.hot &&& ~~~bit }

/-- A reading of a die's sensor, or of one of the frame's 16 where the die is 0xFF, is recorded (R29, R33). -/
def State.sense (s : State) (die sensor : Nat) (reading : Half) : State :=
  if die == 0xFF then
    if sensor < 16 then { s with base := { s.base with frameSensors := Tab.set 0 s.base.frameSensors sensor reading } } else s
  else if die < 84 && sensor < 8 then s.modDie die fun d => d.sense sensor reading
  else s

/-- WARN is set, with a module event, where a reading is 10 °C below its throttle threshold or above (R30, R32). -/
def State.warnAt (s : State) (die sensor : Nat) (reading : Half) : State :=
  if die < 84 && reaches sensor reading (-80) then
    (s.modDie die fun d => { d with warn := true }).thermalEvent die sensor 0 reading
  else s

/-- WARNING (R29, R30): the reading is recorded, and a warning is given if it is due (DESIGN CHOICE, log entry 59). -/
def execWarning (die sensor : Nat) (reading : Half) (s : State) : Answer :=
  .next ((s.sense die sensor reading).warnAt die sensor reading)

/-- A die's eight readings are recorded; a threshold reached since WARN was last cleared gives a warning (R30, R32). -/
def State.senseAll (s : State) (die : Nat) (rs : List Half) : State :=
  let warned := (s.die die).warn
  (List.range 8).foldl (fun s k =>
    let s1 := s.sense die k (rs.getD k 0)
    if warned then s1 else s1.warnAt die k (rs.getD k 0)) s

/-- The sensors at or above a distance from their throttle thresholds, as HOT has them (R32). -/
def hotMask (rs : List Half) (below : Int) : Byte :=
  (List.range 8).foldl (fun m k =>
    match throttleAt k with
    | some t => if t - below ≤ (rs.getD k 0).toInt then m ||| (1#8 <<< k) else m
    | none => m) 0

/-- THERMAL_THROTTLE (R30). -/
def execThermalThrottle (die : Nat) (readings : List Half) (s : State) : Answer :=
  .next (
    if 84 ≤ die || hotMask readings 0 == 0 then s
    else
      ((s.senseAll die readings).modDie die fun d =>
        d.retime s.tick fun d => { d with kTherm := min 8 (d.kTherm + 1) }).touchDie die)

/-- THERMAL_RELEASE (R30): every sensor is 5 °C below its throttle threshold. -/
def execThermalRelease (die : Nat) (readings : List Half) (s : State) : Answer :=
  .next (
    if 84 ≤ die || hotMask readings 39 != 0 then s
    else
      ((s.senseAll die readings).modDie die fun d => d.retime s.tick fun d => { d with kTherm := d.kTherm - 1 }).touchDie die)

/-- The power part of every die changes. -/
def State.powerStep (s : State) (f : Nat → Nat) : State :=
  (List.range 84).foldl (fun s d => (s.modDie d fun x => x.retime s.tick fun x => { x with kPower := f x.kPower }).touchDie d) s

/-- SUSTAINED_POWER (R30). -/
def execSustainedPower (watts1s : Nat) (s : State) : Answer :=
  .next (if 24000 < watts1s then s.powerStep fun k => min 8 (k + 1) else s)

/-- PEAK_POWER (R30). -/
def execPeakPower (watts100us : Nat) (s : State) : Answer :=
  .next (if 25000 < watts100us then s.powerStep fun k => min 8 (k + 2) else s)

/-- POWER_RELEASE (R30). -/
def execPowerRelease (watts1s watts100us : Nat) (s : State) : Answer :=
  .next (if watts1s ≤ 23500 && watts100us ≤ 24500 then s.powerStep fun k => k - 1 else s)

/-- Whether a reading trips: 10 °C above throttle, or a conversion-stage sensor, whose limit is the firmware's (R30)
(DESIGN CHOICE, log entry 59). -/
def trips (die sensor : Nat) (reading : Half) : Bool :=
  if die == 0xFF then 8 ≤ sensor && sensor < 16
  else
    die < 84 && reaches sensor reading 80

/-- TRIP (R30): the reading is recorded; where it trips, TRIP is set on every die, the module freezes, and the tray is asked to remove
power (DESIGN CHOICE, log entry 59). -/
def execTrip (die sensor : Nat) (reading : Half) (s : State) : Answer :=
  .next (
    let s1 := s.sense die sensor reading
    if !trips die sensor reading then s1
    else
      let s2 := (List.range 84).foldl (fun s d => s.modDie d fun x => { x with trip := true }) s1
      State.freezeModule ({ s2 with base := { s2.base with askedOff := true } }.thermalEvent die sensor 1 reading) .trip)

/-! ### Quarantine (R138) -/

/-- A core in service is quarantined: its workgroups are pre-empted, and a module event is sent (R138). -/
def State.quarantineAs (s : State) (v : Serv) (c cause : Nat) : State :=
  let e := s.cairnOf c
  if 3840 ≤ c || e.serv != .inService || !e.cfeat.getLsbD 0 then s
  else (s.setCairn c { e with serv := v, sick := true }).moduleEvent 0x0108 (leBytes 2 c ++ leBytes 1 cause)

/-- QUARANTINE (R116, R138). -/
def execQuarantine (lcore cause : Nat) (s : State) : Answer := .next (s.quarantineAs .quarantined lcore cause)

/-! ### Scrubs and wear (R38, R39, R131) -/

/-- What a pass over a die's arrays finds (R38): sectors that cannot be corrected are marked, `bad` by the scrub, which reports them at
once, and `latent` ones not yet scrubbed, which the next read-out reports; corrected soft errors are counted. `mine` tells which
sectors lie in the arrays. -/
def State.scrub (s : State) (die : Nat) (bad latent : List Nat) (soft : Nat) (mine : Nat → Nat → Bool) : State :=
  let s1 := s.modDie die fun d => { d with soft := d.soft + soft }
  match (s.die die).logical with
  | none => s1
  | some l =>
    let here := fun k => decide (64 * k < dramBytes) && mine l k
    (bad.filter here).foldl (fun s k => (s.markSector k).reportSector k) ((latent.filter here).foldl (fun s k => s.markSector k) s1)

/-- DRAM_SCRUB (R38, R39): the sectors found are of the die's stack. -/
def execDramScrub (die : Nat) (found : Scrubbed) (soft : Nat) (s : State) : Answer :=
  .next (if die < 84 then s.scrub die found.bad found.latent soft fun l k => homeDie (64 * k) == l else s)

/-- The parts of the local stores of a die's workgroups that cannot be corrected: workgroup and 64-byte part (R38). -/
def State.scrubStores (s : State) (l : Nat) (xs : List (Nat × Nat)) : State :=
  xs.foldl (fun s x =>
    let w := s.wg x.1
    if w.place == .resident && w.die == l && 64 * x.2 < w.launch.localBytes then
      s.setWg x.1 { w with localBad := if w.localBad.contains x.2 then w.localBad else x.2 :: w.localBad }
    else s) s

/-- SRAM_SCRUB (R38, R39): the sectors found are those of which the die is the home or holds a copy, and parts of its workgroups'
local stores. -/
def execSramScrub (die : Nat) (found : Scrubbed) (soft : Nat) (s : State) : Answer :=
  .next (
    if 84 ≤ die then s
    else
      let s1 := s.scrub die found.bad found.latent soft fun l k => homeDie (64 * k) == l || (s.dieLine l (k / 4)).st != .i
      match (s.die die).logical with
      | some l => s1.scrubStores l found.stores
      | none => s1)

/-- WEAR_MANAGEMENT (R39, R131). -/
def execWearManagement (die pages : Nat) (s : State) : Answer :=
  .next (if 84 ≤ die || pages == 0 then s else (s.modDie die fun d => { d with pgret := d.pgret + pages }).touchDie die)

/-! ### Routing tables (R133 to R137) -/

/-- Dies as a mask of ten bytes (R100). -/
def dieMask (ds : List Nat) : List Byte := leBytes 10 (ds.foldl (fun m d => if bitAt m d then m else m + 2 ^ d) 0)

/-- The isolated region that a table leaves: what it does not reach, with the dies fenced in the field (R135, R141). -/
def State.regionOf (s : State) (ds : List Nat) : List Nat :=
  (List.range 80).filter fun d => ds.contains d || s.fencedDies.contains d

/-- An ISOLATED or REJOINED event to every partition with dies among some (R135). -/
def State.regionEvents (s : State) (code : Nat) (changed told : List Nat) : State :=
  s.parts.foldl (fun s p =>
    if (p.2.dies.any fun d => changed.contains d) then
      s.partEvent p.1 code (leBytes 4 s.base.rtver ++ dieMask (p.2.dies.filter fun d => told.contains d))
    else s) s

/-- The isolated region of a checked table (R135). -/
def State.checkedRegion (s : State) (r : RouteCheck) : List Nat := s.regionOf (if r.acyclic then [] else r.isolated)

/-- A table is committed: its version rises, views show it, the old table stays while flits of its epoch remain, and the isolated
region changes (R133 to R135). -/
def State.commit (s : State) (r : RouteCheck) : State :=
  let region := s.checkedRegion r
  let old := s.base.isolated
  let lost := region.filter fun d => !old.contains d
  let back := old.filter fun d => !region.contains d
  let s1 : State := { s with base := { s.base with
    rtver := (s.base.rtver + 1) % 2 ^ 32, epoch := !s.base.epoch, pendingTable := none, isolated := region
    table := r.routes, oldTable := if s.mesh.isEmpty then none else some s.base.table } }
  let s2 := s1.parts.foldl (fun s p => s.touchView p.1) s1
  (s2.regionEvents 0x0003 lost region).regionEvents 0x0004 back back

/-- Firmware's outcome for a new table: an overlap commit, or the pause of a drain commit; a cyclic table gives way to the largest
acyclic one. A router holds two tables, so while an old one is still in use a new one waits; a later check replaces one that has not
been committed (R133 to R135, R142) (DESIGN CHOICE, log entry 116). -/
def State.newTable (s : State) (r : RouteCheck) : State :=
  if s.paused then { s with base := { s.base with pendingTable := some r } }
  else if s.base.oldTable.isSome then { s with base := { s.base with nextTable := some r } }
  else if r.unionAcyclic then s.commit r
  else { s with base := { s.base with pendingTable := some r } }

/-- The old table is released once no flit of its epoch remains, and a table that waited for that is committed (R133, R134). -/
def State.tableStage (s : State) : Option State :=
  if s.base.oldTable.isSome && !s.mesh.any (fun m => m.epoch != s.base.epoch) then
    let s1 : State := { s with base := { s.base with oldTable := none, nextTable := none } }
    some (match s.base.nextTable with
      | some r => s1.newTable r
      | none => s1)
  else none

/-- ROUTING_TABLE (R134, R135). -/
def execRoutingTable (r : RouteCheck) (s : State) : Answer := .next (s.newTable r)

/-- ROUTING_RETRY (R135): while a region is isolated; a table that reaches no more is not committed. -/
def execRoutingRetry (r : RouteCheck) (s : State) : Answer :=
  .next (
    if s.base.isolated.isEmpty || s.checkedRegion r == s.base.isolated then s else s.newTable r)

/-- The commands that waited for a pause take effect in their order (R137, R142). -/
def State.runDeferred (s : State) : State :=
  s.base.deferred.foldl (fun s d =>
    match d.command with
    | .resume => resumeBody d s
    | .retireExpose => exposeBody d s
    | .retireHide => hideBody d s
    | _ => s) { s with base := { s.base with deferred := [] } }

/-- DRAIN_COMMIT (R134, R137): once no line data of the old epoch is on the mesh. -/
def execDrainCommit (s : State) : Answer :=
  .next (
    match s.base.pendingTable with
    | some r => if s.mesh.isEmpty then (s.commit r).runDeferred else s
    | none => s)

/-! ### The loss of a die (R26, R141) -/

/-- What a lost die held: its copies, requests and line data on their way are gone (R141) (DESIGN CHOICE, log entry 58). -/
def State.dropDie (s : State) (l : Nat) : State :=
  let owned (o : HomeOwner) : Bool := o == .em l || o == .o l
  { s with
    lines := s.lines.filter fun x => x.1 / 2 ^ 40 != l
    l1 := s.l1.filter fun x => x.1 / 2 ^ 40 / 48 != l
    homes := (s.homes.map fun h => (h.1, if owned h.2.owner then { h.2 with owner := .none } else h.2)).filter fun h => h.2 != {}
    orderQ := s.orderQ.filter fun r => r.die != l
    mesh := s.mesh.filter fun m => m.die != l
    jobs := s.jobs.filter fun j => j.die != l || match j.tells with | .waiter (.cmd ..) => false | _ => true
    walks := s.walks.filter fun w => w.1 != l }

/-- A good die is fenced in the field, with the outcome of firmware's check of a table without it (R134, R141)
(DESIGN CHOICE, log entry 58). -/
def State.fenceDie (s : State) (die cause : Nat) (r : RouteCheck) : State :=
  let d := s.die die
  let s1 := s.modDie die fun x => { x with st := 3 }
  let s2 := match d.logical with
    | some l =>
      let q := (List.range 48).foldl (fun (s : State) k => s.quarantineAs .fenced (48 * l + k) 1) (s1.dropDie l)
      q.newTable r
    | none => s1
  let s3 := s2.moduleEvent 0x0102 (leBytes 1 die ++ leBytes 1 (d.logical.getD 0xFF) ++ leBytes 1 cause)
  { s3 with base := { s3.base with fieldFenced := s3.base.fieldFenced ++ [die] } }

/-- Whether a physical die is good. -/
def Die.good (d : Die) : Bool := d.st == 0 || d.st == 2

/-- FIELD_FENCE (R26, R141) (DESIGN CHOICE, log entry 58). -/
def execFieldFence (die : Nat) (x : FenceOrder) (s : State) : Answer :=
  .next (if die < 84 && (s.die die).good then s.fenceDie die x.cause x.routes else s)

/-! ### Remaps (R24 to R26) -/

/-- The lowest spare group that no die has or is to have (R24) (DEDUCED, log entry 60). -/
def State.spareGroup (s : State) : Option Nat :=
  [84, 85, 86, 87].find? fun g =>
    !(s.base.dies.any fun d => d.2.group == g && d.2.st != 3) && !(s.base.remaps.any fun r => r.new == g)

/-- REMAP (R24 to R26): announced at least 8 frames ahead; with no spare group the die is fenced. -/
def execRemap (die : Nat) (x : RemapOrder) (s : State) : Answer :=
  .next (
    let d := s.die die
    if 84 ≤ die || !d.good || s.base.remaps.any (fun r => r.die == die) || x.frame < s.frame + 8 then s
    else
      match s.spareGroup with
      | none => s.fenceDie die 1 x.routes
      | some g =>
        let s1 := s.modDie die fun e => { e with remaps := e.remaps + 1 }
        State.moduleEvent { s1 with base := { s1.base with remaps := s1.base.remaps ++ [⟨die, d.group, g, x.frame⟩] } } 0x0101
          (leBytes 1 die ++ leBytes 1 d.group ++ leBytes 1 g ++ leBytes 1 0 ++ leBytes 8 x.frame))

/-! ### Bring-up (R19 to R24, R40, R104, R109 to R113, R141) -/

/-- Insert a die by its station number (R20, R109). -/
def insertDie (x : DieFuse) : List DieFuse → List DieFuse
  | [] => [x]
  | y :: r => if stationOf x.die < stationOf y.die then x :: y :: r else y :: insertDie x r

end Sys2Proof.Machine

namespace Sys2Proof

/-- Insert a quad number in ascending order, once. -/
def insertQuad (x : Nat) : List Nat → List Nat
  | [] => [x]
  | y :: r => if x < y then x :: y :: r else if x == y then y :: r else y :: insertQuad x r

/-- The physical cores of a logical core. -/
def FuseCore.parts (c : FuseCore) : List Nat := c.pcore :: c.partner.toList

/-- The physical quads that become logical quads: whole ones in ascending number (R110). -/
def DieFuse.wholeQuads (d : DieFuse) : List Nat := ((d.whole.foldl (fun xs x => insertQuad x xs) []).filter (· < 13)).take 12

/-- The composite quads that complete the 12 (R110). -/
def DieFuse.compQuads (d : DieFuse) : List (List FuseCore) := d.comp.take (12 - d.wholeQuads.length)

/-- A composite quad: four positions filled from two adjacent quads, which name no physical core twice (R110). -/
def quadOk (q : List FuseCore) : Bool :=
  let ps := q.flatMap FuseCore.parts
  q.length == 4 && decide ps.Nodup && (List.range 12).any fun a => ps.all fun c => decide (4 * a ≤ c) && decide (c < 4 * a + 8)

/-- Whether 12 logical quads can be named: whole ones, and at most four composite ones with at most eight pairs, of cores that no other
quad uses (R22, R110). -/
def DieFuse.quadsOk (d : DieFuse) : Bool :=
  let cs := d.compQuads
  let used := cs.flatten.flatMap FuseCore.parts
  d.wholeQuads.length + cs.length == 12 && decide (cs.length ≤ 4) && cs.all quadOk && decide used.Nodup &&
  decide ((cs.flatten.filter fun c => c.partner.isSome).length ≤ 8) && used.all fun c => !d.wholeQuads.contains (c / 4)

/-- A good die (R22) (DESIGN CHOICE, log entry 97). -/
def DieFuse.good (d : DieFuse) : Bool := decide (d.die < 84) && d.quadsOk && d.slices == 0xFFFF && d.dram && d.station

/-- The good dies that were found. -/
def BringUp.good (u : BringUp) : List DieFuse := u.tested.filter DieFuse.good

end Sys2Proof

namespace Sys2Proof.Machine

/-- The number of a die fenced in the field goes to the good die of lowest station number that has none (R141). -/
def succeed (all : List DieFuse) (fenced : List Nat) (ls : List (DieFuse × Nat)) (die : Nat) : List (DieFuse × Nat) :=
  match ls.find? fun x => x.1.die == die with
  | none => ls
  | some (_, n) =>
    let rest := ls.filter fun x => x.1.die != die
    match all.find? fun x => !fenced.contains x.die && !rest.any fun y => y.1.die == x.die with
    | some x => rest ++ [(x, n)]
    | none => rest

/-- The logical numbers of good dies: the first 80 by station number; then the numbers of the dies fenced since, in the order of their
fencing, go to others (R109, R141). -/
def logicalDies (good : List DieFuse) (fenced : List Nat) : List (DieFuse × Nat) :=
  let all := good.foldl (fun xs x => insertDie x xs) []
  fenced.foldl (succeed all fenced) (all.take 80).zipIdx

/-- The cores of a die's logical quads in order: whole quads first, then composite ones, 12 in all (R110, R111). -/
def fuseCores (d : DieFuse) : List FuseCore :=
  ((d.wholeQuads.map fun q => (List.range 4).map fun k => (⟨4 * q + k, none⟩ : FuseCore)) ++ d.compQuads).flatten

/-- A Cairn map entry as the fuses give it (R113) (DEDUCED, log entry 95). -/
def fusedCore (die : Nat) (c : FuseCore) : CairnEnt :=
  { pdie := die, pcore := c.pcore, partner := c.partner, cfeat := if c.partner.isSome then 0x0005 else 0x000B }

/-- The Cairn map (R109 to R111). -/
def cairnMap (ls : List (DieFuse × Nat)) : Tab CairnEnt :=
  ls.foldl (fun t x => ((fuseCores x.1).take 48).zipIdx.foldl (fun t c => Tab.set {} t (48 * x.2 + c.2) (fusedCore x.1.die c.1)) t) []

/-- The spare groups of the dies whose rings fail at bring-up, in order (R24) (DEDUCED, log entry 60). -/
def spareGroups (failed : List Nat) : List (Nat × Nat) := failed.zip [84, 85, 86, 87]

/-- The record of a physical die after bring-up (R24, R33). -/
def bringUpDie (u : BringUp) (ls : List (DieFuse × Nat)) (fenced : List Nat) (n : Nat) : Die :=
  { st :=
      if fenced.contains n then 3
      else if ls.any (fun x => x.1.die == n) then 0
      else if u.good.any (fun x => x.die == n) then 2 else 1
    logical := (ls.find? fun x => x.1.die == n).map (·.2)
    group := match (spareGroups u.ringsFailed).find? fun x => x.1 == n with | some x => x.2 | none => n }

/-- What survives the loss of power: non-volatile records and fuses (R104, R105, R141) (DESIGN CHOICE, log entry 61). -/
def Module.kept (m : Module) : Module :=
  { fieldFenced := m.fieldFenced, blown := m.blown, identityIx := m.identityIx, identityLeft := m.identityLeft,
    staging := m.staging }

/-- The machine emptied, with the model's own counters and what the environment has placed (R40). -/
def State.emptied (s : State) (b : Module) : State :=
  { agenda := s.agenda, ethOut := s.ethOut, free := s.free, nextId := s.nextId, base := b }

/-- Steps 3 to 8 of bring-up (R40): the first routing table is checked as every other one, and a cyclic one leaves a region isolated
(R135) (DEDUCED, log entry 60) (DESIGN CHOICE, log entry 97). -/
def State.bringUp (s : State) (u : BringUp) : State :=
  let good := u.good
  let late := (u.ringsFailed.drop 4).filter fun d => good.any fun x => x.die == d
  let fenced := s.base.fieldFenced ++ late.filter fun d => !s.base.fieldFenced.contains d
  let ls := logicalDies good fenced
  let s1 : State := { s with
    cairn := cairnMap ls
    base := { s.base with
      dies := (List.range 84).foldl (fun t n => Tab.set {} t n (bringUpDie u ls fenced n)) []
      fieldFenced := fenced
      rtver := 1
      table := u.table.routes
      isolated := if u.table.acyclic then [] else u.table.isolated } }
  let s2 := late.foldl (fun s d => s.moduleEvent 0x0102 (leBytes 1 d ++ leBytes 1 0xFF ++ leBytes 1 1)) s1
  if ls.length < 80 then { s2 with base := { s2.base with unusable := true } }
  else { s2 with base := { s2.base with ready := true } }

/-- What booting comes to: whether every check passes, the security version of the firmware, and the measurements (R104). -/
structure Boot where
  ok : Bool
  version : Nat
  measured : List (BitVec 256)

/-- The boot chain: a verified staged image is verified again and runs in place of the main firmware; else the images in flash do
(R104) (DESIGN CHOICE, log entry 97). -/
def Module.boot (m : Module) (u : BringUp) : Boot :=
  match m.staging.verified with
  | some img =>
    ⟨u.firmwareOk && m.imageOk img, (Config.imageParts img).2.2.2,
     u.measurements.take 1 ++ [BitVec.ofNat 256 (leNat (sha256 img))]⟩
  | none => ⟨u.firmwareOk && decide (m.blown ≤ u.secVersion), u.secVersion, u.measurements⟩

/-- MODULE_RESET (R40, R41, R104): the steps in order; a failed check leaves the controller in recovery, and fewer than six Lantern
inputs stop the bring-up (DESIGN CHOICE, log entry 61) (DESIGN CHOICE, log entry 97). -/
def execModuleReset (u : BringUp) (s : State) : Answer :=
  .next (
    let m := s.base.kept
    let x := m.boot u
    let b : Module := Module.beginSession { m with
      lantern := u.lantern, recovery := !x.ok, measurements := x.measured, secVersion := x.version
      blown := if x.ok then max m.blown x.version else m.blown }
    let s1 := s.emptied b
    if !x.ok || popCount u.lantern.toNat 8 < 6 then s1 else s1.bringUp u)

/-- POWER_REMOVED (R40, R141): what is volatile is lost (DESIGN CHOICE, log entry 61). -/
def execPowerRemoved (s : State) : Answer := .next (s.emptied { s.base.kept with power := false })

end Sys2Proof.Machine
end

