-- ==== Sys2Proof/Machine/Dispatch.lean ====
section
/-! DEFINITION. The meaning of every instruction and event: one arm per constructor of Instr. -/

namespace Sys2Proof.Machine

def exec (i : Instr) (s : State) : Host.Outcome State Fault Refusal :=
  match i with
  | .moduleReset u => Sys2Proof.Machine.execModuleReset u s
  | .trayKeyInstall key => Sys2Proof.Machine.execTrayKeyInstall key s
  | .lantern mask => Sys2Proof.Machine.execLantern mask s
  | .orderSlotError die => Sys2Proof.Machine.execOrderSlotError die s
  | .warning die sensor reading => Sys2Proof.Machine.execWarning die sensor reading s
  | .thermalThrottle die readings => Sys2Proof.Machine.execThermalThrottle die readings s
  | .thermalRelease die readings => Sys2Proof.Machine.execThermalRelease die readings s
  | .sustainedPower watts1s => Sys2Proof.Machine.execSustainedPower watts1s s
  | .peakPower watts100us => Sys2Proof.Machine.execPeakPower watts100us s
  | .powerRelease watts1s watts100us => Sys2Proof.Machine.execPowerRelease watts1s watts100us s
  | .trip die sensor reading => Sys2Proof.Machine.execTrip die sensor reading s
  | .remap die x => Sys2Proof.Machine.execRemap die x s
  | .remapFrame die => Sys2Proof.Machine.execRemapFrame die s
  | .fieldFence die x => Sys2Proof.Machine.execFieldFence die x s
  | .quarantine lcore cause => Sys2Proof.Machine.execQuarantine lcore cause s
  | .dramScrub die found soft => Sys2Proof.Machine.execDramScrub die found soft s
  | .sramScrub die found soft => Sys2Proof.Machine.execSramScrub die found soft s
  | .routingTable r => Sys2Proof.Machine.execRoutingTable r s
  | .routingRetry r => Sys2Proof.Machine.execRoutingRetry r s
  | .ethernetFrameDiscard malformed length mac => Sys2Proof.Machine.execEthernetFrameDiscard malformed length mac s
  | .arp func ip => Sys2Proof.Machine.execArp func ip s
  | .neighbourDiscovery func ip => Sys2Proof.Machine.execNeighbourDiscovery func ip s
  | .rdmaWrite q => Sys2Proof.Machine.execRdmaWrite q s
  | .rdmaRead q => Sys2Proof.Machine.execRdmaRead q s
  | .compareSwap q => Sys2Proof.Machine.execCompareSwap q s
  | .fetchAdd q => Sys2Proof.Machine.execFetchAdd q s
  | .unsupportedOpcode func pair opcode => Sys2Proof.Machine.execUnsupportedOpcode func pair opcode s
  | .cnp func qp => Sys2Proof.Machine.execCnp func qp s
  | .rateRestore func qp => Sys2Proof.Machine.execRateRestore func qp s
  | .acknowledgement func pair tag => Sys2Proof.Machine.execAcknowledgement func pair tag s
  | .readResponse func pair tag data => Sys2Proof.Machine.execReadResponse func pair tag data s
  | .nak func pair tag qpError => Sys2Proof.Machine.execNak func pair tag qpError s
  | .blockRelease ldie part => Sys2Proof.Machine.execBlockRelease ldie part s
  | .runStart handle => Sys2Proof.Machine.execRunStart handle s
  | .nodeDispatch handle node => Sys2Proof.Machine.execNodeDispatch handle node s
  | .dispatchDecision ldie => Sys2Proof.Machine.execDispatchDecision ldie s
  | .promotion handle node => Sys2Proof.Machine.execPromotion handle node s
  | .nodeDone handle node => Sys2Proof.Machine.execNodeDone handle node s
  | .preemption wg => Sys2Proof.Machine.execPreemption wg s
  | .watchdogExpiry wg => Sys2Proof.Machine.execWatchdogExpiry wg s
  | .handOff wg slot => Sys2Proof.Machine.execHandOff wg slot s
  | .loadPerform op lanes => Sys2Proof.Machine.execLoadPerform op lanes s
  | .storePerform op lanes => Sys2Proof.Machine.execStorePerform op lanes s
  | .atomicPerform op lanes => Sys2Proof.Machine.execAtomicPerform op lanes s
  | .accumulatePerform op part => Sys2Proof.Machine.execAccumulatePerform op part s
  | .divideComplete op => Sys2Proof.Machine.execDivideComplete op s
  | .pageWalk die asid page => Sys2Proof.Machine.execPageWalk die asid page s
  | .copyCommandStart core => Sys2Proof.Machine.execCopyCommandStart core s
  | .copyCommandPerform core => Sys2Proof.Machine.execCopyCommandPerform core s
  | .matrixCommandStart core => Sys2Proof.Machine.execMatrixCommandStart core s
  | .matrixCommandPerform core => Sys2Proof.Machine.execMatrixCommandPerform core s
  | .stbPerform op => Sys2Proof.Machine.execStbPerform op s
  | .rds lane => Sys2Proof.Machine.execRds lane s
  | .rdx lane => Sys2Proof.Machine.execRdx lane s
  | .own lane => Sys2Proof.Machine.execOwn lane s
  | .upg lane => Sys2Proof.Machine.execUpg lane s
  | .putm lane => Sys2Proof.Machine.execPutm lane s
  | .puto lane => Sys2Proof.Machine.execPuto lane s
  | .pin lane => Sys2Proof.Machine.execPin lane s
  | .forwardedData die line => Sys2Proof.Machine.execForwardedData die line s
  | .requesterCompletion die line => Sys2Proof.Machine.execRequesterCompletion die line s
  | .dramWriteBack line => Sys2Proof.Machine.execDramWriteBack line s
  | .receivedCarrier port c => Sys2Proof.Machine.execReceivedCarrier port c s
  | .carrierLoss port => Sys2Proof.Machine.execCarrierLoss port s
  | .laneDown port lane => Sys2Proof.Machine.execLaneDown port lane s
  | .trainingFlit x peerRate => Sys2Proof.Machine.execTrainingFlit x peerRate s
  | .trainFail port => Sys2Proof.Machine.execTrainFail port s
  | .identityFlit port f identity => Sys2Proof.Machine.execIdentityFlit port f identity s
  | .retrain x rate same => Sys2Proof.Machine.execRetrain x rate same s
  | .retrainComplete port => Sys2Proof.Machine.execRetrainComplete port s
  | .messageFlit port f => Sys2Proof.Machine.execMessageFlit port f s
  | .retryRequest port f => Sys2Proof.Machine.execRetryRequest port f s
  | .ackTimeout port => Sys2Proof.Machine.execAckTimeout port s
  | .keyExhaust port tag kidx => Sys2Proof.Machine.execKeyExhaust port tag kidx s
  | .keyAcknowledge x tag => Sys2Proof.Machine.execKeyAcknowledge x tag s
  | .keyRetire x tag => Sys2Proof.Machine.execKeyRetire x tag s
  | .quiesceDone x => Sys2Proof.Machine.execQuiesceDone x s
  | .drainLimit port => Sys2Proof.Machine.execDrainLimit port s
  | .holdLimit port => Sys2Proof.Machine.execHoldLimit port s
  | .carrierLossNotice x => Sys2Proof.Machine.execCarrierLossNotice x s
  | .heartbeat x => Sys2Proof.Machine.execHeartbeat x s
  | .peerSilent port => Sys2Proof.Machine.execPeerSilent port s
  | .triggerWindowAdd op => Sys2Proof.Machine.execTriggerWindowAdd op s
  | .triggerWindowSet op => Sys2Proof.Machine.execTriggerWindowSet op s
  | .entryIssue ldie part => Sys2Proof.Machine.execEntryIssue ldie part s
  | .entryComplete ldie part => Sys2Proof.Machine.execEntryComplete ldie part s
  | .iadd h o m => Sys2Proof.Machine.execIadd h o m s
  | .isub h o m => Sys2Proof.Machine.execIsub h o m s
  | .imul h o m => Sys2Proof.Machine.execImul h o m s
  | .imulh h o m => Sys2Proof.Machine.execImulh h o m s
  | .imad h o m => Sys2Proof.Machine.execImad h o m s
  | .imin h o m => Sys2Proof.Machine.execImin h o m s
  | .imax h o m => Sys2Proof.Machine.execImax h o m s
  | .iabs h o m => Sys2Proof.Machine.execIabs h o m s
  | .ineg h o m => Sys2Proof.Machine.execIneg h o m s
  | .and h o m => Sys2Proof.Machine.execAnd h o m s
  | .or h o m => Sys2Proof.Machine.execOr h o m s
  | .xor h o m => Sys2Proof.Machine.execXor h o m s
  | .andn h o m => Sys2Proof.Machine.execAndn h o m s
  | .not h o m => Sys2Proof.Machine.execNot h o m s
  | .shl h o m => Sys2Proof.Machine.execShl h o m s
  | .shr h o m => Sys2Proof.Machine.execShr h o m s
  | .sar h o m => Sys2Proof.Machine.execSar h o m s
  | .rol h o m => Sys2Proof.Machine.execRol h o m s
  | .ror h o m => Sys2Proof.Machine.execRor h o m s
  | .popc h o m => Sys2Proof.Machine.execPopc h o m s
  | .clz h o m => Sys2Proof.Machine.execClz h o m s
  | .ctz h o m => Sys2Proof.Machine.execCtz h o m s
  | .brev h o m => Sys2Proof.Machine.execBrev h o m s
  | .bfx h o m => Sys2Proof.Machine.execBfx h o m s
  | .bfi h o m => Sys2Proof.Machine.execBfi h o m s
  | .prmb h o m => Sys2Proof.Machine.execPrmb h o m s
  | .icmp h o m => Sys2Proof.Machine.execIcmp h o m s
  | .fcmp h o m => Sys2Proof.Machine.execFcmp h o m s
  | .sel h o dw => Sys2Proof.Machine.execSel h o dw s
  | .mov h o dw => Sys2Proof.Machine.execMov h o dw s
  | .movi h o m => Sys2Proof.Machine.execMovi h o m s
  | .rdsp h o m => Sys2Proof.Machine.execRdsp h o m s
  | .lperm h o dw => Sys2Proof.Machine.execLperm h o dw s
  | .vote h o m => Sys2Proof.Machine.execVote h o m s
  | .iscan h o m => Sys2Proof.Machine.execIscan h o m s
  | .lred h o m => Sys2Proof.Machine.execLred h o m s
  | .aset h o => Sys2Proof.Machine.execAset h o s
  | .aadd h o => Sys2Proof.Machine.execAadd h o s
  | .ascl h o => Sys2Proof.Machine.execAscl h o s
  | .aoff h o => Sys2Proof.Machine.execAoff h o s
  | .aexp h o dw => Sys2Proof.Machine.execAexp h o dw s
  | .pset h o m => Sys2Proof.Machine.execPset h o m s
  | .plog h o m => Sys2Proof.Machine.execPlog h o m s
  | .pcnt h o => Sys2Proof.Machine.execPcnt h o s
  | .fadd h o m => Sys2Proof.Machine.execFadd h o m s
  | .fsub h o m => Sys2Proof.Machine.execFsub h o m s
  | .fmul h o m => Sys2Proof.Machine.execFmul h o m s
  | .ffma h o m => Sys2Proof.Machine.execFfma h o m s
  | .fmin h o m => Sys2Proof.Machine.execFmin h o m s
  | .fmax h o m => Sys2Proof.Machine.execFmax h o m s
  | .fdiv h o m => Sys2Proof.Machine.execFdiv h o m s
  | .fsqrt h o m => Sys2Proof.Machine.execFsqrt h o m s
  | .frcp h o m => Sys2Proof.Machine.execFrcp h o m s
  | .frsq h o m => Sys2Proof.Machine.execFrsq h o m s
  | .fexp2 h o m => Sys2Proof.Machine.execFexp2 h o m s
  | .flog2 h o m => Sys2Proof.Machine.execFlog2 h o m s
  | .fsin h o m => Sys2Proof.Machine.execFsin h o m s
  | .fcos h o m => Sys2Proof.Machine.execFcos h o m s
  | .ftanh h o m => Sys2Proof.Machine.execFtanh h o m s
  | .ffrc h o m => Sys2Proof.Machine.execFfrc h o m s
  | .frnd h o m => Sys2Proof.Machine.execFrnd h o m s
  | .fclass h o m => Sys2Proof.Machine.execFclass h o m s
  | .cvt h o m => Sys2Proof.Machine.execCvt h o m s
  | .cvtNarrow h o m => Sys2Proof.Machine.execCvtNarrow h o m s
  | .qnt h o m => Sys2Proof.Machine.execQnt h o m s
  | .dqnt h o m => Sys2Proof.Machine.execDqnt h o m s
  | .bra h o => Sys2Proof.Machine.execBra h o s
  | .brx h o => Sys2Proof.Machine.execBrx h o s
  | .call h o => Sys2Proof.Machine.execCall h o s
  | .callx h o => Sys2Proof.Machine.execCallx h o s
  | .ret h o => Sys2Proof.Machine.execRet h o s
  | .exit h o => Sys2Proof.Machine.execExit h o s
  | .waypt h o => Sys2Proof.Machine.execWaypt h o s
  | .nop h o => Sys2Proof.Machine.execNop h o s
  | .ld h o m => Sys2Proof.Machine.execLd h o m s
  | .st h o m => Sys2Proof.Machine.execSt h o m s
  | .lds h o m => Sys2Proof.Machine.execLds h o m s
  | .ldL h o m => Sys2Proof.Machine.execLdL h o m s
  | .stL h o m => Sys2Proof.Machine.execStL h o m s
  | .cpf h o m => Sys2Proof.Machine.execCpf h o m s
  | .cwb h o m => Sys2Proof.Machine.execCwb h o m s
  | .cinv h o m => Sys2Proof.Machine.execCinv h o m s
  | .atom h o m => Sys2Proof.Machine.execAtom h o m s
  | .atomL h o m => Sys2Proof.Machine.execAtomL h o m s
  | .facc h o m => Sys2Proof.Machine.execFacc h o m s
  | .faccrd h o m => Sys2Proof.Machine.execFaccrd h o m s
  | .faccclr h o m => Sys2Proof.Machine.execFaccclr h o m s
  | .fence h o m => Sys2Proof.Machine.execFence h o m s
  | .qfence h o m => Sys2Proof.Machine.execQfence h o m s
  | .barInit h o => Sys2Proof.Machine.execBarInit h o s
  | .barArv h o m => Sys2Proof.Machine.execBarArv h o m s
  | .barWait h o m => Sys2Proof.Machine.execBarWait h o m s
  | .barSync h o m => Sys2Proof.Machine.execBarSync h o m s
  | .fbar h o m => Sys2Proof.Machine.execFbar h o m s
  | .wput h o => Sys2Proof.Machine.execWput h o s
  | .wtake h o => Sys2Proof.Machine.execWtake h o s
  | .wpeek h o => Sys2Proof.Machine.execWpeek h o s
  | .wclr h o => Sys2Proof.Machine.execWclr h o s
  | .acp h o m => Sys2Proof.Machine.execAcp h o m s
  | .tld h o m => Sys2Proof.Machine.execTld h o m s
  | .tldSlide h o m => Sys2Proof.Machine.execTldSlide h o m s
  | .tst h o m => Sys2Proof.Machine.execTst h o m s
  | .stb h o m => Sys2Proof.Machine.execStb h o m s
  | .tcfg h o m => Sys2Proof.Machine.execTcfg h o m s
  | .tzero h o => Sys2Proof.Machine.execTzero h o s
  | .tmov h o m => Sys2Proof.Machine.execTmov h o m s
  | .txp h o m => Sys2Proof.Machine.execTxp h o m s
  | .mma h o m => Sys2Proof.Machine.execMma h o m s
  | .maccld h o m => Sys2Proof.Machine.execMaccld h o m s
  | .mdrain h o m => Sys2Proof.Machine.execMdrain h o m s
  | .kind h o m => Sys2Proof.Machine.execKind h o m s
  | .kmask h o m => Sys2Proof.Machine.execKmask h o m s
  | .npost h o m => Sys2Proof.Machine.execNpost h o m s
  | .ntrig h o set => Sys2Proof.Machine.execNtrig h o set s
  | .nwait h o => Sys2Proof.Machine.execNwait h o s
  | .nrd h o => Sys2Proof.Machine.execNrd h o s
  | .ncoll h o hnd => Sys2Proof.Machine.execNcoll h o hnd s
  | .ncan h o => Sys2Proof.Machine.execNcan h o s
  | .trap h o => Sys2Proof.Machine.execTrap h o s
  | .bkpt h o => Sys2Proof.Machine.execBkpt h o s
  | .rdsys h o => Sys2Proof.Machine.execRdsys h o s
  | .wrsys h o => Sys2Proof.Machine.execWrsys h o s
  | .rdperf h o => Sys2Proof.Machine.execRdperf h o s
  | .clock h o ns => Sys2Proof.Machine.execClock h o ns s
  | .rolesw h o => Sys2Proof.Machine.execRolesw h o s
  | .halt h o => Sys2Proof.Machine.execHalt h o s
  | .priorityFlowControl prio pause => Sys2Proof.Machine.execPriorityFlowControl prio pause s
  | .retrainRequest port rate => Sys2Proof.Machine.execRetrainRequest port rate s
  | .granuleZeroed granule => Sys2Proof.Machine.execGranuleZeroed granule s
  | .blackout die => Sys2Proof.Machine.execBlackout die s
  | .wearManagement die pages => Sys2Proof.Machine.execWearManagement die pages s
  | .heartbeatInterval port => Sys2Proof.Machine.execHeartbeatInterval port s
  | .identify => Sys2Proof.Machine.execIdentify s
  | .attest => Sys2Proof.Machine.execAttest s
  | .ping => Sys2Proof.Machine.execPing s
  | .galloc => Sys2Proof.Machine.execGalloc s
  | .gload => Sys2Proof.Machine.execGload s
  | .gseal => Sys2Proof.Machine.execGseal s
  | .gfree => Sys2Proof.Machine.execGfree s
  | .grun => Sys2Proof.Machine.execGrun s
  | .gcancel => Sys2Proof.Machine.execGcancel s
  | .evread => Sys2Proof.Machine.execEvread s
  | .winset => Sys2Proof.Machine.execWinset s
  | .htset => Sys2Proof.Machine.execHtset s
  | .pcreate => Sys2Proof.Machine.execPcreate s
  | .pdestroy => Sys2Proof.Machine.execPdestroy s
  | .weight => Sys2Proof.Machine.execWeight s
  | .gshare => Sys2Proof.Machine.execGshare s
  | .wdog => Sys2Proof.Machine.execWdog s
  | .coremap => Sys2Proof.Machine.execCoremap s
  | .funcs => Sys2Proof.Machine.execFuncs s
  | .asids => Sys2Proof.Machine.execAsids s
  | .memGrant => Sys2Proof.Machine.execMemGrant s
  | .memRelease => Sys2Proof.Machine.execMemRelease s
  | .start => Sys2Proof.Machine.execStart s
  | .suspend => Sys2Proof.Machine.execSuspend s
  | .resume => Sys2Proof.Machine.execResume s
  | .retireExpose => Sys2Proof.Machine.execRetireExpose s
  | .retireHide => Sys2Proof.Machine.execRetireHide s
  | .ttagMap => Sys2Proof.Machine.execTtagMap s
  | .ttagUnmap => Sys2Proof.Machine.execTtagUnmap s
  | .fabricGrant => Sys2Proof.Machine.execFabricGrant s
  | .fabricRelease => Sys2Proof.Machine.execFabricRelease s
  | .accspill => Sys2Proof.Machine.execAccspill s
  | .asroot => Sys2Proof.Machine.execAsroot s
  | .tlbinv => Sys2Proof.Machine.execTlbinv s
  | .bwinCreate => Sys2Proof.Machine.execBwinCreate s
  | .bwinDestroy => Sys2Proof.Machine.execBwinDestroy s
  | .bwinSetWriter => Sys2Proof.Machine.execBwinSetWriter s
  | .priv => Sys2Proof.Machine.execPriv s
  | .fassign => Sys2Proof.Machine.execFassign s
  | .keyset => Sys2Proof.Machine.execKeyset s
  | .ykey => Sys2Proof.Machine.execYkey s
  | .fixed => Sys2Proof.Machine.execFixed s
  | .switched => Sys2Proof.Machine.execSwitched s
  | .enable => Sys2Proof.Machine.execEnable s
  | .disable => Sys2Proof.Machine.execDisable s
  | .peer => Sys2Proof.Machine.execPeer s
  | .route => Sys2Proof.Machine.execRoute s
  | .routeClear => Sys2Proof.Machine.execRouteClear s
  | .read => Sys2Proof.Machine.execRead s
  | .yquiesce => Sys2Proof.Machine.execYquiesce s
  | .yresume => Sys2Proof.Machine.execYresume s
  | .treealloc => Sys2Proof.Machine.execTreealloc s
  | .treefree => Sys2Proof.Machine.execTreefree s
  | .fwstage => Sys2Proof.Machine.execFwstage s
  | .telread => Sys2Proof.Machine.execTelread s
  | .telwrite => Sys2Proof.Machine.execTelwrite s
  | .diagResume => Sys2Proof.Machine.execDiagResume s
  | .diagContinue => Sys2Proof.Machine.execDiagContinue s
  | .discard => Sys2Proof.Machine.execDiscard s
  | .diagread => Sys2Proof.Machine.execDiagread s
  | .pfreeze => Sys2Proof.Machine.execPfreeze s
  | .pthaw => Sys2Proof.Machine.execPthaw s
  | .dumpread => Sys2Proof.Machine.execDumpread s
  | .badop => Sys2Proof.Machine.execBadop s
  | .creqRds => Sys2Proof.Machine.execCreqRds s
  | .creqRdx => Sys2Proof.Machine.execCreqRdx s
  | .creqRdc => Sys2Proof.Machine.execCreqRdc s
  | .creqUpg => Sys2Proof.Machine.execCreqUpg s
  | .creqWbm => Sys2Proof.Machine.execCreqWbm s
  | .creqWrs => Sys2Proof.Machine.execCreqWrs s
  | .crspCmps => Sys2Proof.Machine.execCrspCmps s
  | .crspCmpe => Sys2Proof.Machine.execCrspCmpe s
  | .crspCmp => Sys2Proof.Machine.execCrspCmp s
  | .cdatData => Sys2Proof.Machine.execCdatData s
  | .binv => Sys2Proof.Machine.execBinv s
  | .bshr => Sys2Proof.Machine.execBshr s
  | .backi => Sys2Proof.Machine.execBacki s
  | .backs => Sys2Proof.Machine.execBacks s
  | .nreqPut => Sys2Proof.Machine.execNreqPut s
  | .nreqGet => Sys2Proof.Machine.execNreqGet s
  | .nreqAtom => Sys2Proof.Machine.execNreqAtom s
  | .nreqAccp => Sys2Proof.Machine.execNreqAccp s
  | .nreqCadd => Sys2Proof.Machine.execNreqCadd s
  | .nrspAck => Sys2Proof.Machine.execNrspAck s
  | .nrspGdata => Sys2Proof.Machine.execNrspGdata s
  | .nrspArsp => Sys2Proof.Machine.execNrspArsp s
  | .nrspNerr => Sys2Proof.Machine.execNrspNerr s
  | .drainCommit => Sys2Proof.Machine.execDrainCommit s
  | .ethernetLinkDown => Sys2Proof.Machine.execEthernetLinkDown s
  | .ethernetLinkUp => Sys2Proof.Machine.execEthernetLinkUp s
  | .sessionTree => Sys2Proof.Machine.execSessionTree s
  | .powerRemoved => Sys2Proof.Machine.execPowerRemoved s

end Sys2Proof.Machine
end

