-- ==== Sys2Proof/Machine/Progress.lean ====
section
/-! DEFINITION. What the machine does of itself: messages and host requests that wait, stages of commands under way, and the internal
events whose cause stands (DESIGN CHOICE, log entry 1). -/

namespace Sys2Proof.Machine

/-- The event that serves a message (R67, R73). -/
def msgEvent (m : Msg) : Option Instr :=
  match m.chan, m.opc with
  | 2, 1 => some .creqRds
  | 2, 2 => some .creqRdx
  | 2, 3 => some .creqRdc
  | 2, 4 => some .creqUpg
  | 2, 5 => some .creqWbm
  | 2, 6 => some .creqWrs
  | 3, 1 => some .crspCmps
  | 3, 2 => some .crspCmpe
  | 3, 3 => some .crspCmp
  | 4, 1 => some .cdatData
  | 5, 1 => some .binv
  | 5, 2 => some .bshr
  | 6, 1 => some .backi
  | 6, 2 => some .backs
  | 7, 1 => some .nreqPut
  | 7, 2 => some .nreqGet
  | 7, 3 => some .nreqAtom
  | 7, 4 => some .nreqAccp
  | 7, 5 => some .nreqCadd
  | 8, 1 => some .nrspAck
  | 8, 2 => some .nrspGdata
  | 8, 3 => some .nrspArsp
  | 8, 4 => some .nrspNerr
  | _, _ => none

/-- The next stage of what is under way and due: a view's update, the release of a routing table, SUSPEND, PDESTROY, a change of
writer, TLBINV, an error word, work on a line, a host's request, YQUIESCE; memory stands while a drain commit's pause lasts (R134).
-/
def State.stage (s : State) : Option State :=
  s.viewStage.orElse fun _ =>
  s.tableStage.orElse fun _ =>
  ((List.range 32).findSome? s.partStage).orElse fun _ =>
  s.writerStage.orElse fun _ =>
  s.invStage.orElse fun _ =>
  (if s.paused then none else s.errStage.orElse fun _ => s.jobStage.orElse fun _ => s.rdmaStage).orElse fun _ =>
  s.quiesceReady.map s.sendQuiesceDone

/-- The event of a request at its order point. -/
def OrderKind.event (k : OrderKind) (lane : Nat) : Instr :=
  match k with
  | .rds => .rds lane
  | .rdx => .rdx lane
  | .own => .own lane
  | .upg => .upg lane
  | .putm => .putm lane
  | .puto => .puto lane
  | .pin => .pin lane

/-- Line data on the mesh arrives. -/
def State.meshEvents (s : State) : List Instr := s.mesh.map fun m => .forwardedData m.die m.line

/-- Order points that are reached, and completions of transient records (R244 to R248). -/
def State.lineEvents (s : State) : List Instr :=
  ((List.range 4).filterMap fun k => (s.nextOrdered k).map fun r => r.kind.event k) ++ s.meshEvents ++
  s.homes.flatMap fun h => h.2.trans.map fun t => if t.kind == .miA then .dramWriteBack h.1 else .requesterCompletion t.die h.1

/-- The events that perform an operation of the memory pipe. -/
def PipeOp.events (o : PipeOp) : List Instr :=
  match o.kind with
  | .load .. | .accRead .. | .writeBack | .invalidate | .fetchAhead | .nrd _ => [.loadPerform o.id 0xFFFF]
  | .store _ => [.storePerform o.id 0xFFFF, .triggerWindowAdd o.id, .triggerWindowSet o.id]
  | .atomic _ => [.atomicPerform o.id 0xFFFF]
  | .accum _ | .accClear _ => [.accumulatePerform o.id ⟨0xFFFF, 3⟩]
  | .divide _ => [.divideComplete o.id]
  | .stb .. => [.stbPerform o.id]
  | _ => []

/-- Whether a workgroup's partition stands still (R337). -/
def State.heldWg (s : State) (w : Nat) : Bool := (s.part (s.wg w).part).frozen

/-- The events of the memory pipe and of the page walkers. -/
def State.pipeEvents (s : State) : List Instr :=
  (s.walks.map fun w => .pageWalk w.1 w.2.1 w.2.2) ++ s.pipe.flatMap fun o => if s.heldWg o.wg then [] else o.events

/-- The events of the copy and matrix engines. -/
def State.engineEvents (s : State) : List Instr :=
  s.cores.flatMap fun c =>
    (match c.2.copyQ with
     | x :: _ => if s.heldWg x.wg then [] else [.copyCommandStart c.1, .copyCommandPerform c.1]
     | [] => []) ++
    (match c.2.matQ with
     | x :: _ => if s.heldWg x.wg then [] else [.matrixCommandStart c.1, .matrixCommandPerform c.1]
     | [] => [])

/-- The events of the fabric engines. -/
def State.fabricEvents (s : State) : List Instr :=
  (s.netQ.flatMap fun q => [.entryIssue (q.1 / 32) (q.1 % 32), .entryComplete (q.1 / 32) (q.1 % 32)]) ++
  s.releases.map fun r => .blockRelease r.die r.part

/-- The events of runs and nodes (R98, R154, R155, R166). -/
def State.graphEvents (s : State) : List Instr :=
  s.graphs.flatMap fun x =>
    match x.2 with
    | some g =>
      (if s.runReady g then [.runStart x.1] else []) ++
      (match g.run with
       | some _ => g.offsets.flatMap fun n => [.nodeDispatch x.1 n, .nodeDone x.1 n, .promotion x.1 n]
       | none => [])
    | none => []

/-- The events of workgroups: pre-emption, the watchdog, dispatch (R165, R168, R333). -/
def State.wgEvents (s : State) : List Instr :=
  (s.wgs.flatMap fun x => [.preemption x.1, .watchdogExpiry x.1]) ++
  (match s.decision with
   | some (_, _, _, cs) => [.dispatchDecision (decisionDie cs)]
   | none => [])

/-- The events of announced remaps, of key limits and of granules to be zeroed (R25, R53, R119). -/
def State.moduleEvents (s : State) : List Instr :=
  (s.base.remaps.flatMap fun r => [.blackout r.die, .remapFrame r.die]) ++
  (s.ports.flatMap fun p => p.2.fctr.filterMap fun f => if fctrLimit ≤ f.2 then some (.keyExhaust p.1 (f.1 / 2) (f.1 % 2)) else none) ++
  s.owner.filterMap fun g => if 100 ≤ g.2 then some (.granuleZeroed g.1) else none

/-- Every internal event that may be due, in the order in which they are tried; while a drain commit's pause lasts, only the mesh
and the commit (R134). -/
def State.internal (s : State) : List Instr :=
  if s.paused then s.meshEvents ++ [.drainCommit]
  else
    s.moduleEvents ++ s.lineEvents ++ s.pipeEvents ++ s.engineEvents ++ s.fabricEvents ++ s.graphEvents ++ s.wgEvents

/-- Whether an event's cause stands: it changes the machine. -/
def State.changes (s : State) (e : Instr) : Bool :=
  match exec e s with
  | .next t => t != s
  | _ => true

/-- The next internal event whose cause stands. -/
def State.progress (s : State) : Option Instr := s.internal.find? s.changes

end Sys2Proof.Machine
end

