-- ==== Sys2Proof/Machine/Run.lean ====
section
/-! DEFINITION. What a step does: an event that the environment has placed, the second word or lane set of a cycle, a slot that takes its
next fibre, an instruction to issue, a hand-off, an internal event, or the end of the cycle. -/

namespace Sys2Proof.Machine

/-- What the step has chosen: a meaning to run, with the focus after which its fibre may issue again in the cycle, or an answer of
its own. -/
inductive Choice where
  | run (i : Instr) (s : State) (first : Option Focus)
  | answer (a : Answer)

/-- Whether an answer froze a fibre at the checks of decode, REG_RANGE or UNSUPPORTED, which stand before ILLEGAL_TARGET (R326). -/
def atDecode (f : Focus) : Answer → Bool
  | .next t => (t.fibOf f).st == .frozen && match (t.fibOf f).frozenBy with
    | some (_, c) => c == FaultCode.regRange.num || c == FaultCode.unsupported.num
    | none => false
  | _ => false

/-- The word at a role entry that is no branch target: its own faults of decode, or ILLEGAL_TARGET (R325, R326). -/
def State.enterBadly (s : State) (f : Focus) (a : Answer) (t : Trap) : Answer :=
  if atDecode f a then a else .next (s.faultAt f f.lanes t)

/-- Issue what stands at a focus; `first` tells that its fibre has not issued in this cycle (R324 to R326)
(DEDUCED, log entry 85). -/
def State.issueAt (s : State) (f : Focus) (first : Bool) : Choice :=
  let s1 := { s with focus := some f }
  match s.standsAt (s.wg f.wg) f.pc with
  | .instr _ i =>
    match s.entryTrap f with
    | none => .run i s1 (if first then some f else none)
    | some t => .answer (s.enterBadly f (exec i s1) t)
  | .illegal h opc => .answer (issue h {} (fun _ => .trap ⟨.illegalOp, 0xFF, 0, opc⟩) s1)
  | .fault t => .answer (.next (s.faultAt f f.lanes t))
  | .miss va => .answer (.next (s.queueWalk (s.wg f.wg).die (s.wg f.wg).launch.asid va))

/-- The pages that the current fibres wait to fetch. -/
def State.fetchMiss (s : State) : Option (Nat × Nat × Nat) :=
  s.seats.findSome? fun x =>
    match (s.slot x.wg x.slot).current with
    | none => none
    | some f =>
      (s.fib x.wg x.slot f).laneSets.findSome? fun y =>
        let wg := s.wg x.wg
        match s.standsAt wg y.1 with
        | .miss va => if s.mayWalk wg.die wg.launch.asid va then some (wg.die, wg.launch.asid, va) else none
        | _ => none

/-- The slot whose current fibre hands off (R207). -/
def State.handOffSeat (s : State) : Option (Nat × Nat) :=
  s.seats.findSome? fun x =>
    if (s.slot x.wg x.slot).lastIssue != s.wgNow x.wg + 1 && (s.handOffTo x.wg x.slot).isSome then some (x.wg, x.slot) else none

/-- Events that act while the module is frozen: those of the Basecamp controller, the power input and the Ethernet port (R102,
R337) (DESIGN CHOICE, log entry 11). -/
def actsFrozen : Instr → Bool
  | .moduleReset _ | .powerRemoved | .trayKeyInstall _ | .sessionTree | .lantern _ | .warning .. | .trip .. | .ethernetLinkDown
  | .ethernetLinkUp | .ethernetFrameDiscard .. | .arp .. | .neighbourDiscovery .. | .priorityFlowControl .. => true
  | _ => false

/-- Events that act without power (R40) (DESIGN CHOICE, log entry 11). -/
def actsUnpowered : Instr → Bool
  | .moduleReset _ => true
  | _ => false

/-- Whether an event of the environment acts now (DESIGN CHOICE, log entry 11) (DESIGN CHOICE, log entry 63). -/
def State.acts (s : State) (e : Instr) : Bool :=
  if !s.base.power then actsUnpowered e else s.base.frozen.isNone || actsFrozen e

/-- The oldest datagram that has arrived; exchanges wait while the Ethernet link is down (R76). -/
def State.arrived? (s : State) : Option Datagram := if s.base.ethDown then none else s.rx.head?

/-- What is left once no fibre can issue in this cycle: a command, a message, a stage, an internal event, or the
cycle's end (DESIGN CHOICE, log entry 1). -/
def State.chooseQuiet (s : State) : Choice :=
  match s.arrived? with
  | some d => .run d.command s none
  | none =>
    match s.inbox, s.paused with
    | (_, _, m) :: r, false =>
      (match msgEvent m with
       | some e => .run e s none
       | none => .answer (.next { s with inbox := r }))
    | _, _ =>
      match s.stage with
      | some t => .answer (.next t)
      | none =>
        match s.progress with
        | some e => .run e s none
        | none => .answer (.next s.endCycle)

/-- The step's choice where no event of the environment waits (DESIGN CHOICE, log entry 1). -/
def State.chooseOwn (s : State) : Choice :=
  match s.openPair with
  | some (w, k, f) =>
    match s.pairSecond w k f with
    | some fo => s.issueAt fo false
    | none => .answer (.next (s.modFib w k f fun fb => { fb with pairOpen := false }))
  | none =>
    match s.openSecond with
    | some (w, k, f) =>
      match s.secondFocus w k f with
      | some fo => s.issueAt fo false
      | none => .answer (.next (s.modFib w k f fun fb => { fb with second := [] }))
    | none =>
      match s.emptySeat with
      | some (w, k, f) => .answer (.next (s.fillSeat w k f))
      | none =>
        match s.handOffSeat with
        | some (w, k) => .run (.handOff w k) s none
        | none =>
          match s.pick with
          | some f => s.issueAt f true
          | none =>
            match s.fetchMiss with
            | some (die, asid, va) => .answer (.next (s.queueWalk die asid va))
            | none => s.chooseQuiet

/-- The choice while the module stands still: time passes, and the controller beats and serves commands (R198, R337). -/
def State.chooseStill (s : State) : Choice :=
  match s.base.power, s.arrived? with
  | true, some d => .run d.command s none
  | true, none => .answer (.next (State.beat { s with tick := s.tick + 1 }))
  | false, _ => .answer (.next { s with tick := s.tick + 1 })

/-- The step's choice (DESIGN CHOICE, log entry 1). -/
def State.choose (s : State) : Choice :=
  match s.agenda with
  | e :: r => if s.acts e then .run e { s with agenda := r } none else .answer (.next { s with agenda := r })
  | [] => if s.base.frozen.isSome || !s.base.power then s.chooseStill else s.chooseOwn

/-- After the first issue of a fibre in a cycle, the fibre may issue the second word of its pair, or a second lane set, in the
same cycle (R205, R213). -/
def openAfter (s : State) (first : Option Focus) (a : Answer) : Answer :=
  match first, a with
  | some f, .next t =>
    if (t.fibOf f).st == .current && (t.fibOf f).issueIx == (s.fibOf f).issueIx + 1 then
      if s.pairAt f then .next (t.modFibOf f fun fb => { fb with pairOpen := true })
      else
        match s.secondSets f with
        | [] => a
        | xs => .next (t.modFibOf f fun fb => { fb with second := xs })
    else a
  | _, _ => a

/-- The workgroup that `State.place` builds: one slot, one fibre, one role (DESIGN CHOICE, log entry 24). -/
def oneFibre (pc : Nat) : Workgroup :=
  { launch := { roles := [{ vregs := 31, wreg := 64, count := 1 }], slots := 1, localBytes := 4096, tiles := 16, accs := 4,
                nctr := 64, codeBase := pc }
    slots := [(0, { fibres := [(0, { st := .current, pc := List.replicate 16 pc, atEntry := false, restart := pc,
                                     s := [] })]
                    count := 1, current := some 0 })] }

/-- A fetch line that holds one word in slot 0 and NOPs (R339, R342). -/
def codeLine (w : Nat) : List Byte :=
  let nop := (0x0C7 * 2 ^ 86 + 7 * 2 ^ 82) % 2 ^ 96
  let words := [w % 2 ^ 96, nop, nop, nop, nop]
  let body := words.flatMap (leBytes 12)
  let par := (List.range 5).foldl (fun x k => if parity (words.getD k 0) 96 then x + 2 ^ (16 + k) else x) 0
  body ++ leBytes 4 (crc16 body + par + 2 ^ 27)

/-- A machine whose next step issues a given word: workgroup 0 of partition 0 on core 0 holds one fibre at virtual and physical
address 2 MiB, and the page is in die 0's TLB (DESIGN CHOICE, log entry 24). -/
def State.placeWord (s : State) (w : Nat) : State :=
  let pc := 2 ^ 21
  let s1 := s.setPart 0
    { s.part 0 with st := .active, asidCount := 1, cores := [(0, false)], codeImage := Memory.write [] pc (codeLine w) }
  { s1 with
    agenda := []
    base := { s1.base with ready := true, frozen := none, power := true }
    owner := Tab.set 0 s1.owner 1 1
    tlb := [{ die := 0, asid := 0, page := 1, bits := 21, leaf := ⟨.global, pc, true, true, true, true⟩ }]
    wgs := [(0, some (oneFibre pc))] }

end Sys2Proof.Machine
end

