-- ==== Sys2Proof/Machine/Step.lean ====
section
/-! DEFINITION. One step of the machine, and the placement of a word where the next step fetches. -/

namespace Sys2Proof.Machine

/-- One step: what Run chooses, run by its meaning. -/
def step (s : State) : Host.Outcome State Fault Refusal :=
  match s.choose with
  | .run i t first => openAfter t first (exec i t)
  | .answer a => a

/-- The state whose next step fetches and runs the word `w` (DESIGN CHOICE, log entry 24). -/
def State.withFetchWord (s : State) (_nbits w : Nat) : State := s.placeWord w

end Sys2Proof.Machine
end

