-- ==== Sys2Proof/Safety.lean ====
section
/-! DEFINITION. The terms of claims: the registers of a fibre as a claim reads them, the frame of an instruction's issue, the
results of a fixed-latency instruction, and the memory invariant. -/

namespace Sys2Proof.Machine

/-- The memory invariant: package memory, the marks of its failing sectors and the dies' copies of lines are in canonical form. -/
def State.memWf (s : State) : Bool := Memory.wf s.mem && Tab.wf false s.failing && Tab.wf {} s.lines

/-! ### Registers -/

/-- Register V`n` of lane `l`. -/
def Fibre.vAt (fb : Fibre) (n l : Nat) : Word := Tab.get 0 fb.v (16 * n + l)
/-- Register S`n`. -/
def Fibre.sAt (fb : Fibre) (n : Nat) : Dword := Tab.get 0 fb.s n
/-- Register A`n`. -/
def Fibre.aAt (fb : Fibre) (n : Nat) : Affine := Tab.get {} fb.a n
/-- Predicate P`n` in lane `l`. -/
def Fibre.pAt (fb : Fibre) (n l : Nat) : Bool := laneIn (Tab.get 0 fb.p n) l
/-- The program counter of lane `l`, in PC form. -/
def Fibre.pcAt (fb : Fibre) (l : Nat) : Nat := fb.pc.getD l 0
/-- The count of completion flag F`n`. -/
def Fibre.flagAt (fb : Fibre) (n : Nat) : Nat := Tab.get 0 fb.f n
/-- Register W`n` of lane `l`. -/
def SlotSt.wAt (sl : SlotSt) (n l : Nat) : Word := Tab.get 0 sl.win (16 * n + l)
/-- Whether window register W`n` is full. -/
def SlotSt.full (sl : SlotSt) (n : Nat) : Bool := Tab.get false sl.tags n

/-! ### The issue of an instruction and its frame -/

/-- The focus fibre issues a word with scheduling fields `h`, and some lane is active. -/
def State.issues (s : State) (f : Focus) (h : Sched) : Prop := s.focus = some f ∧ (issueCtx s f h).act ≠ 0

/-- The lanes that act. -/
def activeLanes (s : State) (f : Focus) (h : Sched) : List Nat := lanesOf (issueCtx s f h).act

/-- Every part of the machine outside the workgroups, the core's issue count and its pickers' positions is as before; `pipe` and
`nextId` too where no operation enters the memory pipe. -/
def SameMachine (s t : State) : Prop :=
  t = { s with wgs := t.wgs, cores := t.cores, free := t.free, focus := t.focus } ∧
  ∀ c, t.core c = { s.core c with issued := (t.core c).issued, picker := (t.core c).picker }

/-- The same where one operation enters the memory pipe. -/
def SameButPipe (s t : State) (op : PipeOp) : Prop :=
  t = { s with wgs := t.wgs, cores := t.cores, free := t.free, focus := t.focus, pipe := s.pipe ++ [op], nextId := s.nextId + 1 } ∧
  ∀ c, t.core c = { s.core c with issued := (t.core c).issued, picker := (t.core c).picker }

/-- Among the workgroups only the issuing fibre, and its slot's time of issue, differ. -/
def SameButFibre (s t : State) (f : Focus) : Prop :=
  (∀ w, w ≠ f.wg → t.wg w = s.wg w) ∧
  t.wg f.wg = { s.wg f.wg with slots := (t.wg f.wg).slots } ∧
  (∀ k, k ≠ f.slot → t.slot f.wg k = s.slot f.wg k) ∧
  t.slot f.wg f.slot = { s.slot f.wg f.slot with fibres := (t.slot f.wg f.slot).fibres, lastIssue := s.wgNow f.wg + 1 } ∧
  ∀ j, j ≠ f.fib → t.fib f.wg f.slot j = s.fib f.wg f.slot j

/-- In a fibre only registers, kept values and the counts of its issue differ; its state, restart point, live-in counts, lanes
and FPSTAT do not. -/
def Fibre.sameButRegs (fb fb' : Fibre) : Prop :=
  fb' = { fb with
    pc := fb'.pc, v := fb'.v, s := fb'.s, a := fb'.a, p := fb'.p, f := fb'.f, latches := fb'.latches, hist := fb'.hist,
    clk := fb'.clk, issueIx := fb.issueIx + 1, lastIssue := fb'.lastIssue, pairOpen := false, second := [], streak := fb'.streak,
    atEntry := fb'.atEntry, timers := fb'.timers, status := fb'.status, writeAt := fb'.writeAt, issued := fb.issued + 1 }

/-- Every lane of the set that issued, and no other, moves to the next word (R14, R394). -/
def MovesOn (f : Focus) (fb fb' : Fibre) : Prop :=
  ∀ l, l < 16 → fb'.pcAt l = if laneIn (f.lanes &&& fb.live) l then nextPc f.pc else fb.pcAt l

/-- The completion flag that SETF names, and no other, counts one operation more (R209, R354). -/
def CountsFlag (h : Sched) (fb fb' : Fibre) : Prop :=
  ∀ n, fb'.flagAt n = if (h.setf.map Fin.val) = some n then min 15 (fb.flagAt n + 1) else fb.flagAt n

/-- No register of the fibre changes. -/
def SameRegs (fb fb' : Fibre) : Prop := fb'.v = fb.v ∧ fb'.s = fb.s ∧ fb'.a = fb.a ∧ fb'.p = fb.p

/-- An instruction with no effect beyond the registers has issued from `s`, leaving `t`: memory, every other fibre and every other
part of the machine are as before; its lanes move on. -/
structure IssuedOnly (s t : State) (f : Focus) (h : Sched) : Prop where
  machine : SameMachine s t
  fibre : SameButFibre s t f
  regs : Fibre.sameButRegs (s.fibOf f) (t.fibOf f)
  moves : MovesOn f (s.fibOf f) (t.fibOf f)
  flag : CountsFlag h (s.fibOf f) (t.fibOf f)

/-! ### Results (R210, R212, R354, R367) -/

/-- The registers after a result of `regs` registers: the active lanes of a V destination, an S destination as a whole, the active
lanes of a P destination; under NWB none. -/
def ResultIn (h : Sched) (act : Lanes) (d : Operand) (regs : Nat) (x : Dword) (val : Nat → Nat) (fb fb' : Fibre) : Prop :=
  if h.nwb then SameRegs fb fb'
  else
    match d with
    | .v n =>
      (∀ k l, l < 16 → fb'.vAt k l =
        if n.val ≤ k ∧ k < n.val + regs ∧ laneIn act l = true then BitVec.ofNat 32 (val l / 2 ^ (32 * (k - n.val)))
        else fb.vAt k l) ∧
      fb'.s = fb.s ∧ fb'.a = fb.a ∧ fb'.p = fb.p
    | .s n => (∀ k, fb'.sAt k = if k = n.val then x else fb.sAt k) ∧ fb'.v = fb.v ∧ fb'.a = fb.a ∧ fb'.p = fb.p
    | .p n =>
      (∀ k l, l < 16 → fb'.pAt k l = if k = n.val ∧ laneIn act l = true then val l % 2 == 1 else fb.pAt k l) ∧
      fb'.v = fb.v ∧ fb'.s = fb.s ∧ fb'.a = fb.a
    | _ => SameRegs fb fb'

/-- The latch that the issue index names holds the results, and is usable `lat` cycles later, if the live lanes stand together
(R212). -/
def LatchIn (s : State) (f : Focus) (act : Lanes) (lat : Nat) (val : Nat → Nat) (fb fb' : Fibre) : Prop :=
  f.lanes = fb.live →
    Tab.get {} fb'.latches (fb.issueIx.toNat % 4) =
      { valid := true, ready := s.wgNow f.wg + lat, vals := latchVals act fun l => val l % 2 ^ 64 }

/-- A fixed-latency instruction with result `val` has issued: its destination and its latch hold the result, the status bits `fl`
are set when the result is written, and nothing else changes (R210, R212, R306, R354, R367, R368). `bits` is the width of the
result; `signed` tells how 32 bits fill an S register. -/
structure Results (s t : State) (f : Focus) (h : Sched) (lat : Nat) (d : Operand) (bits : Nat) (signed : Bool)
    (val : Nat → Nat) (fl : Word := 0) : Prop where
  only : IssuedOnly s t f h
  dest : ResultIn h (issueCtx s f h).act d (if bits = 64 then 2 else 1)
    (extendS signed bits (val (issueCtx s f h).lane0)) val (s.fibOf f) (t.fibOf f)
  latch : LatchIn s f (issueCtx s f h).act lat (if Operand.isS d then fun _ => val (issueCtx s f h).lane0 else val)
    (s.fibOf f) (t.fibOf f)
  status : (t.fibOf f).status =
    if fl = 0 then (s.fibOf f).status else (s.fibOf f).status ++ [(s.wgNow f.wg + lat, fl)]

/-- The word issues with an active lane, and every operand it names is in range, readable and writable (R326 steps 3, 6, 7). -/
def State.wordReady (s : State) (f : Focus) (h : Sched) (u : Uses) : Prop := s.issues f h ∧ (issueCtx s f h).check u = .ok

/-- A region-closing word is ready: an active lane, its operands in range and readable, the live lanes together, and a WAYPT with
live-in counts `l` in the following word (R224). -/
def State.closeReady (s : State) (f : Focus) (h : Sched) (u : Uses) (l : LiveIn) : Prop :=
  s.issues f h ∧ (issueCtx s f h).checkNames u = .ok ∧ Guard.all u.reads (issueCtx s f h).readable = .ok ∧
  f.lanes = (s.fibOf f).live ∧
  match fetchWord s (s.wg f.wg) (nextPc f.pc) with
  | .word w _ => wordOpcode w = 0x0C6 ∧ LiveIn.ofImm (field w 5 32) = l
  | _ => False

/-- The status bits of a result: those of every active lane, or of the lowest for an S destination (R306). -/
def resultFlags (s : State) (f : Focus) (h : Sched) (d : Operand) (val : Nat → Nat × FpFlags) : Word :=
  (if Operand.isS d then [(issueCtx s f h).lane0] else activeLanes s f h).foldl (fun x l => x ||| (val l).2) 0

/-- An operation has entered the memory pipe, and the instruction has done nothing else (R400). -/
structure EntersPipe (s t : State) (f : Focus) (h : Sched) (op : PipeOp) : Prop where
  machine : SameButPipe s t op
  fibre : SameButFibre s t f
  same : Fibre.sameButRegs (s.fibOf f) (t.fibOf f)
  regs : SameRegs (s.fibOf f) (t.fibOf f)
  status : (t.fibOf f).status = (s.fibOf f).status
  moves : MovesOn f (s.fibOf f) (t.fibOf f)
  flag : CountsFlag h (s.fibOf f) (t.fibOf f)

/-- A branch has issued: its active lanes are at their targets, the other lanes of its set at the next word, and nothing but
registers and the counts of the issue changes (R395). -/
structure JumpedOnly (s t : State) (f : Focus) (h : Sched) (target : Nat → Nat) : Prop where
  machine : SameMachine s t
  fibre : SameButFibre s t f
  same : Fibre.sameButRegs (s.fibOf f) (t.fibOf f)
  status : (t.fibOf f).status = (s.fibOf f).status
  flag : CountsFlag h (s.fibOf f) (t.fibOf f)
  lanes : ∀ l, l < 16 → (t.fibOf f).pcAt l =
    if laneIn (issueCtx s f h).act l then target l
    else if laneIn (f.lanes &&& (s.fibOf f).live) l then nextPc f.pc else (s.fibOf f).pcAt l

/-- The focus stands in a slot and among the fibres that its workgroup has, and its fibre is CURRENT there (R202, R206). -/
def State.inPlace (s : State) (f : Focus) : Prop :=
  f.slot < (s.wg f.wg).launch.slots ∧ f.fib < (s.slot f.wg f.slot).count ∧ (s.fibOf f).st = .current ∧
  (s.slot f.wg f.slot).current = some f.fib

/-- Registers, memory, accumulators and everything else outside the workgroup's barriers, window registers and fibre states stand:
the frame of the instructions that synchronise fibres (R414 to R419). -/
structure SyncFrame (s t : State) (f : Focus) : Prop where
  machine : SameMachine s t
  others : ∀ w, w ≠ f.wg → t.wg w = s.wg w
  group : t.wg f.wg = { s.wg f.wg with slots := (t.wg f.wg).slots, bars := (t.wg f.wg).bars }
  regs : ∀ k j, SameRegs (s.fib f.wg k j) (t.fib f.wg k j)

/-- No window register of the workgroup changes. -/
def SameWindows (s t : State) (f : Focus) : Prop :=
  ∀ k, (t.slot f.wg k).win = (s.slot f.wg k).win ∧ (t.slot f.wg k).tags = (s.slot f.wg k).tags

/-- No barrier of the workgroup changes. -/
def SameBars (s t : State) (f : Focus) : Prop := (t.wg f.wg).bars = (s.wg f.wg).bars

/-- A region-closing instruction of the focus fibre has performed: the WAYPT that follows is the restart point, with its live-in
counts (R225). -/
def RegionClosed (t : State) (f : Focus) (l : LiveIn) : Prop :=
  (t.fibOf f).restart = nextPc f.pc ∧ (t.fibOf f).livein = l ∧ (t.fibOf f).arrival = none

/-- The lanes of a word go on and its flag counts, as at every issue. -/
def GoesOn (s t : State) (f : Focus) (h : Sched) : Prop :=
  MovesOn f (s.fibOf f) (t.fibOf f) ∧ CountsFlag h (s.fibOf f) (t.fibOf f)

/-- The focus fibre is BLOCKED on an object, has not gone on, and its slot has no current fibre (R206, R208). -/
def BlockedOn (s t : State) (f : Focus) (b : Block) : Prop :=
  (t.fibOf f).st = .blocked ∧ (t.fibOf f).block = some b ∧ (t.fibOf f).pc = (s.fibOf f).pc ∧
  (t.slot f.wg f.slot).current = none ∧ t.focus = none

/-- What one arrival makes of a barrier: the phase completes where the expected count is reached (R414). -/
def arrivedBar (b : Bar) : Bar :=
  if b.expected ≠ 0 ∧ b.expected ≤ b.arrived + 1 then
    { expected := b.pending.getD b.expected, arrived := b.arrived + 1 - b.expected, phase := !b.phase, pending := none, count := 0 }
  else { b with arrived := b.arrived + 1, count := 0 }

/-- Every active lane's address, aligned where the access needs it, is placed by its translation (R231, R232, R255, R401). -/
def EachLane (s : State) (f : Focus) (h : Sched) (a : Access) (addr : Nat → Nat) (acc : Nat → LaneAcc) : Prop :=
  ∀ l ∈ activeLanes s f h, (a.align = true → addr l % a.size = 0) ∧ (issueCtx s f h).lanePlace a l (addr l) = .acc (acc l)

/-- Every active lane's local-store access is aligned and within the workgroup's local store (R237, R404). -/
def EachLocal (s : State) (f : Focus) (h : Sched) (e : Nat) (addr : Nat → Nat) : Prop :=
  ∀ l ∈ activeLanes s f h, addr l % e = 0 ∧ addr l + e ≤ (s.wg f.wg).launch.localBytes

/-- The accesses of the active lanes to the local store. -/
def localAccesses (s : State) (f : Focus) (h : Sched) (addr : Nat → Nat) : List LaneAcc :=
  (activeLanes s f h).map fun l => { lane := l, va := addr l, space := .localStore, pa := addr l }

/-- An operation has entered the memory pipe and, last, the partition's network queue on its die (R184, R443). -/
structure EntersNetwork (s t : State) (f : Focus) (h : Sched) (op : PipeOp) : Prop where
  machine : t = { s with
    wgs := t.wgs, cores := t.cores, free := t.free, focus := t.focus, pipe := s.pipe ++ [op], nextId := s.nextId + 1,
    netQ := t.netQ }
  queue : t.net (s.wg f.wg).die (s.wg f.wg).part = s.net (s.wg f.wg).die (s.wg f.wg).part ++ [.op s.nextId]
  cores : ∀ c, t.core c = { s.core c with issued := (t.core c).issued, picker := (t.core c).picker }
  queues : ∀ d p, 32 * d + p ≠ 32 * (s.wg f.wg).die + (s.wg f.wg).part → t.net d p = s.net d p
  fibre : SameButFibre s t f
  same : Fibre.sameButRegs (s.fibOf f) (t.fibOf f)
  regs : SameRegs (s.fibOf f) (t.fibOf f)
  moves : MovesOn f (s.fibOf f) (t.fibOf f)
  flag : CountsFlag h (s.fibOf f) (t.fibOf f)

/-- A command has entered the copy queue or the matrix queue of its core, and its tiles are busy with it; registers, tile data,
memory and everything else stand (R230, R280, R420, R436). -/
structure EntersQueue (s t : State) (f : Focus) (h : Sched) (matrix : Bool) (cmd : Cmd) : Prop where
  machine : t = { s with wgs := t.wgs, cores := t.cores, free := t.free, focus := t.focus, nextId := s.nextId + 1 }
  queue : ∀ c, t.core c =
    { s.core c with
      issued := (t.core c).issued
      picker := (t.core c).picker
      copyQ := (s.core c).copyQ ++ (if c = (s.wg f.wg).lcore ∧ matrix = false then [cmd] else [])
      matQ := (s.core c).matQ ++ (if c = (s.wg f.wg).lcore ∧ matrix = true then [cmd] else []) }
  others : ∀ w, w ≠ f.wg → t.wg w = s.wg w
  group : t.wg f.wg = { s.wg f.wg with slots := (t.wg f.wg).slots, tiles := (t.wg f.wg).tiles }
  tiles : ∀ n, (t.wg f.wg).tile n =
    { (s.wg f.wg).tile n with busy := ((s.wg f.wg).tile n).busy + (cmd.kind.tileList.filter (· == n)).length }
  same : Fibre.sameButRegs (s.fibOf f) (t.fibOf f)
  regs : SameRegs (s.fibOf f) (t.fibOf f)
  moves : MovesOn f (s.fibOf f) (t.fibOf f)
  flag : CountsFlag h (s.fibOf f) (t.fibOf f)

/-- A command's word is ready: where its operand names a signal the word closes its region, with live-in counts (R223, R224). -/
def State.entryReady (s : State) (f : Focus) (h : Sched) (u : Uses) (sig : Signal) (closing : Option LiveIn) : Prop :=
  match closing with
  | none => sig.closes = false ∧ s.wordReady f h u
  | some l => sig.closes = true ∧ s.closeReady f h u l

/-- The focus fibre has taken a fault: it is FROZEN with its registers, program counters and restart point as they were, its slot
passes, and the partition's fault queue ends with the record (R227, R327, R329). -/
structure FaultTaken (s t : State) (f : Focus) (lanes : Lanes) (tr : Trap) : Prop where
  frozen : (t.fibOf f).st = .frozen
  by_ : (t.fibOf f).frozenBy = some ((s.part (s.wg f.wg).part).frseq + 1, tr.code.num)
  regs : SameRegs (s.fibOf f) (t.fibOf f)
  pcs : (t.fibOf f).pc = (s.fibOf f).pc
  restart : (t.fibOf f).restart = (s.fibOf f).restart ∧ (t.fibOf f).livein = (s.fibOf f).livein
  latches : (t.fibOf f).latches = []
  slot : (t.slot f.wg f.slot).current ≠ some f.fib
  others : ∀ w k j, (w, k, j) ≠ (f.wg, f.slot, f.fib) → t.fib w k j = s.fib w k j
  memory : t.mem = s.mem ∧ t.accs = s.accs ∧ t.pipe = s.pipe ∧ t.counters = s.counters ∧ t.tick = s.tick
  number : (t.part (s.wg f.wg).part).frseq = (s.part (s.wg f.wg).part).frseq + 1
  record : (s.part (s.wg f.wg).part).faultQ.length < 4096 →
    (t.part (s.wg f.wg).part).faultQ = (s.part (s.wg f.wg).part).faultQ ++
      [((s.part (s.wg f.wg).part).frseq + 1,
        faultRecord s (s.wg f.wg) f.slot f.fib f.pc lanes 0 0 ((s.part (s.wg f.wg).part).frseq + 1) tr)]

/-! ### Words that come to issue (R324 to R326, R342, R344, R363, R364) -/

/-- The picker's choice, of a fibre that has not issued in this cycle (R202, R204). -/
def State.firstOffer (s : State) (f : Focus) : Prop :=
  s.openPair = none ∧ s.openSecond = none ∧ s.emptySeat = none ∧ s.handOffSeat = none ∧ s.pick = some f

/-- The second word of an opened pair, or the lane set of the second fetch port (R205, R213). -/
def State.laterOffer (s : State) (f : Focus) : Prop :=
  (∃ x k j, s.openPair = some (x, k, j) ∧ s.pairSecond x k j = some f) ∨
  s.openPair = none ∧ ∃ x k j, s.openSecond = some (x, k, j) ∧ s.secondFocus x k j = some f

/-- The step offers word `w`, which stands at the address of the lane set `f` in a line with line word `lw`: no event waits, the
module runs, and the picker's choice, the second word of an opened pair, or the second port's lane set is `f`. -/
structure State.comes (s : State) (f : Focus) (w lw : Nat) : Prop where
  quiet : s.agenda = []
  runs : s.base.frozen = none ∧ s.base.power = true
  offer : s.firstOffer f ∨ s.laterOffer f
  word : fetchWord s (s.wg f.wg) f.pc = .word w lw
  target : (s.fibOf f).atEntry = true → lineTarget lw (f.pc % 8) = true

/-- A word has issued with no effect but its issue: its lanes move on, no completion flag counts, and registers, memory and everything
else stand (R14, R324). -/
structure PassedBy (s t : State) (f : Focus) : Prop where
  machine : SameMachine s t
  fibre : SameButFibre s t f
  regs : SameRegs (s.fibOf f) (t.fibOf f)
  moves : MovesOn f (s.fibOf f) (t.fibOf f)
  flags : ∀ n, (t.fibOf f).flagAt n = (s.fibOf f).flagAt n
  stays : (t.fibOf f).st = .current ∧ (t.fibOf f).restart = (s.fibOf f).restart

/-- The word, in a line with line word `lw`, is an illegal encoding: wherever it comes to issue with an active lane it raises
ILLEGAL_OP with its opcode as DETAIL, and with none it does nothing (R324, R328, R364). -/
def IllegalIn (w lw : Nat) : Prop :=
  ∀ (s : State) (f : Focus), s.comes f w lw → s.inPlace f →
    let c := issueCtx { s with focus := some f } f (rawSched w)
    (c.act ≠ 0 → ∃ t, step s = .next t ∧ FaultTaken { s with focus := some f } t f c.act ⟨.illegalOp, 0xFF, 0, wordOpcode w⟩) ∧
    (c.act = 0 → ∃ t, step s = .next t ∧ PassedBy { s with focus := some f } t f)

/-- The word is an illegal encoding in every line. -/
def IllegalWord (w : Nat) : Prop := ∀ lw, IllegalIn w lw

/-- What holds of every legal word of an opcode and of its instruction. -/
def WordsOf (opc : Nat) (p : Nat → Instr → Prop) : Prop := ∀ w i, decodeWord w = .ok i → wordOpcode w = opc → p w i

/-- The opcodes of the opcode map, as ranges with both ends (R363). -/
def opcodeRanges : List (Nat × Nat) :=
  [(0x001, 0x009), (0x010, 0x019), (0x020, 0x026), (0x040, 0x042), (0x048, 0x04A), (0x050, 0x053), (0x058, 0x05C), (0x060, 0x062),
   (0x080, 0x087), (0x090, 0x096), (0x098, 0x09A), (0x0A0, 0x0A2), (0x0C0, 0x0C7), (0x100, 0x104), (0x108, 0x10A), (0x110, 0x111),
   (0x140, 0x142), (0x148, 0x149), (0x150, 0x154), (0x158, 0x15B), (0x160, 0x163), (0x168, 0x168), (0x180, 0x183), (0x188, 0x18A),
   (0x190, 0x191), (0x1C0, 0x1C5), (0x1D0, 0x1D7)]

/-- The opcodes of the forms other than G (R344, R363). -/
def iForms : List Nat := [0x049, 0x058, 0x05A, 0x0C6, 0x1D0]
/-- M-form. -/
def mForms : List Nat :=
  [0x100, 0x101, 0x102, 0x103, 0x104, 0x108, 0x109, 0x10A, 0x110, 0x111, 0x140, 0x141, 0x142, 0x160, 0x168, 0x1C0, 0x1C4]
/-- X-form. -/
def xForms : List Nat := [0x161, 0x162, 0x163, 0x180, 0x181, 0x182, 0x183, 0x188, 0x189, 0x18A]
/-- B-form. -/
def bForms : List Nat := [0x0C0, 0x0C2]
/-- Y-form. -/
def yForms : List Nat := [0x1D2, 0x1D3, 0x1D4]

/-- The lowest bits of an opcode's source operands, each with its permutation code four bits below (R343, R344). -/
def sourcePlaces (opc : Nat) : List Nat :=
  if opc ∈ bForms then [] else if opc ∈ iForms ∨ opc ∈ yForms then [41] else if opc ∈ mForms then [41, 27] else [41, 27, 13]

/-- A reserved operand code: an index of class 01 above 159, or a reserved one of class 10 (R348, R350). -/
def reservedOperand (c : Nat) : Prop :=
  (c / 256 = 1 ∧ 160 ≤ c % 256) ∨
  (c / 256 = 2 ∧ ((4 ≤ c % 256 ∧ c % 256 ≤ 7) ∨ (36 ≤ c % 256 ∧ c % 256 ≤ 47) ∨ 192 ≤ c % 256))

/-- A word with a reserved encoding: an unassigned opcode, a SETF value of 13 to 15, a reserved operand code, permutation code 15, a
B-form target slot of 5 to 7, or anything else that no legal instruction is encoded as, such as a reserved MOD value (R364). -/
def ReservedWord (w : Nat) : Prop :=
  (∀ r ∈ opcodeRanges, wordOpcode w < r.1 ∨ r.2 < wordOpcode w) ∨ 12 < field w 62 4 ∨ reservedOperand (field w 51 10) ∨
  (∃ p ∈ sourcePlaces (wordOpcode w), reservedOperand (field w p 10) ∨ field w (p - 4) 4 = 15) ∨
  (wordOpcode w ∈ bForms ∧ 5 ≤ field w 9 3) ∨ ∀ i, i.wellFormed = true → encode i ≠ some w

/-- Only one tile of the issuing workgroup differs, and it is as given. -/
structure TileWritten (s t : State) (f : Focus) (h : Sched) (n : Nat) (x : Tile) : Prop where
  machine : SameMachine s t
  others : ∀ w, w ≠ f.wg → t.wg w = s.wg w
  group : t.wg f.wg = { s.wg f.wg with slots := (t.wg f.wg).slots, tiles := (t.wg f.wg).tiles }
  tile : (t.wg f.wg).tile n = x
  tiles : ∀ k, k ≠ n → (t.wg f.wg).tile k = (s.wg f.wg).tile k
  same : Fibre.sameButRegs (s.fibOf f) (t.fibOf f)
  regs : SameRegs (s.fibOf f) (t.fibOf f)
  moves : MovesOn f (s.fibOf f) (t.fibOf f)
  flag : CountsFlag h (s.fibOf f) (t.fibOf f)

/-! ### Rules of the integer instructions (R370 to R372) -/

/-- An n-bit result of an exact integer: clamped to the type's range under SAT, else the integer modulo 2^n (R370). -/
def arithRule (n : Nat) (signed sat : Bool) (x : Int) (r : Nat) : Prop :=
  r < 2 ^ n ∧
  if sat then intOf n signed r = max (intMin n signed) (min x (intMax n signed)) else (r : Int) = x % 2 ^ n

/-- An n-bit result given bit by bit. -/
def bitsRule (n : Nat) (b : Nat → Bool) (r : Nat) : Prop := r < 2 ^ n ∧ ∀ i, i < n → r.testBit i = b i

/-- The integer arithmetic instructions: word, number of sources, exact result of the operands' values (R370). -/
def integerArithmetic (h : Sched) (o : GOps) (m : ModN) : List (Instr × Nat × (Int → Int → Int → Int)) :=
  [(.iadd h o m, 2, fun a b _ => a + b), (.isub h o m, 2, fun a b _ => a - b), (.imul h o m, 2, fun a b _ => a * b),
   (.imulh h o m, 2, fun a b _ => a * b / 2 ^ intBits m.ty), (.imad h o m, 3, fun a b c => a * b + c),
   (.imin h o m, 2, fun a b _ => min a b), (.imax h o m, 2, fun a b _ => max a b),
   (.iabs h o m, 1, fun a _ _ => if a < 0 then -a else a), (.ineg h o m, 1, fun a _ _ => -a)]

/-- The logic and shift instructions: word, number of sources, and bit `i` of the result from the operands' bits at width n; the
shift count is b mod n (R371). -/
def integerLogic (n : Nat) (h : Sched) (o : GOps) (m : ModN) : List (Instr × Nat × (Nat → Nat → Nat → Bool)) :=
  [(.and h o m, 2, fun a b i => a.testBit i && b.testBit i), (.or h o m, 2, fun a b i => a.testBit i || b.testBit i),
   (.xor h o m, 2, fun a b i => a.testBit i != b.testBit i), (.andn h o m, 2, fun a b i => a.testBit i && !b.testBit i),
   (.not h o m, 1, fun a _ i => !a.testBit i),
   (.shl h o m, 2, fun a b i => decide (b % n ≤ i) && a.testBit (i - b % n)),
   (.shr h o m, 2, fun a b i => decide (i + b % n < n) && a.testBit (i + b % n)),
   (.sar h o m, 2, fun a b i => a.testBit (min (i + b % n) (n - 1))),
   (.rol h o m, 2, fun a b i => a.testBit ((i + n - b % n) % n)), (.ror h o m, 2, fun a b i => a.testBit ((i + b % n) % n))]

/-- Bit `i` of the field that BFX extracts: position b[7:0], length b[15:8], cut at the width; sign-extended for signed types
(R372). -/
def extractedBit (n : Nat) (signed : Bool) (a b i : Nat) : Bool :=
  let pos := b % 256
  let len := b / 256 % 256
  if len = 0 ∨ n ≤ pos then false
  else
    let w := min len (n - pos)
    if i < w then a.testBit (pos + i) else signed && a.testBit (pos + w - 1)

/-- Bit `i` of BFI (R372). -/
def insertedBit (a b c i : Nat) : Bool :=
  let pos := b % 256
  let len := b / 256 % 256
  if pos ≤ i ∧ i < pos + len then a.testBit (i - pos) else c.testBit i

/-- Bit `i` of PRMB: byte i / 8 is the byte of b:a that its selector in c names, or copies of that byte's top bit (R372). -/
def permutedBit (n a b c i : Nat) : Bool :=
  let k := i / 8
  let src (j : Nat) : Bool := if j < n then a.testBit j else b.testBit (j - n)
  if n = 32 then
    let sel := c / 16 ^ k % 8
    if c.testBit (4 * k + 3) then src (8 * sel + 7) else src (8 * sel + i % 8)
  else src (8 * (c / 16 ^ k % 16) + i % 8)

/-- The bit instructions whose result is given bit by bit: word, number of sources, bit `i` of the result (R372). -/
def integerFields (n : Nat) (h : Sched) (o : GOps) (m : ModN) : List (Instr × Nat × (Nat → Nat → Nat → Nat → Bool)) :=
  [(.brev h o m, 1, fun a _ _ i => a.testBit (n - 1 - i)), (.bfx h o m, 2, fun a b _ => extractedBit n m.ty.signed a b),
   (.bfi h o m, 3, fun a b c => insertedBit a b c), (.prmb h o m, 3, fun a b c => permutedBit n a b c)]

/-- The counting instructions: word, and what the count says of the operand (R372). -/
def integerCounts (n : Nat) (h : Sched) (o : GOps) (m : ModN) : List (Instr × (Nat → Nat → Prop)) :=
  [(.popc h o m, fun a r => r = ((List.range n).filter fun i => a.testBit i).length),
   (.clz h o m, fun a r => r ≤ n ∧ (∀ i, n - r ≤ i → i < n → a.testBit i = false) ∧ (r < n → a.testBit (n - 1 - r) = true)),
   (.ctz h o m, fun a r => r ≤ n ∧ (∀ i, i < r → a.testBit i = false) ∧ (r < n → a.testBit r = true))]

/-! ### Rules of the floating-point instructions (R382 to R388) -/

/-- The arithmetic instructions that round once: word, number of sources, exact result of the operands' values with its status
bits (R383). -/
def floatArithmetic (h : Sched) (o : GOps) (m : ModF) : List (Instr × Nat × (FVal → FVal → FVal → FVal × FpFlags)) :=
  [(.fadd h o m, 2, fun a b _ => fpAdd m.rm a b), (.fsub h o m, 2, fun a b _ => fpAdd m.rm a b.negate),
   (.fmul h o m, 2, fun a b _ => fpMul a b), (.ffma h o m, 3, fun a b c => fpFma m.rm a b c)]

/-- An operand as FMIN and FMAX take and give it: a subnormal one is a zero of its sign where a flush bit is set (R384). -/
def pickOperand (f : Fmt) (flush : Bool) (a : Nat) : Nat := if isSubnormal f a && flush then f.zeroCode (bitAt a (f.width - 1)) else a

/-- One number is below another in the order of FMIN and FMAX, in which -0 is below +0 and the infinities are at the ends (R384). -/
def pickBelow (x y : FVal) : Prop :=
  match x, y with
  | .nan, _ | _, .nan => False
  | .inf n, .inf k => n = true ∧ k = false
  | .inf n, .fin .. => n = true
  | .fin .., .inf n => n = false
  | .fin n a e, .fin k b g => alignTo n a e (min e g) < alignTo k b g (min e g) ∨ (a = 0 ∧ b = 0 ∧ n = true ∧ k = false)

/-- What FMIN, or FMAX, gives for two codes: the smaller, or larger, operand; the other one where exactly one is NaN; the canonical NaN
where both are (R384). -/
def pickRule (f : Fmt) (max flush : Bool) (a b r : Nat) : Prop :=
  let x := pickOperand f flush a
  let y := pickOperand f flush b
  let v := decodeVal f x
  let w := decodeVal f y
  (v = .nan → w = .nan → r = f.canonNan) ∧ (v = .nan → w ≠ .nan → r = y) ∧ (v ≠ .nan → w = .nan → r = x) ∧
  (v ≠ .nan → w ≠ .nan → (r = x ∨ r = y) ∧
    if max then ¬ pickBelow (decodeVal f r) v ∧ ¬ pickBelow (decodeVal f r) w
    else ¬ pickBelow v (decodeVal f r) ∧ ¬ pickBelow w (decodeVal f r))

/-- A rule for a result of two operands, which holds for each 16-bit half under PK (R382). -/
def halvesRule (pk : Bool) (p : Nat → Nat → Nat → Prop) (a b r : Nat) : Prop :=
  if pk then p (a % 65536) (b % 65536) (r % 65536) ∧ p (a / 65536) (b / 65536) (r / 65536) ∧ r < 2 ^ 32 else p a b r

/-- The divisions and roots (R383, R385). -/
def floatDivision (h : Sched) (o : GOps) (m : ModF) : List (Instr × Nat × (FVal → FVal → FVal → FVal × FpFlags)) :=
  [(.fdiv h o m, 2, fun a b _ => fpDiv a b), (.fsqrt h o m, 1, fun a _ _ => fpSqrt a)]

/-- The approximations (R386). -/
def floatApprox (h : Sched) (o : GOps) (m : ModF) : List (Instr × ApproxFn) :=
  [(.frcp h o m, .rcp), (.frsq h o m, .rsq), (.fexp2 h o m, .exp2), (.flog2 h o m, .log2), (.fsin h o m, .sin),
   (.fcos h o m, .cos), (.ftanh h o m, .tanh)]

/-- One rounding of an exact result, with FTZI on the operands and SAT and FTZO on the result (R383). -/
def roundedOnce (m : ModF) (x : FVal → FVal → FVal → FVal × FpFlags) (a b c : Nat) : Nat × FpFlags :=
  let v (k : Nat) : FVal := decodeVal m.ty.fmt (flushIn m.ty.fmt m.ftzi k)
  ((finish m.ty.fmt m.rm m.sat m.ftzo (x (v a) (v b) (v c)).1).1,
   (finish m.ty.fmt m.rm m.sat m.ftzo (x (v a) (v b) (v c)).1).2 ||| (x (v a) (v b) (v c)).2)

/-- A function of codes applied to the operands as PK tells: to each 16-bit half, or to the whole (R382). -/
def perHalf (pk : Bool) (g : Nat → Nat → Nat → Nat × FpFlags) (a b c : Nat) : Nat × FpFlags :=
  if pk then
    ((g (a % 65536) (b % 65536) (c % 65536)).1 + 65536 * (g (a / 65536) (b / 65536) (c / 65536)).1,
     (g (a % 65536) (b % 65536) (c % 65536)).2 ||| (g (a / 65536) (b / 65536) (c / 65536)).2)
  else g a b c

/-- What lane `l` gives with `g` from the operands of a layout F word. -/
def floatLane (s : State) (f : Focus) (h : Sched) (o : GOps) (m : ModF) (g : Nat → Nat → Nat → Nat × FpFlags) (l : Nat) :
    Nat × FpFlags :=
  let c := issueCtx s f h
  let ty : RdTy := if m.pk then .pk m.ty.fmt else .fp m.ty.fmt
  perHalf m.pk g (c.rd 0 ty o.a l) (c.rd 1 ty o.b l) (c.rd 2 ty o.c l)

/-! ### Commands of the Trailhead protocol (R88 to R93) -/

/-- The machine as an accepted command finds it: its datagram has left the port, its SEQ is in its function's window, and it is in
progress (R90). -/
def State.served (s : State) (d : Datagram) : State :=
  State.setFunc { s with rx := s.rx.tail } d.func ((s.func d.func).accept d)

/-- A sealed command with its header in order, under the key of its function, outside recovery (R88, R89, R104). -/
def State.genuine (s : State) (d : Datagram) : Prop :=
  d.magic = 0x7A11 ∧ d.ver = 1 ∧ d.func < 64 ∧ d.flags % 8 = 0 ∧ d.claim = d.len ∧ d.len ≤ 8192 ∧ d.status = 0 ∧
  s.base.recovery = false ∧ (s.func d.func).key ≠ none ∧ d.key = (s.func d.func).key

/-- The oldest datagram carries the command `i` and is accepted: the Ethernet link is up, the header genuine, a SEQ that is fresh in
its window, fewer than 32 commands in progress, and a sender that the table lists (R88 to R92). A key that waits (R102) waits for
another command. -/
structure Accepted (s : State) (d : Datagram) (i : Instr) : Prop where
  oldest : s.rx.head? = some d
  command : d.command = i
  link : s.base.ethDown = false
  genuine : s.genuine d
  fresh : (s.func d.func).arrival d.seq = .fresh
  room : (s.func d.func).busy.length < 32
  sender : senderOf d.opc ≠ .none ∧ s.maySend d.func d.opc = true
  alone : ∀ b ∈ (s.func d.func).busy, b.1 ≠ d.seq
  settled : (s.func d.func).newKey = none ∨ (s.func d.func).busy ≠ []

/-- `t` is `u` with the command of `d` answered: the response is sent, is kept among the last 64, and the command is no
longer in progress (R90, R93). -/
structure Answered (u t : State) (d : Datagram) (st : Status) (payload : List Byte) : Prop where
  machine : t = { u.send (.reply d.func d.ip d.udp d.seq st.num payload) with funcs := t.funcs }
  func : t.func d.func =
    { u.func d.func with
      busy := (u.func d.func).busy.filter fun b => b.1 != d.seq
      cache := ((u.func d.func).cache ++ [(d.seq, st.num, payload)]).drop ((u.func d.func).cache.length - 63) }
  others : ∀ f, f ≠ d.func → t.func f = u.func f

/-- The event `i` answers a next state: the machine `u` with the command of `d` answered. -/
def Completes (s : State) (i : Instr) (u : State) (d : Datagram) (st : Status) (payload : List Byte := []) : Prop :=
  ∃ t, exec i s = .next t ∧ Answered u t d st payload

/-- A PCONFIG item of partition `p`, in one of the states that the item is listed for (R94, R120). -/
structure ItemComes (s : State) (d : Datagram) (i : Instr) (p : Nat) (sts : ItemStates) : Prop where
  accepted : Accepted s d i
  part : d.arg 0 1 = p ∧ p < 32
  state : sts.takes (s.part p).st = true
  zeros : d.zeros [(2, 2)] = true

/-- The graph that a command of partition `p` names (R94, R95). -/
structure GraphNamed (s : State) (d : Datagram) (p : Nat) (g : Graph) : Prop where
  sender : (s.func d.func).part = some p
  graph : s.graph (d.arg 0 4) = some g
  owner : g.part = p

/-- The handle that GALLOC gives: the first from the next one on that is not 0 and names no graph. -/
def State.handleFrom (s : State) (h : Nat) : Prop :=
  ∃ k, k ≤ s.graphs.length + 1 ∧ h = (s.nextHandle + k) % 2 ^ 32 ∧ h ≠ 0 ∧ s.graph h = none ∧
    ∀ j, j < k → (s.nextHandle + j) % 2 ^ 32 = 0 ∨ s.graph ((s.nextHandle + j) % 2 ^ 32) ≠ none

/-! ### Yilbel ports (chapter 02) -/

/-- Only one port differs, and it is as given. -/
def PortOnly (s t : State) (n : Nat) (p : Port) : Prop :=
  t = { s with ports := t.ports } ∧ ∀ k, t.port k = if k = n then p else s.port k

/-- Function 0's queue has, after what it held, a module event with a code whose detail begins with the given bytes; later events
may follow it (R99, R100). -/
def Reports (s t : State) (code : Nat) (detail : List Byte) : Prop :=
  (s.func 0).events.length < 4096 →
    ∃ rest more, (t.func 0).events = (s.func 0).events ++
      ((s.func 0).evseq + 1, eventBytes 5 0xFFFF ((s.func 0).evseq + 1) s.stamp (leBytes 4 code ++ (detail ++ rest))) :: more

/-- No port has a message or a control message that has not left. -/
def State.portsQuiet (s : State) : Prop := ∀ y ∈ s.ports, y.2.waiting = [] ∧ y.2.ctl = []

/-- A port after a control message is to leave, where nothing else waits: it has left under the link key, or it waits (R57, R59). -/
def Port.sends (p : Port) (c : Ctl) : Port :=
  if p.canPost c then { p.emit 0 (.ctl c) with ctl := [] } else { p with ctl := [c] }

/-- A port has entered FAULT: no lane is up, no message waits on it or is kept there, and no request is outstanding; its keys and
memory are as before (R44, R64, R75). -/
def PortFaulted (s t : State) (n : Nat) : Prop :=
  (t.port n).st = .fault ∧ (t.port n).lanes = 0 ∧ (t.port n).training = none ∧ (t.port n).waiting = [] ∧ (∀ f ∈ (t.port n).replay, f.msgs = []) ∧
  (t.port n).txKeys = (s.port n).txKeys ∧ (t.port n).rxKeys = (s.port n).rxKeys ∧ (∀ r ∈ t.netReqs, r.port ≠ n) ∧ t.mem = s.mem

/-- A tagged message has been given to a port with its check values: it waits there, or is in a flit that has left and is kept
(R51, R54, R58). -/
def Port.has (p : Port) (tag : Nat) (m : Msg) : Prop :=
  (tag, m.checked) ∈ p.waiting ∨ ∃ f ∈ p.replay, f.ttag = tag ∧ ∃ ms, f.load = .msgs ms ∧ m.checked ∈ ms

/-- The oldest message received is `m`, on port `n` under tag `t`. -/
def MsgComes (s : State) (n t : Nat) (m : Msg) (chan opc : Nat) : Prop := s.inbox.head? = some (n, t, m) ∧ m.chan = chan ∧ m.opc = opc

/-! ### Operations that perform (chapters 08 and 13) -/

/-- An operation with one access made, and the value it read. -/
def PipeOp.made (o : PipeOp) (i v : Nat) : PipeOp :=
  { o with accs := o.accs.mapIdx fun j a => if j = i then { a with done := true, val := v } else a }

/-- An event selects one access of an operation that nothing stands against: no earlier access that it must follow, its place within
reach, its line held as it needs, and no failing sector that it would read (R36, R135, R240, R264). -/
structure OneAccess (s : State) (o : PipeOp) (i : Nat) (a : LaneAcc) (sel : LaneAcc → Bool) : Prop where
  op : s.pipe.find? (fun x => x.id == o.id) = some o
  acc : o.accs[i]? = some a ∧ a.done = false
  only : ∀ j b, o.accs[j]? = some b → (sel b = true ↔ j = i)
  free : s.accBlocked o i a = false
  near : s.accLost o a = false
  ready : s.accReady o a false = true
  good : match o.kind with | .load .. => s.accBad o a = none | .atomic _ => s.firstBad o a = none | _ => True

/-- The access has been made. While another access of the operation is left, the operation stays; with the last one it leaves, unless it
has performed ahead of one that it is ordered after: its destination holds the values, and its completion flag is to count down at the
end of the cycle (R209, R211, R261, R367). -/
structure AccDone (s t : State) (o : PipeOp) (i v : Nat) : Prop where
  stays : (∃ j b, j ≠ i ∧ o.accs[j]? = some b ∧ b.done = false) →
    t.pipe.find? (fun x => x.id == o.id) = some (o.made i v) ∧ SameRegs (s.fib o.wg o.slot o.fib) (t.fib o.wg o.slot o.fib)
  ends : (∀ j b, j ≠ i → o.accs[j]? = some b → b.done = true) → s.dataDue o = false → s.waitsFor (.op o.id) = false →
      s.ahead o = false →
    (∀ x ∈ t.pipe, x.id ≠ o.id) ∧
    (t.fib o.wg o.slot o.fib).f = (s.fib o.wg o.slot o.fib).f ∧
    (t.fib o.wg o.slot o.fib).timers = (s.fib o.wg o.slot o.fib).timers ++ o.flag.toList.map (fun n => (s.now (s.wg o.wg).die, n)) ∧
    (∀ d, o.dst = some (.v d) → ∀ k l, l < 16 → (t.fib o.wg o.slot o.fib).vAt k l =
      if d.val ≤ k ∧ k < d.val + o.regs ∧ laneIn o.lanes l = true then
        BitVec.ofNat 32 ((o.made i v).valOf l / 2 ^ (32 * (k - d.val)))
      else (s.fib o.wg o.slot o.fib).vAt k l) ∧
    (∀ d, o.dst = some (.s d) → ∀ k, (t.fib o.wg o.slot o.fib).sAt k =
      if k = d.val then BitVec.ofNat 64 ((o.made i v).valOf (lowestLane o.lanes)) else (s.fib o.wg o.slot o.fib).sAt k) ∧
    (o.dst = none → SameRegs (s.fib o.wg o.slot o.fib) (t.fib o.wg o.slot o.fib))

/-- Package memory holds the n low bytes of a number from an address on, and every other byte is as before. -/
def StoredAt (s t : State) (pa n x : Nat) : Prop :=
  ∀ a, Memory.byte t.mem a = if pa ≤ a ∧ a < pa + n then BitVec.ofNat 8 (x / 256 ^ (a - pa)) else Memory.byte s.mem a

/-- No access of an operation in flight waits for a line of this module. -/
def State.lineQuiet (s : State) (line : Nat) : Prop := ∀ o ∈ s.pipe, ∀ a ∈ o.accs, a.space = .global → lineOf a.pa ≠ line

end Sys2Proof.Machine
end

