-- ==== Sys2Proof/Certificates/Slice0/Obligations.lean ====
section
/-! DEFINITION. The statements for the provers: what the rules of the manual say that each instruction and event does, and the rules
of the machine as a whole. A statement about a result takes the operands' values as the issue reads them (`Ctx.rd`, R210, R349 to
R353); its hypotheses are on the state and the operands alone. -/

open Sys2Proof Sys2Proof.Machine

/-! ### Integer, logic and bit instructions (chapter 13) -/

/-- R370: each integer arithmetic instruction writes the exact result of its operands, wrapped modulo 2^n or clamped under SAT, into the
active lanes of its destination, and changes nothing else (R210, R212, R367, R368). Its words have TYPE and SAT at their places and
zeros in MOD [4:0] and in the sources that it does not read; SAT on IMULH, IMIN or IMAX is an illegal encoding. -/
def Obligations.IntegerArithmeticResult : Prop :=
  (∀ k, k < 9 → WordsOf (0x001 + k) fun w i =>
    ∃ h o m, ∃ x, (integerArithmetic h o m)[k]? = some x ∧ i = x.1 ∧ field w 0 5 = 0 ∧ m.sat = w.testBit 5 ∧
      [NType.i32, .ui32, .i64, .ui64][field w 6 3]? = some m.ty ∧ (x.2.1 < 2 → o.b = Src.zero) ∧ (x.2.1 < 3 → o.c = Src.zero)) ∧
  (∀ w, w < 2 ^ 96 → (wordOpcode w = 0x004 ∨ wordOpcode w = 0x006 ∨ wordOpcode w = 0x007) → w.testBit 5 = true → IllegalWord w) ∧
  ∀ (s : State) (f : Focus) (h : Sched) (o : GOps) (m : ModN), ∀ x ∈ integerArithmetic h o m,
    s.wordReady f h (usesOf o x.2.1 m.ty.wide m.ty.wide) →
    ∃ t val, exec x.1 s = .next t ∧ Results s t f h 4 o.d (intBits m.ty) m.ty.signed val ∧
      ∀ l ∈ activeLanes s f h,
        let v (k : Nat) (y : Src) : Int := intOf (intBits m.ty) m.ty.signed ((issueCtx s f h).rd k (.int (intBits m.ty)) y l)
        arithRule (intBits m.ty) m.ty.signed m.sat (x.2.2 (v 0 o.a) (v 1 o.b) (v 2 o.c)) (val l)

/-- R371, R372: each logic, shift and bit instruction writes the result whose every bit its table row gives, with the shift count b mod
n, and POPC, CLZ and CTZ the count that the row names; nothing else changes, and an S register takes a 32-bit result extended by
TYPE (R367). Their words have zeros in SAT, in MOD [4:0] and in the sources that they do not read. -/
def Obligations.IntegerLogicAndBitResult : Prop :=
  (∀ k, k < 10 → WordsOf (0x010 + k) fun w i =>
    ∃ h o m, ∃ x, (integerLogic (intBits m.ty) h o m)[k]? = some x ∧ i = x.1 ∧ field w 0 6 = 0 ∧ m.sat = false ∧
      [NType.i32, .ui32, .i64, .ui64][field w 6 3]? = some m.ty ∧ (x.2.1 < 2 → o.b = Src.zero) ∧ o.c = Src.zero) ∧
  (∀ k, k < 7 → WordsOf (0x020 + k) fun w i =>
    ∃ h o m, field w 0 6 = 0 ∧ m.sat = false ∧ [NType.i32, .ui32, .i64, .ui64][field w 6 3]? = some m.ty ∧
      (k < 3 → o.b = Src.zero ∧ o.c = Src.zero ∧ ∃ x, (integerCounts (intBits m.ty) h o m)[k]? = some x ∧ i = x.1) ∧
      (3 ≤ k → ∃ x, (integerFields (intBits m.ty) h o m)[k - 3]? = some x ∧ i = x.1 ∧ (x.2.1 < 2 → o.b = Src.zero) ∧
        (x.2.1 < 3 → o.c = Src.zero))) ∧
  ∀ (s : State) (f : Focus) (h : Sched) (o : GOps) (m : ModN),
    let n := intBits m.ty
    let v (l k : Nat) (y : Src) : Nat := (issueCtx s f h).rd k (.int n) y l
    let gives (i : Instr) (k : Nat) (p : Nat → Nat → Prop) : Prop :=
      s.wordReady f h (usesOf o k m.ty.wide m.ty.wide) →
      ∃ t val, exec i s = .next t ∧ Results s t f h 4 o.d n m.ty.signed val ∧ ∀ l ∈ activeLanes s f h, p l (val l)
    (∀ x ∈ integerLogic n h o m, gives x.1 x.2.1 fun l r => bitsRule n (x.2.2 (v l 0 o.a) (v l 1 o.b)) r) ∧
    (∀ x ∈ integerFields n h o m, gives x.1 x.2.1 fun l r => bitsRule n (x.2.2 (v l 0 o.a) (v l 1 o.b) (v l 2 o.c)) r) ∧
    ∀ x ∈ integerCounts n h o m, gives x.1 1 fun l r => x.2 (v l 0 o.a) r

/-! ### Compare, select, move (chapter 13) -/

/-- R374, and R373, R375 and R376 in part: a compare gives the truth of its condition, combined with its predicate source, as a predicate bit or a mask of 32
bits; SEL chooses by its predicate, and its words have D in MOD [0], zeros above it and a predicate in SRCC; MOV and MOVI move; RDSP
gives a launch value.
Clauses beyond the rules' words follow the model's choices of log entries 16 and 17. -/
def Obligations.CompareSelectMoveResult : Prop :=
  (WordsOf 0x042 fun w i => ∃ h o dw, i = .sel h o dw ∧ dw = w.testBit 0 ∧ field w 1 8 = 0 ∧ ∃ n, o.c = ⟨.p n, .none⟩) ∧
  (∀ (s : State) (f : Focus) (h : Sched) (o : GOps) (m : ModIcmp), s.wordReady f h (usesOf o 2 false m.ty.wide) →
    ∃ t val, exec (.icmp h o m) s = .next t ∧ Results s t f h 4 o.d 32 false val ∧
      ∀ l ∈ activeLanes s f h,
        let w := if m.ty.wide then 64 else 32
        let v (k : Nat) (y : Src) : Int := intOf w m.ty.signed ((issueCtx s f h).rd k (.int w) y l)
        val l = truthIn o.d (combine m.comb (intCmp m.cc (v 0 o.a) (v 1 o.b)) ((issueCtx s f h).rdPred o.c l))) ∧
  (∀ (s : State) (f : Focus) (h : Sched) (o : GOps) (m : ModFcmp), s.wordReady f h (usesOf o 2 false m.ty.wide) →
    ∃ t val, exec (.fcmp h o m) s = .next t ∧ Results s t f h 4 o.d 32 false val ∧
      ∀ l ∈ activeLanes s f h,
        let v (k : Nat) (y : Src) : FVal :=
          decodeVal m.ty.fmt (flushIn m.ty.fmt m.ftzi ((issueCtx s f h).rd k (.fp m.ty.fmt) y l))
        val l = truthIn o.d (combine m.comb (fpCmp m.cc (v 0 o.a) (v 1 o.b)) ((issueCtx s f h).rdPred o.c l))) ∧
  (∀ (s : State) (f : Focus) (h : Sched) (o : GOps) (dw : Bool), s.wordReady f h (usesOf o 2 dw dw) →
    ∃ t val, exec (.sel h o dw) s = .next t ∧ Results s t f h 4 o.d (if dw then 64 else 32) false val ∧
      ∀ l ∈ activeLanes s f h, val l =
        (if (issueCtx s f h).rdPred o.c l then (issueCtx s f h).rd 0 (.int (if dw then 64 else 32)) o.a l
         else (issueCtx s f h).rd 1 (.int (if dw then 64 else 32)) o.b l)) ∧
  (∀ (s : State) (f : Focus) (h : Sched) (o : GOps) (dw : Bool), s.wordReady f h (usesOf o 1 dw dw) →
    let w := if dw || Operand.isS o.d then 64 else 32
    ∃ t val, exec (.mov h o dw) s = .next t ∧ Results s t f h 4 o.d w false val ∧
      ∀ l ∈ activeLanes s f h, val l = (issueCtx s f h).rd 0 (.int w) o.a l) ∧
  (∀ (s : State) (f : Focus) (h : Sched) (o : IOps) (m : MoviMode), s.wordReady f h { writes := [(o.d, regsOf (m != .zx))] } →
    ∃ t val, exec (.movi h o m) s = .next t ∧
      Results s t f h 4 o.d (if m != .zx || Operand.isS o.d then 64 else 32) false val ∧
      ∀ l ∈ activeLanes s f h, val l =
        match m with
        | .zx => o.imm.toNat
        | .sx => (o.imm.signExtend 64).toNat
        | .hi => (issueCtx s f h).rd 0 (.int 32) ⟨o.d, .none⟩ l + 2 ^ 32 * o.imm.toNat) ∧
  (∀ (s : State) (f : Focus) (h : Sched) (o : GOps) (m : RdspItem), s.wordReady f h { writes := [(o.d, 1)] } →
    ∃ t, exec (.rdsp h o m) s = .next t ∧ Results s t f h 4 o.d 32 false fun _ => (issueCtx s f h).launchItem m)

/-! ### Lane operations (chapter 13) -/

/-- R377, R379, and R378 and R380 in part: LPERM takes each lane's value from the lane that b[3:0] names; VOTE gives ANY, ALL, BALLOT or UNI over the active
lanes; ISCAN gives the scan of the active lanes up to each lane; LRED the reduction over the active lanes. The words of LPERM and ISCAN have their fields at their
places. -/
def Obligations.LaneOperationResult : Prop :=
  (WordsOf 0x050 fun w i => ∃ h o dw, i = .lperm h o dw ∧ dw = w.testBit 0 ∧ field w 1 8 = 0 ∧ (∃ n, o.a = ⟨.v n, .none⟩) ∧ o.c = Src.zero) ∧
  (WordsOf 0x052 fun w i => ∃ h o m, i = .iscan h o m ∧ [NType.i32, .ui32, .i64, .ui64][field w 6 3]? = some m.ty ∧
    [ScanOp.add, .min, .max, .and, .or, .xor][field w 3 3]? = some m.op ∧ m.excl = w.testBit 2 ∧ field w 0 2 = 0 ∧
    (∃ n, o.d = .v n) ∧ o.b = Src.zero ∧ o.c = Src.zero) ∧
  (∀ n : Nat, n = 32 ∨ n = 64 → ∀ a b : Nat, a < 2 ^ n → b < 2 ^ n → ∀ sg,
    scanStep .add n sg a b = (a + b) % 2 ^ n ∧ scanStep .and n sg a b = a &&& b ∧ scanStep .or n sg a b = a ||| b ∧
    scanStep .xor n sg a b = a ^^^ b ∧ intOf n sg (scanStep .min n sg a b) = min (intOf n sg a) (intOf n sg b) ∧
    intOf n sg (scanStep .max n sg a b) = max (intOf n sg a) (intOf n sg b) ∧
    scanUnit .add n sg = 0 ∧ scanUnit .or n sg = 0 ∧ scanUnit .xor n sg = 0 ∧ scanUnit .and n sg = 2 ^ n - 1 ∧
    intOf n sg (scanUnit .min n sg) = intMax n sg ∧ intOf n sg (scanUnit .max n sg) = intMin n sg) ∧
  (∀ (s : State) (f : Focus) (h : Sched) (o : GOps) (dw : Bool),
    s.wordReady f h { ops := [(o.a.op, regsOf dw), (o.b.op, 1)], reads := [o.a, o.b], writes := [(o.d, regsOf dw)] } →
    ∃ t val, exec (.lperm h o dw) s = .next t ∧ Results s t f h 4 o.d (if dw then 64 else 32) false val ∧
      ∀ l ∈ activeLanes s f h, val l =
        (issueCtx s f h).rdAt 0 (.int (if dw then 64 else 32)) o.a l ((issueCtx s f h).rd 1 (.int 32) o.b l % 16)) ∧
  (∀ (s : State) (f : Focus) (h : Sched) (o : GOps) (m : ModVote), s.wordReady f h (usesOf o 1 false m.d) →
    ∃ t val, exec (.vote h o m) s = .next t ∧ Results s t f h 4 o.d 32 false val ∧
      ∀ l ∈ activeLanes s f h,
        let bit (q : Nat) : Bool := (issueCtx s f h).rdPredAt o.a l q
        let v (q : Nat) : Nat := (issueCtx s f h).rdAt 0 (.int (if m.d then 64 else 32)) o.a l q
        match m.mode with
        | .any => val l = if ∃ q ∈ activeLanes s f h, bit q = true then 1 else 0
        | .all => val l = if ∀ q ∈ activeLanes s f h, bit q = true then 1 else 0
        | .ballot => val l < 2 ^ 16 ∧ ∀ q, (val l).testBit q = true ↔ q ∈ activeLanes s f h ∧ bit q = true
        | .uni => val l = if ∀ q ∈ activeLanes s f h, ∀ r ∈ activeLanes s f h, v q = v r then 1 else 0) ∧
  (∀ (s : State) (f : Focus) (h : Sched) (o : GOps) (m : ModScan), s.wordReady f h (usesOf o 1 m.ty.wide m.ty.wide) →
    let w := if m.ty.wide then 64 else 32
    ∃ t val, exec (.iscan h o m) s = .next t ∧ Results s t f h 4 o.d w m.ty.signed val ∧
      ∀ l ∈ activeLanes s f h, val l =
        (((activeLanes s f h).filter fun k => decide (if m.excl then k < l else k ≤ l)).map
          ((issueCtx s f h).rdAt 0 (.int w) o.a l)).foldl (scanStep m.op w m.ty.signed) (scanUnit m.op w m.ty.signed)) ∧
  (∀ (s : State) (f : Focus) (h : Sched) (o : GOps) (m : ModLred),
    s.wordReady f h (usesOf o 1 (lredType m.ty).wide (lredType m.ty).wide) →
    let w := if (lredType m.ty).wide then 64 else 32
    let ty : RdTy := if m.ty == .f32 then .fp .fp32 else .int w
    let val (l : Nat) : Nat × FpFlags := lredValue m ((activeLanes s f h).map ((issueCtx s f h).rdAt 0 ty o.a l))
    ∃ t, exec (.lred h o m) s = .next t ∧
      Results s t f h 4 o.d w (lredType m.ty).signed (fun l => (val l).1) (val (issueCtx s f h).lane0).2)

/-! ### Affine registers and predicates (chapter 13) -/

/-- R381: the affine instructions give their A destination a base and a stride, once for the whole register, and AEXP gives the value
base + lane * stride. Their words have A registers where the rule reads a register, uniform sources elsewhere, and zeros in MOD5 and
MOD but for AEXP's D. -/
def Obligations.AffineRegisterResult : Prop :=
  (let isA (x : Src) : Prop := ∃ n, x = ⟨.a n, .none⟩
   let uniform (x : Src) : Prop := x.perm = .none ∧ ((∃ n, x.op = .s n) ∨ (∃ k, x.op = .imm k) ∨ ∃ k, x.op = .sp k ∧ k ≠ .laneId)
   (WordsOf 0x058 fun w i => ∃ h o n, i = .aset h o ∧ o.d = .a n ∧ uniform o.a ∧ field w 0 5 = 0) ∧
   (WordsOf 0x059 fun w i => ∃ h o n, i = .aadd h o ∧ o.d = .a n ∧ isA o.a ∧ isA o.b ∧ o.c = Src.zero ∧ field w 0 9 = 0) ∧
   (WordsOf 0x05A fun w i => ∃ h o n, i = .ascl h o ∧ o.d = .a n ∧ isA o.a ∧ field w 0 5 = 0) ∧
   (WordsOf 0x05B fun w i => ∃ h o n, i = .aoff h o ∧ o.d = .a n ∧ isA o.a ∧ uniform o.b ∧ o.c = Src.zero ∧ field w 0 9 = 0) ∧
   WordsOf 0x05C fun w i => ∃ h o dw n, i = .aexp h o dw ∧ o.d = .v n ∧ isA o.a ∧ o.b = Src.zero ∧ o.c = Src.zero ∧ dw = w.testBit 0 ∧
     field w 1 8 = 0) ∧
  ∀ (s : State) (f : Focus) (h : Sched),
    let c := issueCtx s f h
    let reg (x : Src) : Affine := match x.op with | .a n => c.readA c.lane0 n | _ => {}
    let writes (i : Instr) (n : Fin 16) (x : Affine) : Prop :=
      ∃ t, exec i s = .next t ∧ IssuedOnly s t f h ∧ (t.fibOf f).status = (s.fibOf f).status ∧
        (t.fibOf f).v = (s.fibOf f).v ∧ (t.fibOf f).s = (s.fibOf f).s ∧ (t.fibOf f).p = (s.fibOf f).p ∧
        ∀ k, (t.fibOf f).aAt k = if k = n.val ∧ h.nwb = false then x else (s.fibOf f).aAt k
    (∀ (o : IOps) (n : Fin 16), o.d = .a n → s.wordReady f h { ops := [(o.a.op, 2)], reads := [o.a], writes := [(o.d, 1)] } →
      writes (.aset h o) n ⟨BitVec.ofNat 64 (c.rd 0 (.int 64) o.a c.lane0), o.imm⟩) ∧
    (∀ (o : GOps) (n : Fin 16), o.d = .a n → s.wordReady f h { writes := [(o.d, 1)] } →
      writes (.aadd h o) n ⟨(reg o.a).base + (reg o.b).base, (reg o.a).stride + (reg o.b).stride⟩) ∧
    (∀ (o : IOps) (n : Fin 16), o.d = .a n → s.wordReady f h { writes := [(o.d, 1)] } →
      writes (.ascl h o) n ⟨(reg o.a).base * o.imm.signExtend 64, (reg o.a).stride * o.imm⟩) ∧
    (∀ (o : GOps) (n : Fin 16), o.d = .a n → s.wordReady f h { ops := [(o.b.op, 2)], reads := [o.b], writes := [(o.d, 1)] } →
      writes (.aoff h o) n ⟨(reg o.a).base + BitVec.ofNat 64 (c.rd 1 (.int 64) o.b c.lane0), (reg o.a).stride⟩) ∧
    (∀ (o : GOps) (dw : Bool) (n : Fin 16), o.a = ⟨.a n, .none⟩ → s.wordReady f h { writes := [(o.d, regsOf dw)] } →
      ∃ t val, exec (.aexp h o dw) s = .next t ∧ Results s t f h 4 o.d (if dw then 64 else 32) false val ∧
        ∀ l ∈ activeLanes s f h, (val l : Int) =
          ((c.readA l n).base.toNat + (l : Int) * (c.readA l n).stride.toInt) % 2 ^ (if dw then 64 else 32))

/-- R393: PSET gives each active lane the truth of a non-zero value, or under MASK its own bit of the value; PLOG the logic of its
predicates; PCNT the number of active lanes whose bit is set. Their words have the fields of the rule and zeros elsewhere; PSET.MASK
with a V source is an illegal encoding. -/
def Obligations.PredicateResult : Prop :=
  (let isP (x : Src) : Prop := ∃ n, x = ⟨.p n, .none⟩
   let destP (d : Operand) : Prop := ∃ n, d = .p n ∧ n.val < 7
   (WordsOf 0x060 fun w i => ∃ h o m, i = .pset h o m ∧ m.mask = w.testBit 0 ∧ m.d = w.testBit 1 ∧ field w 2 7 = 0 ∧ destP o.d ∧
     (m.mask = true → ∀ n, o.a.op ≠ .v n) ∧ o.b = Src.zero ∧ o.c = Src.zero) ∧
   (WordsOf 0x061 fun w i => ∃ h o m, i = .plog h o m ∧ [PlogOp.and, .or, .xor, .andn, .not, .mov][field w 0 3]? = some m ∧
     field w 3 6 = 0 ∧ destP o.d ∧ isP o.a ∧ (if m = .not ∨ m = .mov then o.b = Src.zero else isP o.b) ∧ o.c = Src.zero) ∧
   (WordsOf 0x062 fun w i => ∃ h o, i = .pcnt h o ∧ field w 0 9 = 0 ∧ ((∃ n, o.d = .v n) ∨ ∃ n, o.d = .s n) ∧ isP o.a ∧ o.b = Src.zero ∧
     o.c = Src.zero) ∧
   ∀ w, w < 2 ^ 96 → wordOpcode w = 0x060 → w.testBit 0 = true → field w 49 2 = 0 → IllegalWord w) ∧
  ∀ (s : State) (f : Focus) (h : Sched) (o : GOps),
    (∀ m : ModPset, s.wordReady f h (usesOf o 1 false m.d) →
      ∃ t val, exec (.pset h o m) s = .next t ∧ Results s t f h 4 o.d 1 false val ∧
        ∀ l ∈ activeLanes s f h,
          let a := (issueCtx s f h).rd 0 (.int (if m.d then 64 else 32)) o.a l
          (val l = 1 ↔ if m.mask then a.testBit l = true else a ≠ 0) ∧ (val l = 0 ∨ val l = 1)) ∧
    (∀ m : PlogOp, s.wordReady f h { writes := [(o.d, 1)] } →
      ∃ t val, exec (.plog h o m) s = .next t ∧ Results s t f h 4 o.d 1 false val ∧
        ∀ l ∈ activeLanes s f h,
          let q := (issueCtx s f h).rdPred o.a l
          let r := (issueCtx s f h).rdPred o.b l
          val l = Bool.toNat (match m with
            | .and => q && r | .or => q || r | .xor => q != r | .andn => q && !r | .not => !q | .mov => q)) ∧
    (s.wordReady f h { writes := [(o.d, 1)] } →
      ∃ t val, exec (.pcnt h o) s = .next t ∧ Results s t f h 4 o.d 32 false val ∧
        ∀ l ∈ activeLanes s f h,
          val l = ((activeLanes s f h).filter fun q => (issueCtx s f h).rdPredAt o.a l q).length)

/-! ### Floating point (chapter 13) -/

/-- R384, and R382, R383, R386 to R388 as the model computes them: each arithmetic instruction rounds its exact result once; FMIN and
FMAX return the smaller or larger operand by the rule, with no status bit; the approximations are those that log entry 7 names; FFRC,
FRND and FCLASS give fraction, integer and class. Status bits are those of the active lanes.
Clauses beyond the rules' words follow the model's choices of log entries 7 and 74. -/
def Obligations.FloatingPointResult : Prop :=
  ∀ (s : State) (f : Focus) (h : Sched) (o : GOps) (m : ModF),
    let lat := if m.ty.wide then 8 else 4
    let gives (i : Instr) (n : Nat) (g : Nat → Nat → Nat → Nat × FpFlags) : Prop :=
      s.wordReady f h (usesOf o n m.ty.wide m.ty.wide) →
      ∃ t, exec i s = .next t ∧
        Results s t f h lat o.d m.ty.fmt.width false (fun l => (floatLane s f h o m g l).1)
          (resultFlags s f h o.d (floatLane s f h o m g))
    (∀ x ∈ floatArithmetic h o m, gives x.1 x.2.1 (roundedOnce m x.2.2)) ∧
    (∀ x ∈ [(Instr.fmin h o m, false), (.fmax h o m, true)], s.wordReady f h (usesOf o 2 m.ty.wide m.ty.wide) →
      ∃ t val, exec x.1 s = .next t ∧ Results s t f h lat o.d m.ty.fmt.width false val ∧
        ∀ l ∈ activeLanes s f h,
          let ty : RdTy := if m.pk then .pk m.ty.fmt else .fp m.ty.fmt
          halvesRule m.pk (pickRule m.ty.fmt x.2 (m.ftzi || m.ftzo)) ((issueCtx s f h).rd 0 ty o.a l) ((issueCtx s f h).rd 1 ty o.b l)
            (val l)) ∧
    (∀ x ∈ floatApprox h o m, gives x.1 1 (fun a _ _ => approx x.2 m.ty.fmt m.sat m.ftzi m.ftzo a)) ∧
    gives (.ffrc h o m) 1 (fun a _ _ => fpFrc m.ty.fmt m.rm m.ftzo (decodeVal m.ty.fmt (flushIn m.ty.fmt m.ftzi a))) ∧
    gives (.frnd h o m) 1 (fun a _ _ => (fpRnd m.ty.fmt m.rm (decodeVal m.ty.fmt (flushIn m.ty.fmt m.ftzi a)), 0)) ∧
    (s.wordReady f h (usesOf o 1 false m.ty.wide) →
      ∃ t, exec (.fclass h o m) s = .next t ∧
        Results s t f h 4 o.d 32 false fun l =>
          fpClass m.ty.fmt (flushIn m.ty.fmt m.ftzi ((issueCtx s f h).rd 0 (.fp m.ty.fmt) o.a l)))

/-- R385, R209, R211: FDIV and FSQRT fix their correctly rounded results at issue and carry them, with their status bits, in an
operation that has not performed; no register changes yet. -/
def Obligations.DivisionFixedAtIssue : Prop :=
  ∀ (s : State) (f : Focus) (h : Sched) (o : GOps) (m : ModF), ∀ x ∈ floatDivision h o m,
    s.wordReady f h (usesOf o x.2.1 m.ty.wide m.ty.wide) →
    ∃ t op, exec x.1 s = .next t ∧ EntersPipe s t f h op ∧
      op.id = s.nextId ∧ op.wg = f.wg ∧ op.slot = f.slot ∧ op.fib = f.fib ∧ op.dst = some o.d ∧ op.flag = h.setf ∧
      op.regs = (if m.ty.wide then 2 else 1) ∧
      op.kind = .divide (resultFlags s f h o.d (floatLane s f h o m (roundedOnce m x.2.2))) ∧
      op.accs.map (fun a => (a.lane, a.val, a.done)) =
        (if Operand.isS o.d then [(issueCtx s f h).lane0] else activeLanes s f h).map
          fun l => (l, (floatLane s f h o m (roundedOnce m x.2.2) l).1, true)

/-- R303, R304: rounding a non-zero number to a format gives the code of the nearest value, of two equally near ones the even, or the
next value in the mode's direction, and a zero keeps the sign; it overflows only where every code of that sign lies nearer to zero,
and the code is then the one that R304 names. -/
def Obligations.RoundingResult : Prop :=
  ∀ (f : Fmt) (mode : Rm) (n : Bool) (m : Nat) (e lo : Int), 0 < m → lo ≤ e → lo ≤ f.gridMin →
    let x := alignTo n m e lo
    let r := roundVal f mode false false (.fin n m e)
    let codes (p : Int → Prop) : Prop := ∀ w, w < 2 ^ f.width → ∀ k c q, decodeVal f w = .fin k c q → p (alignTo k c q lo)
    (r.2 = 0 →
      r.1 < 2 ^ f.width ∧ ∃ k c q, decodeVal f r.1 = .fin k c q ∧ f.gridMin ≤ q ∧ (c = 0 → f.isInt = false → k = n) ∧
        let y := alignTo k c q lo
        match mode with
        | .rne => codes fun z => (y - x).natAbs ≤ (z - x).natAbs ∧
            ((y - x).natAbs = (z - x).natAbs → z ≠ y → if f = .tern then r.1 = 1 else r.1 % 2 = 0)
        | .rtz => y.natAbs ≤ x.natAbs ∧ codes fun z => 0 ≤ z * x → z.natAbs ≤ x.natAbs → z.natAbs ≤ y.natAbs
        | .rdn => y ≤ x ∧ codes fun z => z ≤ x → z ≤ y
        | .rup => x ≤ y ∧ codes fun z => x ≤ z → y ≤ z) ∧
    (r.2 ≠ 0 → r.2 = fpOF ∧ (codes fun z => 0 ≤ z * x → z.natAbs < x.natAbs) ∧
      r.1 = match f with
        | .bf16 | .fp16 | .fp32 | .fp64 | .e5m2 =>
          if mode = .rtz ∨ (mode = .rdn ∧ n = false) ∨ (mode = .rup ∧ n = true) then f.maxCode n else f.infCode n
        | .e4m3 => f.canonNan
        | _ => f.maxCode n)

/-! ### Conversions (chapter 13) -/

/-- R389 to R392: CVT converts between types; its narrow form, QNT and DQNT go through a format slot that names a narrow format, with
the block scale where the slot has one; FPSTAT takes the bits of the lanes that count.
Clauses beyond the rules' words follow the model's choices of log entry 74. -/
def Obligations.ConversionResult : Prop :=
  ∀ (s : State) (f : Focus) (h : Sched) (o : GOps),
    let c := issueCtx s f h
    let slot (j : Nat) : FmtSlot := (s.wg f.wg).fmtSlot j
    let gives (i : Instr) (u : Uses) (lat bits : Nat) (signed : Bool) (val : Nat → Nat × FpFlags) : Prop :=
      s.wordReady f h u →
      ∃ t, exec i s = .next t ∧
        Results s t f h lat o.d bits signed (fun l => (val l).1) (resultFlags s f h o.d val)
    (∀ m : ModCvt, gives (.cvt h o m) (usesOf o 1 m.dty.wide m.sty.wide) (if m.dty = CvtTy.f64 then 8 else 4) (cvtBits m.dty)
      (m.dty == CvtTy.i32) fun l => cvtWide m (c.rd 0 (cvtRead m.sty) o.a l)) ∧
    (∀ (m : ModCvt) (k : BitVec 8) (g : Fmt), o.b.op = .imm k →
      let fs := slot (k.toNat - 1)
      let srcs := if fs.bsz then [o.a, o.c] else [o.a]
      narrowSlot fs = some g → fs.dith = false → (fs.bsz = true ∨ o.c = Src.zero) →
      (∀ l ∈ activeLanes s f h, (narrowCode fs g (c.rd 0 (.int 32) o.a l)).isSome = true) →
      gives (.cvtNarrow h o m)
        { ops := srcs.map fun x => (x.op, 1), reads := srcs, writes := [(o.d, regsOf m.dty.wide)] }
        (if m.dty = CvtTy.f64 then 8 else 4) (cvtBits m.dty) false fun l =>
          let code := (narrowCode fs g (c.rd 0 (.int 32) o.a l)).getD (0, 0)
          let r := roundVal (cvtFmt m.dty) m.rm (m.sat || fs.sat) false
            (blockScale fs.bsz (c.rd 2 (.int 32) o.c l) (decodeVal g code.1))
          (r.1, r.2 ||| code.2)) ∧
    (∀ (m : ModQnt) (g : Fmt),
      let fs := slot m.fs.val
      narrowSlot fs = some g → (fs.bsz = true ∨ o.c = Src.zero) →
      gives (.qnt h o m)
        { ops := [(o.a.op, regsOf m.ty.wide), (o.b.op, 2)] ++ (if fs.bsz then [(o.c.op, 1)] else [])
          reads := if fs.bsz then [o.a, o.b, o.c] else [o.a, o.b], writes := [(o.d, 1)] }
        4 32 false fun l =>
          let ij := c.rd 1 (.int 64) o.b l
          let rc := mapCoords fs fs.row0 fs.col0 false (ij / 2 ^ 32) (ij % 2 ^ 32)
          quantise fs g m.rm m.fa rc.1 rc.2
            (blockUnscale fs.bsz (c.rd 2 (.int 32) o.c l) (decodeVal m.ty.fmt (c.rd 0 (.fp m.ty.fmt) o.a l)))) ∧
    (∀ (m : ModQnt) (g : Fmt),
      let fs := slot m.fs.val
      narrowSlot fs = some g → (fs.bsz = true ∨ o.c = Src.zero) →
      (∀ l ∈ activeLanes s f h, (narrowCode fs g (c.rd 0 (.int 32) o.a l)).isSome = true) →
      gives (.dqnt h o m)
        { ops := [(o.a.op, 1), (o.b.op, 2)] ++ (if fs.bsz then [(o.c.op, 1)] else [])
          reads := if fs.bsz then [o.a, o.b, o.c] else [o.a, o.b], writes := [(o.d, regsOf m.ty.wide)] }
        (if m.ty.wide then 8 else 4) m.ty.fmt.width false fun l =>
          let code := (narrowCode fs g (c.rd 0 (.int 32) o.a l)).getD (0, 0)
          let ij := c.rd 1 (.int 64) o.b l
          let rc := mapCoords fs fs.row0 fs.col0 false (ij / 2 ^ 32) (ij % 2 ^ 32)
          let x := recon g (dither256 fs rc.1 rc.2) fs.dith (flushIn g m.fa code.1)
          let r := roundVal m.ty.fmt m.rm fs.sat m.fb (blockScale fs.bsz (c.rd 2 (.int 32) o.c l) x)
          (r.1, r.2 ||| code.2))

/-! ### Control flow (chapters 11 to 13) -/

/-- R398, and R394 to R396 in part: a branch whose active lanes' targets are legal moves those lanes there and the other lanes of its set to the
next word; CALL and CALLX write the next word's address as a link. NOP, whose words are zero outside the scheduling fields, changes
nothing. -/
def Obligations.BranchAndCallEffect : Prop :=
  (WordsOf 0x0C7 fun w i => (∃ h o, i = .nop h o) ∧ field w 0 61 = 0) ∧
  ∀ (s : State) (f : Focus) (h : Sched),
    let c := issueCtx s f h
    (∀ o : BOps, let target (_ : Nat) : Int := branchTarget f.pc o.off
      s.issues f h → (∀ l ∈ activeLanes s f h, c.landing false l (target l) = .ok) →
      ∃ t, exec (.bra h o) s = .next t ∧ JumpedOnly s t f h (fun l => wrap 64 (target l)) ∧ SameRegs (s.fibOf f) (t.fibOf f)) ∧
    (∀ o : GOps, let target (l : Nat) : Nat := c.rd 0 (.int 64) o.a l
      s.wordReady f h { ops := [(o.a.op, 2)], reads := [o.a] } →
      (∀ l ∈ activeLanes s f h, c.landing true l (target l : Nat) = .ok) →
      (∃ t, exec (.brx h o) s = .next t ∧ JumpedOnly s t f h target ∧ SameRegs (s.fibOf f) (t.fibOf f)) ∧
      ∃ t, exec (.ret h o) s = .next t ∧ JumpedOnly s t f h target ∧ SameRegs (s.fibOf f) (t.fibOf f)) ∧
    (∀ o : BOps, let target (_ : Nat) : Int := branchTarget f.pc o.off
      s.wordReady f h { writes := [(o.d, 2)] } → (∀ l ∈ activeLanes s f h, c.landing false l (target l) = .ok) →
      ∃ t, exec (.call h o) s = .next t ∧ JumpedOnly s t f h (fun l => wrap 64 (target l)) ∧
        ResultIn h c.act o.d 2 (BitVec.ofNat 64 (nextPc f.pc)) (fun _ => nextPc f.pc) (s.fibOf f) (t.fibOf f)) ∧
    (∀ o : GOps, let target (l : Nat) : Nat := c.rd 0 (.int 64) o.a l
      s.wordReady f h { ops := [(o.a.op, 2)], reads := [o.a], writes := [(o.d, 2)] } →
      (∀ l ∈ activeLanes s f h, c.landing true l (target l : Nat) = .ok) →
      ∃ t, exec (.callx h o) s = .next t ∧ JumpedOnly s t f h target ∧
        ResultIn h c.act o.d 2 (BitVec.ofNat 64 (nextPc f.pc)) (fun _ => nextPc f.pc) (s.fibOf f) (t.fibOf f)) ∧
    ∀ o : GOps, s.issues f h →
      ∃ t, exec (.nop h o) s = .next t ∧ IssuedOnly s t f h ∧ SameRegs (s.fibOf f) (t.fibOf f) ∧
        (t.fibOf f).status = (s.fibOf f).status

/-- R219, R220, R396, R397: EXIT ends its active lanes, and the fibre with its last live lane, and the workgroup with its last
fibre; WAYPT makes itself the restart point with its live-in counts, where they are within the fibre's allotments.
Clauses beyond the rules' words follow the model's choices of log entries 39 and 75. -/
def Obligations.ExitAndWaypointEffect : Prop :=
  ∀ (s : State) (f : Focus) (h : Sched),
    let left : Lanes := (s.fibOf f).live &&& ~~~(issueCtx s f h).act
    (∀ o : GOps, s.issues f h → s.inPlace f →
      (left ≠ 0 →
        ∃ t, exec (.exit h o) s = .next t ∧ SameMachine s t ∧ SameButFibre s t f ∧ (t.fibOf f).live = left ∧
          (t.fibOf f).st = .current ∧ SameRegs (s.fibOf f) (t.fibOf f)) ∧
      (left = 0 →
        (∀ k j, k < (s.wg f.wg).launch.slots → j < (s.slot f.wg k).count → (k, j) ≠ (f.slot, f.fib) →
          (s.fib f.wg k j).st = .exited) →
        (∀ op ∈ s.pipe, op.wg ≠ f.wg) →
        ∃ t, exec (.exit h o) s = .next t ∧ Tab.get none t.wgs f.wg = none ∧ (∀ w, w ≠ f.wg → t.wg w = s.wg w) ∧
          t.mem = s.mem) ∧
      (left = 0 →
        (∃ k j, k < (s.wg f.wg).launch.slots ∧ j < (s.slot f.wg k).count ∧ (k, j) ≠ (f.slot, f.fib) ∧
          (s.fib f.wg k j).st = .waiting) →
        ∃ t, exec (.exit h o) s = .next t ∧ (t.fibOf f).st = .exited ∧ (t.fibOf f).exitPc = f.pc ∧
          (t.slot f.wg f.slot).current = none ∧ t.mem = s.mem)) ∧
    ∀ o : IOps, s.issues f h → f.lanes = (s.fibOf f).live →
      let nv := o.imm.toNat % 256
      let ns := o.imm.toNat / 2 ^ 8 % 256
      let nw := o.imm.toNat / 2 ^ 16 % 256
      let nt := o.imm.toNat / 2 ^ 24
      let role := (s.wg f.wg).role (s.fibOf f).role
      nv ≤ 8 * role.vregs → ns ≤ 128 → nw ≤ role.wreg → nt ≤ (s.wg f.wg).launch.tiles →
      ∃ t, exec (.waypt h o) s = .next t ∧ SameMachine s t ∧ SameButFibre s t f ∧ SameRegs (s.fibOf f) (t.fibOf f) ∧
        (t.fibOf f).restart = f.pc ∧ (t.fibOf f).livein = ⟨nv, ns, nw, nt⟩ ∧ (t.fibOf f).arrival = none ∧ GoesOn s t f h

/-! ### Loads, stores, cache operations (chapter 14) -/

/-- R400 to R405: a load, store or cache operation whose lanes' addresses are aligned and placed enters the memory pipe with one
access per active lane, with the data that a store captured; registers and memory do not change at issue.
Clauses beyond the rules' words follow the model's choices of log entry 20. -/
def Obligations.MemoryOperationEntersPipe : Prop :=
  ∀ (s : State) (f : Focus) (h : Sched) (o : MOps) (m : ModM),
    let c := issueCtx s f h
    let e := sizeBytes m.size
    let n := WF.regs m.size
    let addr (l : Nat) : Nat := c.addrOf o e false l
    let addrL (l : Nat) : Nat := c.addrOf o e true l
    let data (a : LaneAcc) : LaneAcc := { a with data := c.rdRegs 1 o.b n a.lane % 256 ^ e }
    (∀ acc, s.wordReady f h (memUses o false none (some n)) → EachLane s f h ⟨{ rd := true }, e, true, false, reachLoad⟩ addr acc →
      ∃ t, exec (.ld h o m) s = .next t ∧
        EntersPipe s t f h (c.pipeOp h (.load e m.sx) ((activeLanes s f h).map acc) (some o.d) n m.qual m.scope)) ∧
    (∀ acc, s.wordReady f h (memUses o false none (some 1)) → addr c.lane0 % e = 0 →
      c.lanePlace ⟨{ rd := true }, e, true, false, reachLoad⟩ c.lane0 (addr c.lane0) = .acc acc →
      ∃ t, exec (.lds h o m) s = .next t ∧
        EntersPipe s t f h (c.pipeOp h (.load e m.sx) [acc] (some o.d) 1 m.qual m.scope)) ∧
    (s.wordReady f h (memUses o true none (some n)) → EachLocal s f h e addrL →
      ∃ t, exec (.ldL h o m) s = .next t ∧
        EntersPipe s t f h (c.pipeOp h (.load e m.sx) (localAccesses s f h addrL) (some o.d) n)) ∧
    (∀ acc, s.wordReady f h (memUses o false (some n) none) → EachLane s f h ⟨{ w := true }, e, true, false, reachStore⟩ addr acc →
      hitsWindow ((activeLanes s f h).map acc) = false →
      ∃ t, exec (.st h o m) s = .next t ∧
        EntersPipe s t f h (c.pipeOp h (.store e) ((activeLanes s f h).map fun l => data (acc l)) none 1 m.qual m.scope)) ∧
    (∀ acc l, s.wordReady f h (memUses o false (some n) none) → s.closeReady f h {} l →
      EachLane s f h ⟨{ w := true }, e, true, false, reachStore⟩ addr acc →
      hitsWindow ((activeLanes s f h).map acc) = true →
      ∃ t, exec (.st h o m) s = .next t ∧
        EntersPipe s t f h
          (c.pipeOp h (.store e) ((activeLanes s f h).map fun l => data (acc l)) none 1 m.qual m.scope (some l))) ∧
    (s.wordReady f h (memUses o true (some n) none) → EachLocal s f h e addrL →
      ∃ t, exec (.stL h o m) s = .next t ∧
        EntersPipe s t f h (c.pipeOp h (.store e) ((localAccesses s f h addrL).map data))) ∧
    (∀ acc, s.wordReady f h (memUses o false none none) →
      EachLane s f h ⟨{ rd := true }, e, false, true, reachPrefetch⟩ addr acc →
      ∃ t, exec (.cpf h o m) s = .next t ∧
        EntersPipe s t f h { c.pipeOp h .fetchAhead ((activeLanes s f h).map acc) with flag := none }) ∧
    ∀ acc, s.wordReady f h (memUses o false none none) →
      EachLane s f h ⟨{ rd := true }, e, false, false, reachClean⟩ addr acc →
      (∃ t, exec (.cwb h o m) s = .next t ∧ EntersPipe s t f h (c.pipeOp h .writeBack ((activeLanes s f h).map acc))) ∧
      ∃ t, exec (.cinv h o m) s = .next t ∧ EntersPipe s t f h (c.pipeOp h .invalidate ((activeLanes s f h).map acc))

/-- R406 to R411, R425: atomics, accumulates, FACCCLR and STB close their regions and enter the memory pipe with the lanes'
accesses and captured data; FACCRD enters it without closing. Nothing in memory changes at issue.
Clauses beyond the rules' words follow the model's choices of log entry 20. -/
def Obligations.AtomicAndAccumulateEnterPipe : Prop :=
  ∀ (s : State) (f : Focus) (h : Sched) (o : MOps),
    let c := issueCtx s f h
    let addr (e l : Nat) : Nat := c.addrOf o e false l
    let whole : Need := { rd := true, w := true, a := true }
    (∀ (m : ModAtom) acc l, let e := if m.d then 8 else 4
      s.closeReady f h (memUses o false (some (atomRegs m)) (if m.nr then none else some (regsOf m.d))) l →
      EachLane s f h ⟨whole, e, true, false, reachAtomic⟩ (addr e) acc →
      ∃ t, exec (.atom h o m) s = .next t ∧
        EntersPipe s t f h
          { c.pipeOp h (.atomic m)
              ((activeLanes s f h).map fun k =>
                { acc k with data := (c.atomData o m (acc k).lane).1, data2 := (c.atomData o m (acc k).lane).2 })
              (if m.nr then none else some o.d) (regsOf m.d) with closing := some l }) ∧
    (∀ (m : ModAtom) l, let e := if m.d then 8 else 4
      let addrL (k : Nat) : Nat := c.addrOf o e true k
      s.closeReady f h (memUses o true (some (atomRegs m)) (if m.nr then none else some (regsOf m.d))) l →
      EachLocal s f h e addrL →
      ∃ t, exec (.atomL h o m) s = .next t ∧
        EntersPipe s t f h
          { c.pipeOp h (.atomic m)
              ((localAccesses s f h addrL).map fun a =>
                { a with data := (c.atomData o m a.lane).1, data2 := (c.atomData o m a.lane).2 })
              (if m.nr then none else some o.d) (regsOf m.d) with closing := some l }) ∧
    (∀ (m : ModFacc) acc l,
      s.closeReady f h (memUses o false (some (regsOf (m.ty == .f64))) none) l →
      EachLane s f h ⟨whole, m.ty.bytes, true, false, reachAtomic⟩ (addr m.ty.bytes) acc →
      ∃ t, exec (.facc h o m) s = .next t ∧
        EntersPipe s t f h
          { c.pipeOp h (.accum m.ty)
              (pairAccs m.ty ((activeLanes s f h).map fun k => { acc k with data := c.faccData o m (acc k).lane })) with
            closing := some l }) ∧
    (∀ (m : ModFaccrd) acc, s.wordReady f h (memUses o false none (some 1)) →
      EachLane s f h ⟨{ rd := true }, m.ty.bytes, true, false, reachAtomic⟩ (addr m.ty.bytes) acc →
      ∃ t, exec (.faccrd h o m) s = .next t ∧
        EntersPipe s t f h (c.pipeOp h (.accRead m.ty m.ent.val) ((activeLanes s f h).map acc) (some o.d))) ∧
    (∀ (m : AccTy) acc l, s.closeReady f h (memUses o false none none) l →
      EachLane s f h ⟨whole, m.bytes, true, false, reachAtomic⟩ (addr m.bytes) acc →
      ∃ t, exec (.faccclr h o m) s = .next t ∧
        EntersPipe s t f h
          { c.pipeOp h (.accClear m) (pairAccs m ((activeLanes s f h).map acc)) with closing := some l }) ∧
    ∀ (m : MSize) acc l, let e := sizeBytes m
      s.closeReady f h (memUses o false (some (WF.regs m)) none) l →
      EachLane s f h ⟨{ w := true }, e, true, false, reachStb⟩ (addr e) acc →
      (∀ k ∈ activeLanes s f h, ∃ b, Tab.get none s.bwins ((acc k).pa / 2 ^ 40) = some b ∧ b.writer = (s.wg f.wg).die) →
      s.stbSectors (s.wg f.wg).die none + (accSectors ((activeLanes s f h).map acc)).length ≤ 256 →
      ∃ t op, exec (.stb h o m) s = .next t ∧ EntersPipe s t f h op ∧ op.id = s.nextId ∧ op.closing = some l ∧
        op.accs = ((activeLanes s f h).map fun k => { acc k with data := c.rdRegs 1 o.b (WF.regs m) (acc k).lane % 256 ^ e }) ∧
        ∃ fr, op.kind = .stb e fr ∧ s.sendFrom (s.wg f.wg).die ≤ fr

/-! ### Fences, barriers, window registers (chapters 09 and 14) -/

/-- R412 to R418: a fence that issues does nothing more; BAR.INIT sets the expected count; BAR.ARV arrives and closes its region;
BAR.WAIT goes on when the phase that the fibre recorded is over and else blocks.
Clauses beyond the rules' words follow the model's choices of log entries 83 and 86. -/
def Obligations.FenceAndBarrierEffect : Prop :=
  ∀ (s : State) (f : Focus) (h : Sched) (o : GOps),
    let n := barOf o.a
    let b := (s.wg f.wg).bar n
    (∀ m : ModFence, s.issues f h → ∃ t, exec (.fence h o m) s = .next t ∧ IssuedOnly s t f h ∧ SameRegs (s.fibOf f) (t.fibOf f)) ∧
    (∀ m : BitVec 4, s.issues f h → ∃ t, exec (.qfence h o m) s = .next t ∧ IssuedOnly s t f h ∧ SameRegs (s.fibOf f) (t.fibOf f)) ∧
    (s.wordReady f h { ops := [(o.b.op, 1)], reads := [o.b] } →
      let x := (issueCtx s f h).rd 1 (.int 32) o.b (issueCtx s f h).lane0 % 4096
      let e := if x = 0 then 4096 else x
      ∃ t, exec (.barInit h o) s = .next t ∧ SyncFrame s t f ∧ SameWindows s t f ∧ GoesOn s t f h ∧
        (∀ k, k ≠ n → (t.wg f.wg).bar k = (s.wg f.wg).bar k) ∧
        (b.expected ≠ 0 → b.arrived ≠ 0 → (t.wg f.wg).bar n = { b with pending := some e }) ∧
        (b.expected = 0 ∨ b.arrived = 0 → b.arrived < e → (t.wg f.wg).bar n = { b with expected := e })) ∧
    (∀ (m : Scope) (l : LiveIn), s.closeReady f h {} l →
      ∃ t, exec (.barArv h o m) s = .next t ∧ SyncFrame s t f ∧ SameWindows s t f ∧ GoesOn s t f h ∧ RegionClosed t f l ∧
        (t.wg f.wg).bar n = arrivedBar b ∧ (∀ k, k ≠ n → (t.wg f.wg).bar k = (s.wg f.wg).bar k) ∧
        (n < 16 → (t.fibOf f).recPhase.getLsbD n = b.phase)) ∧
    ∀ m : Scope, s.issues f h →
      (b.phase ≠ (s.fibOf f).recPhase.getLsbD n →
        ∃ t, exec (.barWait h o m) s = .next t ∧ IssuedOnly s t f h ∧ SameRegs (s.fibOf f) (t.fibOf f)) ∧
      (b.phase = (s.fibOf f).recPhase.getLsbD n → (s.slot f.wg f.slot).current = some f.fib →
        ∃ t, exec (.barWait h o m) s = .next t ∧ BlockedOn s t f (.barrier n) ∧ SyncFrame s t f ∧ SameBars s t f)

/-- R218, R225, R416, R418: BAR.SYNC and FBAR arrive once; the arrival that completes the barrier goes on and closes its region, any
other blocks the fibre, which goes on once the barrier has completed.
Clauses beyond the rules' words follow the model's choices of log entry 80. -/
def Obligations.BarrierWaitEffect : Prop :=
  ∀ (s : State) (f : Focus) (h : Sched) (o : GOps), s.issues f h → s.inPlace f →
    let n := barOf o.a
    let b := (s.wg f.wg).bar n
    (∀ (m : Scope) (l : LiveIn), n < 16 → (s.fibOf f).arrival = none → s.closeReady f h {} l →
      ∃ t, exec (.barSync h o m) s = .next t ∧ SyncFrame s t f ∧ SameWindows s t f ∧ (t.wg f.wg).bar n = arrivedBar b ∧
        ((arrivedBar b).phase ≠ b.phase → GoesOn s t f h ∧ RegionClosed t f l) ∧
        ((arrivedBar b).phase = b.phase → BlockedOn s t f (.barrier n) ∧ (t.fibOf f).arrival = some ⟨0, false, l⟩)) ∧
    (∀ (m : Scope) (a : Arrival), (s.fibOf f).arrival = some a → b.phase ≠ (s.fibOf f).recPhase.getLsbD n →
      ∃ t, exec (.barSync h o m) s = .next t ∧ SyncFrame s t f ∧ SameWindows s t f ∧ SameBars s t f ∧ GoesOn s t f h ∧
        RegionClosed t f a.live) ∧
    (∀ (m : BitVec 4) (l : LiveIn), m.getLsbD f.fib = true → (∀ k, m.getLsbD k = true → k < (s.slot f.wg f.slot).count) →
      (s.fibOf f).arrival = none → s.closeReady f h {} l →
      ∃ t, exec (.fbar h o m) s = .next t ∧ SyncFrame s t f ∧ SameWindows s t f ∧ SameBars s t f ∧
        ((∀ k, m.getLsbD k = true → k ≠ f.fib → (s.fib f.wg f.slot k).waitsAt m = true) →
          GoesOn s t f h ∧ RegionClosed t f l ∧
          ∀ k, m.getLsbD k = true → k ≠ f.fib → (t.fib f.wg f.slot k).waitsAt m = false) ∧
        ((∃ k, m.getLsbD k = true ∧ k ≠ f.fib ∧ (s.fib f.wg f.slot k).waitsAt m = false) →
          BlockedOn s t f (.fbar m) ∧ (t.fibOf f).arrival = some ⟨m, false, l⟩)) ∧
    ∀ (m : BitVec 4) (a : Arrival), m.getLsbD f.fib = true → (∀ k, m.getLsbD k = true → k < (s.slot f.wg f.slot).count) →
      (s.fibOf f).arrival = some a → a.finished = true →
      ∃ t, exec (.fbar h o m) s = .next t ∧ SyncFrame s t f ∧ SameWindows s t f ∧ SameBars s t f ∧ GoesOn s t f h ∧
        RegionClosed t f a.live

/-- R216, R217, R419: WPUT writes an empty window register and fills it; WTAKE reads a full one and empties it; WPEEK reads it and
leaves it full; WCLR empties it; other window registers stand. -/
def Obligations.WindowRegisterEffect : Prop :=
  ∀ (s : State) (f : Focus) (h : Sched) (o : GOps) (n : Fin 64),
    let c := issueCtx s f h
    let sl := s.slot f.wg f.slot
    (∀ l, o.d = .w n → s.closeReady f h { ops := [(o.d, 1), (o.a.op, 1)], reads := [o.a] } l → sl.full n.val = false →
      ∃ t, exec (.wput h o) s = .next t ∧ SyncFrame s t f ∧ SameBars s t f ∧ GoesOn s t f h ∧ RegionClosed t f l ∧
        (t.slot f.wg f.slot).full n.val = true ∧ (∀ k, k ≠ n.val → (t.slot f.wg f.slot).full k = sl.full k) ∧
        ∀ k q, q < 16 → (t.slot f.wg f.slot).wAt k q =
          if k = n.val ∧ laneIn c.act q = true then BitVec.ofNat 32 (c.rd 0 (.int 32) o.a q) else sl.wAt k q) ∧
    (∀ l p, o.a = ⟨.w n, p⟩ → s.closeReady f h { ops := [(o.a.op, 1)], reads := [o.a], writes := [(o.d, 1)] } l →
      ∃ t, exec (.wtake h o) s = .next t ∧ SameMachine s t ∧ SameBars s t f ∧ GoesOn s t f h ∧ RegionClosed t f l ∧
        ResultIn h c.act o.d 1 (extendS false 32 (sl.wAt n.val (permLane p c.lane0)).toNat)
          (fun q => (sl.wAt n.val (permLane p q)).toNat) (s.fibOf f) (t.fibOf f) ∧
        (t.slot f.wg f.slot).win = sl.win ∧ (t.slot f.wg f.slot).full n.val = false ∧
        ∀ k, k ≠ n.val → (t.slot f.wg f.slot).full k = sl.full k) ∧
    (∀ p, o.a = ⟨.w n, p⟩ → s.wordReady f h (usesOf o 1 false false) →
      ∃ t, exec (.wpeek h o) s = .next t ∧ Results s t f h 4 o.d 32 false (fun q => (sl.wAt n.val (permLane p q)).toNat) ∧
        SameWindows s t f) ∧
    ∀ l, o.a.op = .w n → s.closeReady f h { ops := [(o.a.op, 1)] } l →
      ∃ t, exec (.wclr h o) s = .next t ∧ SyncFrame s t f ∧ SameBars s t f ∧ GoesOn s t f h ∧ RegionClosed t f l ∧
        (t.slot f.wg f.slot).win = sl.win ∧ (t.slot f.wg f.slot).full n.val = false ∧
        ∀ k, k ≠ n.val → (t.slot f.wg f.slot).full k = sl.full k

/-! ### The copy engine, tiles, the matrix engine (chapter 15) -/

/-- R420 to R424: ACP, TLD, TLD.SLIDE and TST capture their operands in a command of the copy queue, whose tile becomes busy; with a
signal they close their region; TLD and TLD.SLIDE with FM enter the following MMA into the matrix queue as well.
Clauses beyond the rules' words follow the model's choices of log entries 79 and 81. -/
def Obligations.CopyCommandEntersQueue : Prop :=
  ∀ (s : State) (f : Focus) (h : Sched),
    let c := issueCtx s f h
    (s.core (s.wg f.wg).lcore).copyQ.length < 64 →
    (∀ (o : MOps) (m : ModAcp) (cl : Option LiveIn),
      let e := acpBytes m.sz
      let src (l : Nat) : Nat := c.rd 1 (.int (if m.ls then 32 else 64)) o.b l
      let dst (l : Nat) : Nat := c.addrOf o e m.ld l
      let bytes := (s.wg f.wg).launch.localBytes
      s.entryReady f h { ops := [(o.a.op, regsOf !m.ld), (o.b.op, regsOf !m.ls)], reads := [o.a, o.b] } (acpSignal m) cl →
      (∀ l ∈ activeLanes s f h, dst l % e = 0 ∧ src l % e = 0 ∧
        (if m.ld then dst l + e ≤ bytes else c.hostCopy l (dst l) e = .ok) ∧
        if m.ls then src l + e ≤ bytes else c.hostCopy l (src l) e = .ok) →
      ∃ t, exec (.acp h o m) s = .next t ∧
        EntersQueue s t f h false
          (c.command h (.acp e m.ld m.ls ((activeLanes s f h).map fun l => (l, src l, dst l))) (acpSignal m) cl)) ∧
    ∀ (o : XOps) (m : ModTld) (cl : Option LiveIn),
      let a := c.rd 0 (.int (if m.ls then 32 else 64)) o.a c.lane0
      let d := tileDesc (c.rd 1 (.int 64) o.b c.lane0)
      let w := c.rd 1 (.int 64) (nextS o.b 1) c.lane0
      let sig := c.signalOf o.c.op
      let load : CmdKind := .tld (tileOf o.d) m.ls a d.rowb d.rows d.pitch
      let slide : CmdKind :=
        .slide (tileOf o.d) m.ls a d.rowb d.rows d.pitch (w / 2 ^ 48 % 2 ^ 16) (w / 2 ^ 40 % 2 ^ 8) (w / 2 ^ 24 % 2 ^ 16)
          (sextInt 24 w)
      let store : CmdKind := .tst (tileOf o.d) m.ls a d.rowb d.rows d.pitch
      d.rows * d.rowb ≤ 8192 →
      (m.fm = false → s.entryReady f h { ops := signalUses o.c.op, writes := [(o.d, 1)] } sig cl →
        (c.rowCheck load m.ls d a = .ok →
          ∃ t, exec (.tld h o m) s = .next t ∧ EntersQueue s t f h false (c.command h load sig cl)) ∧
        (c.rowCheck slide m.ls d a = .ok →
          ∃ t, exec (.tldSlide h o m) s = .next t ∧ EntersQueue s t f h false (c.command h slide sig cl))) ∧
      (m.fm = false → s.entryReady f h { ops := (o.d, 1) :: signalUses o.c.op } sig cl → c.rowCheck store m.ls d a = .ok →
        ∃ t, exec (.tst h o m) s = .next t ∧ EntersQueue s t f h false (c.command h store sig cl)) ∧
      ∀ (h2 : Sched) (o2 : XOps) (m2 : ModMma), m.fm = true → sig.closes = false →
        s.wordReady f h { ops := signalUses o.c.op, writes := [(o.d, 1)] } →
        (c.followOn h 0x161 = .ok (h2, o2, m2) → c.rowCheck load m.ls d a = .ok →
          ∃ t, exec (.tld h o m) s = .next t ∧
            (t.core (s.wg f.wg).lcore).copyQ = (s.core (s.wg f.wg).lcore).copyQ ++ [c.command h load sig none] ∧
            (t.core (s.wg f.wg).lcore).matQ = (s.core (s.wg f.wg).lcore).matQ ++
              [{ c.command h2 (mmaKind o2 m2) .none none with
                 id := s.nextId + 1, pc := nextPc f.pc, after := some s.nextId }] ∧
            t.mem = s.mem ∧ SameRegs (s.fibOf f) (t.fibOf f) ∧
            ∀ l, l < 16 → laneIn (f.lanes &&& (s.fibOf f).live) l = true → (t.fibOf f).pcAt l = nextPc (nextPc f.pc)) ∧
        (c.followOn h 0x162 = .ok (h2, o2, m2) → c.rowCheck slide m.ls d a = .ok →
          ∃ t, exec (.tldSlide h o m) s = .next t ∧
            (t.core (s.wg f.wg).lcore).copyQ = (s.core (s.wg f.wg).lcore).copyQ ++ [c.command h slide sig none] ∧
            (t.core (s.wg f.wg).lcore).matQ = (s.core (s.wg f.wg).lcore).matQ ++
              [{ c.command h2 (mmaKind o2 m2) .none none with
                 id := s.nextId + 1, pc := nextPc f.pc, after := some s.nextId }] ∧
            t.mem = s.mem ∧ SameRegs (s.fibOf f) (t.fibOf f) ∧
            ∀ l, l < 16 → laneIn (f.lanes &&& (s.fibOf f).live) l = true → (t.fibOf f).pcAt l = nextPc (nextPc f.pc))

/-- R430, R431, and R428, R429, R432 and R433 in part: TCFG sets a tile's origin and transpose bit, TZERO clears its bytes, TMOV copies a tile, or 64 bytes of it to or
from a V register, TXP transposes its elements; only the destination changes. TCFG's words have T, NOORG and KT in XMOD, no source
with NOORG and no T with KT. -/
def Obligations.TileInstructionEffect : Prop :=
  (WordsOf 0x180 fun w i => ∃ h o m, i = .tcfg h o m ∧ m.t = w.testBit 0 ∧ m.noorg = w.testBit 1 ∧ m.kt = w.testBit 2 ∧
    (m.kt = true → m.t = false) ∧ (∃ n, o.d = .t n) ∧ (if m.noorg then o.a = Src.zero else ∃ n, o.a = ⟨.s n, .none⟩) ∧ o.b = Src.zero ∧
    o.c = Src.zero) ∧
  (WordsOf 0x181 fun w i => ∃ h o, i = .tzero h o ∧ (∃ n, o.d = .t n) ∧ field w 0 51 = 0) ∧
  ∀ (s : State) (f : Focus) (h : Sched) (o : XOps),
    let c := issueCtx s f h
    let w := s.wg f.wg
    let n := tileOf o.d
    let a := w.tile (tileOf o.a.op)
    let k := c.rd 1 (.int 64) o.b c.lane0
    let idle (j : Nat) : Prop := ∀ cmd ∈ (s.core w.lcore).copyQ, cmd.loads f.wg j = false
    ((w.tile n).busy = 0 →
      (∀ m : ModTcfg, s.wordReady f h { ops := [(o.a.op, 2)], writes := [(o.d, 1)] } →
        let x := c.rd 0 (.int 64) o.a c.lane0
        ∃ t, exec (.tcfg h o m) s = .next t ∧
          TileWritten s t f h n
            { w.tile n with
              row0 := if m.noorg then (w.tile n).row0 else BitVec.ofNat 32 (x % 2 ^ 32)
              col0 := if m.noorg then (w.tile n).col0 else BitVec.ofNat 32 (x / 2 ^ 32)
              tb := if m.kt then (w.tile n).tb else m.t }) ∧
      (s.wordReady f h { writes := [(o.d, 1)] } →
        ∃ t, exec (.tzero h o) s = .next t ∧ TileWritten s t f h n { w.tile n with data := [] }) ∧
      (s.wordReady f h { ops := [(o.a.op, 1)], writes := [(o.d, 1)] } → idle (tileOf o.a.op) →
        (∃ t, exec (.tmov h o .tt) s = .next t ∧ TileWritten s t f h n { a with busy := 0 }) ∧
        ∀ m : TxpEsz, ∃ t, exec (.txp h o m) s = .next t ∧
          TileWritten s t f h n
            { data := txpData m (o.fsa.val == 1) a.data, row0 := a.row0, col0 := a.col0, tb := !a.tb, busy := 0 }) ∧
      (s.wordReady f h { ops := [(o.a.op, 1), (o.b.op, 2)], writes := [(o.d, 1)] } → k ≤ 127 →
        ∃ t x, exec (.tmov h o .tv) s = .next t ∧ TileWritten s t f h n x ∧
          x = { w.tile n with data := x.data } ∧
          ∀ j, Memory.byte x.data j =
            if 64 * k ≤ j ∧ j < 64 * k + 64 ∧ laneIn c.act ((j - 64 * k) / 4) = true then
              BitVec.ofNat 8 (c.rd 0 (.int 32) o.a ((j - 64 * k) / 4) / 256 ^ (j % 4))
            else Memory.byte (w.tile n).data j)) ∧
    (s.wordReady f h { ops := [(o.a.op, 1), (o.b.op, 2)], writes := [(o.d, 1)] } → k ≤ 127 → idle (tileOf o.a.op) →
      ∃ t, exec (.tmov h o .vt) s = .next t ∧
        Results s t f h 4 o.d 32 false fun l => Memory.read a.data (64 * k + 4 * l) 4)

/-- R434 to R440: MMA with legal operands, MACCLD and MDRAIN enter the matrix queue with their operands captured; MACCLD and MDRAIN
with a signal close their region.
Clauses beyond the rules' words follow the model's choices of log entries 22 and 79. -/
def Obligations.MatrixCommandEntersQueue : Prop :=
  ∀ (s : State) (f : Focus) (h : Sched) (o : XOps),
    let c := issueCtx s f h
    let w := s.wg f.wg
    (∀ m : ModMma, s.issues f h → mmaLegal w o = true → c.checkNames (mmaUses w o) = .ok →
      ∃ t, exec (.mma h o m) s = .next t ∧ EntersQueue s t f h true (c.command h (mmaKind o m) .none none)) ∧
    (∀ (m : ModMaccld) (cl : Option LiveIn),
      let a := c.rd 0 (.int (if m.ls then 32 else 64)) o.a c.lane0
      let p := sextInt 32 (c.rd 1 (.int 64) o.b c.lane0)
      let e := maccldBytes m.ty
      let sig := c.signalOf o.c.op
      s.entryReady f h { ops := (o.d, regsOf (m.ty == .f64)) :: signalUses o.c.op } sig cl →
      (m.ty = .zero ∨
        a % e = 0 ∧ p % e = 0 ∧ c.reachable m.ls ((accRows m.ls a p).map fun x => (x, 32 * e)) = .ok) →
      ∃ t, exec (.maccld h o m) s = .next t ∧
        EntersQueue s t f h true (c.command h (.maccld (accOf o.d) m.ty m.ls a p) sig cl)) ∧
    ∀ (m : MdrainMode) (cl : Option LiveIn),
      let x := c.rd 1 (.int 64) o.b c.lane0
      let ls := bitAt x 63
      let a := c.rd 0 (.int (if ls then 32 else 64)) o.a c.lane0
      let side := c.rd 1 (.int (if ls then 32 else 64)) (nextS o.b 1) c.lane0
      let off := c.rd 1 (.int 64) (nextS o.b 2) c.lane0
      let p := sextInt 32 x
      let fs := w.fmtSlot o.fsa.val
      let e := if drainSlot m = true ∧ (fs.format = some .e3m2 ∨ fs.format = some .e2m3) then 32 else 4
      let sig := c.signalOf o.d
      s.entryReady f h { ops := (o.c.op, regsOf (drainWide m)) :: signalUses o.d } sig cl →
      (drainSlot m = true → fs.format.isSome = true ∧ side % 16 = 0) →
      a % e = 0 → p % e = 0 → x / 2 ^ 32 % 2 ^ 31 = 0 → c.reachable ls (drainRanges m fs ls a p side) = .ok →
      ∃ t, exec (.mdrain h o m) s = .next t ∧
        EntersQueue s t f h true
          (c.command h
            (.mdrain (accOf o.c.op) o.fsa.val m ls a p side (BitVec.ofNat 32 off) (BitVec.ofNat 32 (off / 2 ^ 32))) sig cl)

/-! ### Random numbers, the network, system instructions (chapter 15) -/

/-- R313, R441, R442: KIND gives kindle of a key and a counter, or of a slot's key and mapped coordinates; KMASK the comparison of
that value with its threshold. -/
def Obligations.KindleResult : Prop :=
  ∀ (s : State) (f : Focus) (h : Sched) (o : GOps) (m : ModKind),
    let c := issueCtx s f h
    let fs := (s.wg f.wg).fmtSlot m.fs.val
    let value (l : Nat) : Word :=
      let b := c.rd 1 (.int 64) o.b l
      if m.sl then
        let rc := mapCoords fs fs.row0 fs.col0 false (b / 2 ^ 32) (b % 2 ^ 32)
        kindle fs.key (rc.1 ++ rc.2)
      else kindle (BitVec.ofNat 64 (c.rd 0 (.int 64) o.a l)) (BitVec.ofNat 64 b)
    (m.sl = true → fs.fmt ≠ 0) →
    (s.wordReady f h (kindUses o m false) →
      ∃ t, exec (.kind h o m) s = .next t ∧ Results s t f h 4 o.d 32 false fun l => (value l).toNat) ∧
    (s.wordReady f h (kindUses o m true) →
      ∃ t, exec (.kmask h o m) s = .next t ∧
        Results s t f h 4 o.d 32 false fun l => truthIn o.d (decide ((value l).toNat < c.rd 2 (.int 32) o.c l)))

/-- R443 to R449: NPOST, NTRIG, NCOLL and NCAN close their regions and enter the memory pipe and, last, the partition's network
queue; NWAIT, once its counter has reached its value, and NRD enter the pipe to read the counter.
Clauses beyond the rules' words follow the model's choices of log entries 72 and 82. -/
def Obligations.NetworkInstructionEnters : Prop :=
  ∀ (s : State) (f : Focus) (h : Sched) (l : LiveIn),
    let c := issueCtx s f h
    (∀ (o : MOps) (m : ModNpost), m.reg = true →
      s.closeReady f h (netUses o.d [(o.b.op, 1)]) l →
      let img : List Byte := (List.range 16).flatMap fun k => leBytes 4 (c.rd 1 (.int 32) o.b k)
      (m.hnd = true → ∀ k ∈ imageHandles img, k < (s.wg f.wg).launch.nctr) →
      ∃ t, exec (.npost h o m) s = .next t ∧
        EntersNetwork s t f h (c.pipeOp h (.npost m.hnd (some img)) [] (some o.d) (closing := some l))) ∧
    (∀ (o : MOps) (m : ModNpost) acc, m.reg = false → s.closeReady f h (netUses o.d []) l →
      let va := c.addrOf o 64 false c.lane0
      va % 64 = 0 → c.lanePlace ⟨{ rd := true }, 64, true, false, reachImage⟩ c.lane0 va = .acc acc →
      ∃ t, exec (.npost h o m) s = .next t ∧
        EntersNetwork s t f h (c.pipeOp h (.npost m.hnd none) [acc] (some o.d) (closing := some l))) ∧
    (∀ (o : GOps) (set : Bool), s.closeReady f h { ops := [(o.a.op, 1)] } l →
      ∃ t, exec (.ntrig h o set) s = .next t ∧
        EntersNetwork s t f h
          (c.pipeOp h (.ntrig (c.ctrOf o.a) set (c.rd 1 (.int 64) o.b c.lane0 % 2 ^ 48)) [] (closing := some l))) ∧
    (∀ (o : MOps) (hnd : Bool) acc, s.closeReady f h (netUses o.d []) l →
      let va := c.addrOf o 128 false c.lane0
      va % 128 = 0 → c.lanePlace ⟨{ rd := true }, 128, true, false, reachImage⟩ c.lane0 va = .acc acc →
      ∃ t, exec (.ncoll h o hnd) s = .next t ∧
        EntersNetwork s t f h (c.pipeOp h (.ncoll hnd) [acc] (some o.d) (closing := some l))) ∧
    (∀ o : GOps, s.closeReady f h (netUses o.d []) l →
      ∃ t, exec (.ncan h o) s = .next t ∧
        EntersNetwork s t f h (c.pipeOp h (.ncan (c.rd 0 (.int 64) o.a c.lane0)) [] (some o.d) (closing := some l))) ∧
    (∀ (o : GOps), s.wordReady f h { ops := [(o.a.op, 1)], writes := (match sDest o.d with | some d => [(d, 1)] | none => []) } →
      let k := s.counter (s.wg f.wg).die (c.ctrOf o.a)
      (c.rd 1 (.int 64) o.b c.lane0 % 2 ^ 48 ≤ k.value.toNat ∨ k.err ≠ 0) →
      ∃ t, exec (.nwait h o) s = .next t ∧ EntersPipe s t f h (c.pipeOp h (.nrd (c.ctrOf o.a)) [] (sDest o.d))) ∧
    ∀ o : GOps, s.wordReady f h { ops := [(o.a.op, 1)], writes := [(o.d, 2)] } →
      ∃ t, exec (.nrd h o) s = .next t ∧ EntersPipe s t f h (c.pipeOp h (.nrd (c.ctrOf o.a)) [] (some o.d) 2)

/-- R453, and R306, R451 and R452 in part: RDSYS, RDPERF and CLOCK give the value of the register, counter or clock that they name;
WRSYS writes FPSTAT, of which only bits [5:0] exist. CLOCK gives CYCLES, whose low half CLOCKLO reads, or with NS the module's time,
which a record's STAMP holds; its words have an S register or a V pair, NS in MOD [0] and zeros elsewhere.
Clauses beyond the rules' words follow the model's choices of log entry 3. -/
def Obligations.SystemRegisterAccess : Prop :=
  (WordsOf 0x1D5 fun w i => ∃ h o ns, i = .clock h o ns ∧ ns = w.testBit 0 ∧ field w 1 50 = 0 ∧
    ((∃ n, o.d = .s n) ∨ ∃ n, o.d = .v n ∧ n.val % 2 = 0)) ∧
  ∀ (s : State) (f : Focus) (h : Sched),
    let c := issueCtx s f h
    let fb := s.fibOf f
    (∀ o : YOps, let wide : Bool := o.sysn = 1 ∨ o.sysn = 3 ∨ o.sysn = 4
      s.wordReady f h { writes := [(o.d, regsOf wide)] } →
      ∃ t x, exec (.rdsys h o) s = .next t ∧ Results s t f h 4 o.d (if wide then 64 else 32) false (fun _ => x) ∧
        (o.sysn = 0 → x = fb.fpstat.toNat) ∧ (o.sysn = 1 → x = fb.restart) ∧
        (o.sysn = 2 → x = fb.livein.nv + 2 ^ 8 * fb.livein.ns + 2 ^ 16 * fb.livein.nw + 2 ^ 24 * fb.livein.nt) ∧
        (o.sysn = 3 → ∀ n, n < 12 → x / 16 ^ n % 16 = fb.flagAt n % 16) ∧ (o.sysn = 4 → x = fb.issueIx.toNat) ∧
        (o.sysn = 0x10 → x = (s.part (s.wg f.wg).part).wdog) ∧
        (o.sysn = 0x11 → x = if (s.part (s.wg f.wg).part).priv then 1 else 0)) ∧
    (∀ o : YOps, s.wordReady f h { ops := [(o.a.op, 1)], reads := [o.a] } →
      ∃ t, exec (.wrsys h o) s = .next t ∧ SameMachine s t ∧ SameButFibre s t f ∧ SameRegs fb (t.fibOf f) ∧
        GoesOn s t f h ∧ (t.fibOf f).fpstat = BitVec.ofNat 32 (c.rd 0 (.int 32) o.a c.lane0 % 64)) ∧
    (∀ o : YOps, s.wordReady f h { writes := [(o.d, 2)] } →
      ∃ t, exec (.rdperf h o) s = .next t ∧ Results s t f h 4 o.d 64 false fun _ => c.perf o.sysn.toNat) ∧
    (∀ (o : GOps) (ns : Bool), s.wordReady f h { writes := [(o.d, 2)] } →
      ∃ t, exec (.clock h o ns) s = .next t ∧ Results s t f h 4 o.d 64 false fun _ =>
        if ns then s.stamp else s.cyclesOf (s.wg f.wg).lcore) ∧
    s.stamp = s.tick * 5 / 8 ∧
    (let k := s.core (s.wg f.wg).lcore
     s.cyclesOf (s.wg f.wg).lcore = (k.cyclesBase + (s.now ((s.wg f.wg).lcore / 48) - k.cycles0)) % 2 ^ 64) ∧
    ∀ l, c.rd 0 (.int 32) ⟨.sp .clockLo, .none⟩ l = s.cyclesOf (s.wg f.wg).lcore % 2 ^ 32

/-- R454 to R456, R159: in a partition with PRIV, ROLESW gives the fibre the state of another role's entry and HALT freezes the
partition and reports it; without PRIV both take ILLEGAL_OP.
Clauses beyond the rules' words follow the model's choices of log entries 36 and 102. -/
def Obligations.PrivilegedInstructionEffect : Prop :=
  ∀ (s : State) (f : Focus) (h : Sched) (o : GOps),
    let w := s.wg f.wg
    let fb := s.fibOf f
    let p := s.part w.part
    let n := (issueCtx s f h).rd 0 (.int 64) o.a (issueCtx s f h).lane0
    let r := w.role n
    s.issues f h → fb.st = .current →
    (p.priv = false →
      (∃ t, exec (.rolesw h o) s = .next t ∧ FaultTaken s t f (issueCtx s f h).act ⟨.illegalOp, 0xFF, 0, 0x1D6⟩) ∧
      ∃ t, exec (.halt h o) s = .next t ∧ FaultTaken s t f (issueCtx s f h).act ⟨.illegalOp, 0xFF, 0, 0x1D7⟩) ∧
    (p.priv = true → f.lanes = fb.live → n < w.launch.roles.length → r.vregs ≤ (w.role fb.role).vregs →
      r.wreg ≤ (w.role fb.role).wreg → 0 < w.launch.gx → 0 < w.launch.gy →
      ∃ t, exec (.rolesw h o) s = .next t ∧ SameMachine s t ∧ SameButFibre s t f ∧
        let g := t.fibOf f
        let pc := w.launch.codeBase + 64 * (r.entry.toNat / 8) + r.entry.toNat % 8
        g.role = n ∧ g.live = fb.live ∧ g.restart = pc ∧ g.livein = ⟨0, 0, 0, 0⟩ ∧
        (∀ l, l < 16 → laneIn fb.live l = true → g.pcAt l = pc) ∧
        (∀ k l, g.vAt k l = 0 ∧ g.aAt k = ⟨0, 0⟩ ∧ g.pAt k l = false) ∧
        g.sAt 0 = BitVec.ofNat 64 (w.index % w.launch.gx) ∧ g.sAt 1 = BitVec.ofNat 64 (w.index / w.launch.gx % w.launch.gy) ∧
        g.sAt 2 = BitVec.ofNat 64 (w.index / w.launch.gx / w.launch.gy) ∧ g.sAt 3 = BitVec.ofNat 64 w.gangIx ∧
        (∀ k, k < 5 → g.sAt (4 + k) = w.launch.params.getD k 0) ∧ g.sAt 9 = w.launch.paramPtr ∧ g.sAt 10 = r.rparam ∧
        ∀ k, 11 ≤ k → g.sAt k = 0) ∧
    (p.priv = true → p.frozen = false → s.base.frozen = none →
      ∃ t, exec (.halt h o) s = .next t ∧ (t.part w.part).frozen = true ∧ (t.part w.part).frozenAt = p.dies.map (fun d => (d, s.now d)) ∧ t.mem = s.mem ∧
        SameRegs fb (t.fibOf f) ∧ GoesOn s t f h ∧
        ∀ fn, p.eventFn = some fn → (s.func fn).part.isSome = true → (s.func fn).events.length < 4096 →
          (t.func fn).events = (s.func fn).events ++
            [((s.func fn).evseq + 1, eventBytes 4 w.part ((s.func fn).evseq + 1) s.stamp
              (leBytes 4 6 ++ (leBytes 2 w.vcore ++ leBytes 1 f.slot ++ leBytes 1 f.fib ++ leBytes 8 (pcForm f.pc))))])

/-- R227, R450: TRAP and BKPT stop their fibre with a fault of their own code; TRAP's DETAIL is its immediate. -/
def Obligations.TrapAndBreakpointFault : Prop :=
  ∀ (s : State) (f : Focus) (h : Sched), s.issues f h → (s.fibOf f).st = .current →
    (∀ o : IOps, ∃ t, exec (.trap h o) s = .next t ∧
      FaultTaken s t f (issueCtx s f h).act ⟨.trap, 0xFF, 0, o.imm.toNat⟩) ∧
    ∀ o : GOps, ∃ t, exec (.bkpt h o) s = .next t ∧ FaultTaken s t f (issueCtx s f h).act ⟨.bkpt, 0xFF, 0, 0⟩

/-! ### Rules of all Aelax instructions -/

/-- R14, R324: a word that issues with no active lane has no effect but its issue: its lanes move on, no completion flag counts, and
registers, memory and everything else stand.
Clauses beyond the rules' words follow the model's choices of log entry 6. -/
def Obligations.NoActiveLaneNoEffect : Prop :=
  ∀ (i : Instr) (h : Sched) (s : State) (f : Focus), i.sched = some h → s.focus = some f → s.inPlace f →
    (issueCtx s f h).act = 0 →
    ∃ t, exec i s = .next t ∧ PassedBy s t f

/-- R400, R420, R184: no Aelax instruction changes memory, accumulators, counters, posted entries, ports or other workgroups at
its issue: accesses, engine commands and network operations perform later. -/
def Obligations.IssueLeavesMemory : Prop :=
  ∀ (i : Instr) (h : Sched) (s t : State), i.sched = some h → exec i s = .next t →
    t.mem = s.mem ∧ t.accs = s.accs ∧ t.counters = s.counters ∧ t.entries = s.entries ∧ t.ports = s.ports ∧
    t.lines = s.lines ∧ t.homes = s.homes ∧ t.owner = s.owner ∧ t.tick = s.tick ∧
    ∀ f, s.focus = some f → ∀ w, w ≠ f.wg → t.wg w = s.wg w

/-- R326 steps 3, 6 and 7, R328, R352, R212, R217, R224: an integer word whose destination lies beyond the fibre's registers takes
REG_RANGE with class and index; one that reads an invalid latch takes LATCH_LOST; one that writes a declared live-in register takes
REGION_RULE.
Clauses beyond the rules' words follow the model's choices of log entry 40. -/
def Obligations.OperandChecksFault : Prop :=
  ∀ (s : State) (f : Focus) (h : Sched) (o : GOps) (m : ModN), ∀ x ∈ integerArithmetic h o m,
    s.issues f h → (s.fibOf f).st = .current →
    let c := issueCtx s f h
    let u := usesOf o x.2.1 m.ty.wide m.ty.wide
    let lim := 8 * ((s.wg f.wg).role (s.fibOf f).role).vregs
    let k := if m.ty.wide then 2 else 1
    (∀ n, o.d = .v n → lim < n.val + k →
      ∃ t, exec x.1 s = .next t ∧ FaultTaken s t f c.act ⟨.regRange, 0xFF, 0, 256 * (max n.val lim % 256)⟩) ∧
    (∀ n, o.a = ⟨.l n, .none⟩ → c.checkNames u = .ok → (Tab.get {} (s.fibOf f).latches n.val).valid = false →
      ∃ t, exec x.1 s = .next t ∧ FaultTaken s t f c.act ⟨.latchLost, 0xFF, 0, n.val⟩) ∧
    (∀ n, o.d = .s n → h.nwb = false → c.checkNames u = .ok → Guard.all u.reads c.readable = .ok → n.val < (s.fibOf f).livein.ns →
      ∃ t, exec x.1 s = .next t ∧ FaultTaken s t f c.act ⟨.regionRule, 0xFF, 0, 3⟩)

/-- R210: a read of a V register by the lane that wrote it gives the earlier value while the distance from the write is below the
write's latency, and the new value from then on. -/
def Obligations.RegisterReadDistance : Prop :=
  ∀ (c : Ctx) (fb : Fibre) (n : Fin 256) (lat : Nat) (set mask : Lanes) (val : Nat → Nat) (k l : Nat),
    laneIn mask l = true → laneIn fb.live l = true → 0 < lat → fb.hist = [] → c.s.pipe = [] →
    c.fb.hist = (fb.writeV n.val 1 lat set mask val).hist → c.fb.v = (fb.writeV n.val 1 lat set mask val).v →
    fb.clk.getD l 0 ≤ c.fb.clk.getD l 0 →
    c.readV k l n l =
      if c.fb.clk.getD l 0 - fb.clk.getD l 0 < lat then (fb.vAt n.val l).toNat else val l % 2 ^ 32

/-- R231, R232, R255 to R257: an access of an agent is placed by the TLB entry of its page, with the page's permissions and, for
global memory, the owner of the granule; an address beyond 57 bits has no page; one with bit 56 set is a host address.
Clauses beyond the rules' words follow the model's choices of log entries 21 and 75. -/
def Obligations.TranslationFollowsLeaf : Prop :=
  ∀ (s : State) (part die asid va : Nat) (n : Need),
    (2 ^ 57 ≤ va → translate s part die asid va n = .fault .pageNotPresent 0 false) ∧
    (va < 2 ^ 57 → va.testBit 56 = true → translate s part die asid va n = .ok .host va) ∧
    (va < 2 ^ 56 → ∀ e, tlbFind s die asid va = some e →
      let pa := e.leaf.base + va % 2 ^ e.bits
      (e.leaf.grants n = false → translate s part die asid va n = .fault .pagePerm 7 false) ∧
      (e.leaf.grants n = true → e.leaf.space = .global → pa < dramBytes → s.ownerOf pa = part + 1 →
        translate s part die asid va n = .ok .global pa) ∧
      (e.leaf.space = .global → (dramBytes ≤ pa ∨ s.ownerOf pa ≠ part + 1) →
        translate s part die asid va n = .fault .pagePerm 7 false) ∧
      (∀ m, e.leaf.grants n = true → e.leaf.space = .remote m → translate s part die asid va n = .ok (.remote m) pa)) ∧
    (va < 2 ^ 56 → tlbFind s die asid va = none →
      (∀ w ∈ s.walkFails, ¬ (w.die = die ∧ w.asid = asid ∧ w.page = va / 2 ^ 16)) →
      translate s part die asid va n = .miss)

/-- R227, R327: the fault record is 64 bytes, with each item at its place. -/
def Obligations.FaultRecordLayout : Prop :=
  ∀ (s : State) (w : Workgroup) (slot fib pc : Nat) (lanes : Lanes) (flags src frseq : Nat) (tr : Trap),
    let r := faultRecord s w slot fib pc lanes flags src frseq tr
    r.length = 64 ∧ leAt r 0 1 = tr.code.num ∧ leAt r 1 1 = flags % 2 ^ 8 ∧ leAt r 2 2 = w.part % 2 ^ 16 ∧
    leAt r 4 2 = w.vcore % 2 ^ 16 ∧ leAt r 6 1 = slot % 2 ^ 8 ∧ leAt r 7 1 = fib % 2 ^ 8 ∧ leAt r 8 8 = pc % 2 ^ 57 ∧
    leAt r 16 2 = lanes.toNat ∧ leAt r 18 1 = tr.lane % 2 ^ 8 ∧ leAt r 19 1 = src % 2 ^ 8 ∧ leAt r 20 4 = w.graph % 2 ^ 32 ∧
    leAt r 24 4 = w.runSeq % 2 ^ 32 ∧ leAt r 28 4 = w.node % 2 ^ 32 ∧ leAt r 32 4 = w.index % 2 ^ 32 ∧
    leAt r 36 4 = frseq % 2 ^ 32 ∧ leAt r 40 8 = tr.addr % 2 ^ 64 ∧ leAt r 48 8 = tr.detail % 2 ^ 64 ∧
    leAt r 56 8 = s.stamp % 2 ^ 64

/-! ### The encoding (chapter 12) -/

/-- R343 to R364: every well-formed Aelax instruction has a word of 96 bits, and decoding the word gives the instruction back with every
operand, modifier and scheduling field; and a word that decodes gives a well-formed instruction, whose word it is: every word has one
meaning, and no bit of it is ignored.
Clauses beyond the rules' words follow the model's choices of log entry 101. -/
def Obligations.DecodeOfEncode : Prop :=
  (∀ (i : Instr) (h : Sched), i.sched = some h → i.wellFormed = true → ∃ w, encode i = some w ∧ w < 2 ^ 96 ∧ decodeWord w = .ok i) ∧
  ∀ (w : Nat) (i : Instr), w < 2 ^ 96 → decodeWord w = .ok i → i.wellFormed = true ∧ (∃ h, i.sched = some h) ∧ encode i = some w

/-- R364: an unassigned opcode, and every other reserved encoding, is no instruction: a word that carries one raises ILLEGAL_OP with its
opcode as DETAIL when it comes to issue with an active lane, and does nothing with none; and every word of a line whose reserved bits
are not zero does the same (R342). -/
def Obligations.ReservedEncodingsFault : Prop :=
  (∀ w, w < 2 ^ 96 → ReservedWord w → (∀ i, decodeWord w ≠ .ok i) ∧ IllegalWord w) ∧
  ∀ w lw, w < 2 ^ 96 → lineReserved lw = true → IllegalIn w lw

/-- R343, R344, R348, R353 to R355: the words that the manual works out field by field decode to the instructions that it
names. -/
def Obligations.WorkedEncodingsDecode : Prop :=
  let r (x : Operand) : Src := ⟨x, .none⟩
  let z := Src.zero
  let h (dist : Fin 8) (setf : Option (Fin 12)) : Sched := ⟨false, 7, false, 0, dist, setf, false⟩
  decodeWord 0x20EC_0129_8020_0200_1100_6000 =
    .ok (.ffma ⟨true, 3, false, 0x009, 2, some 5, false⟩ ⟨.v 4, r (.v 1), ⟨.v 2, .bfly2⟩, r (.v 3)⟩ ⟨.f32, .rne, false, false, false, false⟩) ∧
  decodeWord 0x005C_0010_0862_0808_5800_0080 = .ok (.iadd (h 4 none) ⟨.s 12, r (.s 4), r (.s 11), z⟩ ⟨.i64, false⟩) ∧
  decodeWord 0x401C_000C_4003_0000_0000_0080 = .ok (.ld (h 3 (some 0)) ⟨.v 0, r (.a 0), z, 0⟩ ⟨.w, false, .none, .lane⟩) ∧
  decodeWord 0x621C_0001_510C_2410_9800_0048 =
    .ok (.mma (h 0 (some 4)) ⟨.acc 1, r (.t 2), r (.t 3), z, 1, 1⟩ ⟨false, false, false⟩) ∧
  decodeWord 0x585C_0010_108A_0A08_6000_0001 = .ok (.tld (h 4 none) ⟨.t 1, r (.s 5), r (.s 12), z, 0, 0⟩ ⟨true, false⟩) ∧
  decodeWord 0x501C_0010_0000_1000_2000_0120 = .ok (.facc (h 4 none) ⟨.v 0, r (.v 8), r (.v 4), 0⟩ ⟨.bf16x2, true⟩) ∧
  decodeWord 0x645C_0000_104A_1A0C_1021_C000 =
    .ok (.kmask (h 0 none) ⟨.p 1, r (.s 13), r (.a 2), r (.s 14)⟩ ⟨0, false⟩) ∧
  decodeWord 0x54DC_0000_0004_6400_0000_0001 = .ok (.barSync (h 0 none) ⟨.v 0, r (.b 2), z, z⟩ .core)

/-! ### The step and the reset state -/

/-- R202, R203, R205, R213, R324 to R326: a step that finds no event, in a module that runs, and offers a lane set runs the
instruction that the lane set's word decodes to, with the lane set in focus. After the picker's choice the fibre may issue the
second word of its pair, or a second lane set, in the same cycle; after that second issue it may not. A step with an event waiting
runs that event.
Clauses beyond the rules' words follow the model's choices of log entries 1 and 12. -/
def Obligations.StepRunsDecoded : Prop :=
  ∀ (s : State),
    (∀ (f : Focus) (w lw : Nat) (i : Instr), s.comes f w lw → lineReserved lw = false → decodeWord w = .ok i →
      (s.firstOffer f → step s = openAfter { s with focus := some f } (some f) (exec i { s with focus := some f })) ∧
      (s.laterOffer f → step s = exec i { s with focus := some f })) ∧
    ∀ (e : Instr) (r : List Instr), s.agenda = e :: r → s.acts e = true → step s = exec e { s with agenda := r }

/-- The memory invariant: every step that answers a next state keeps package memory, the marks of failing sectors and the dies' copies
of lines in their canonical form, in which every address has one value (R233, R235). -/
def Obligations.StepKeepsMemoryForm : Prop := ∀ s t : State, s.memWf = true → step s = .next t → t.memWf = true

/-- R40, R47, R117, R174: right after reset memory is in its canonical form and reads as zero everywhere, the module is not ready and
not frozen, every partition is free, every port is disabled, and no counter has counted.
Clauses beyond the rules' words follow the model's choices of log entries 4 and 96. -/
def Obligations.ResetState : Prop :=
  State.reset.memWf = true ∧ (∀ a, Memory.byte State.reset.mem a = 0) ∧ State.reset.base.ready = false ∧
  State.reset.base.frozen = none ∧ (∀ p, (State.reset.part p).st = .free) ∧ (∀ n, (State.reset.port n).st = .disabled) ∧
  (∀ d c, (State.reset.counter d c).value = 0) ∧ ∀ h, State.reset.graph h = none

/-! ### Commands of the Trailhead protocol (chapters 03 and 05) -/

/-- R88 to R92, R104: what becomes of an arriving datagram, whatever its command, while the Ethernet link is up; while it is down a
datagram waits (R76). A bad header is dropped, a message that fails
authentication is counted, a SEQ below the window is counted, a SEQ seen before gets its kept response or nothing, and a fresh one
beyond 32 in progress, of an unlisted opcode or of a sender that may not send it is answered BUSY, BADOP or DENIED. A fresh SEQ
enters the window, and leaves the others within it as they were.
Clauses beyond the rules' words follow the model's choices of log entries 15, 38 and 107. -/
def Obligations.DatagramAcceptance : Prop :=
  ∀ (s : State) (d : Datagram) (rest : List Datagram), s.rx = d :: rest →
    let f := s.func d.func
    let r : State := { s with rx := rest }
    let i := d.command
    let plain := d.flags.testBit 2 = true
    let header := d.magic = 0x7A11 ∧ d.ver = 1 ∧ d.func < 64 ∧ d.flags % 4 = 0 ∧ d.claim = d.len ∧ d.len ≤ 8192 ∧ d.status = 0
    let quiet := (∀ b ∈ f.busy, b.1 ≠ d.seq) ∧ (f.newKey = none ∨ f.busy ≠ [])
    let seen := 0 < d.seq ∧ d.seq ≤ f.top ∧ f.top ≤ d.seq + 64 ∧ (d.seq = f.top ∨ f.seen.getLsbD (f.top - 1 - d.seq) = true)
    (s.base.ethDown = true → exec i s = .next s) ∧
    (s.base.ethDown = false →
    (¬ header → exec i s = .next r) ∧
    (header → s.base.recovery = true → ¬ (d.func = 0 ∧ (d.opc = 1 ∨ d.opc = 2 ∨ d.opc = 3 ∨ d.opc = 0x50)) → exec i s = .next r) ∧
    (header → s.base.recovery = false → ¬ (plain ∧ (d.opc = 1 ∨ d.opc = 2)) → (plain ∨ f.key = none ∨ d.key ≠ f.key) →
      exec i s = .next { r with base := { s.base with authFails := s.base.authFails + 1 } }) ∧
    (s.genuine d → (d.seq = 0 ∨ d.seq + 64 < f.top) →
      exec i s = .next { r with base := { s.base with belowWindow := s.base.belowWindow + 1 } }) ∧
    (s.genuine d → seen → (∀ c ∈ f.cache, c.1 ≠ d.seq) → exec i s = .next r) ∧
    (s.genuine d → seen → ∀ c, f.cache.find? (fun x => x.1 == d.seq) = some c →
      exec i s = .next (r.send (.reply d.func d.ip d.udp d.seq c.2.1 c.2.2))) ∧
    (s.genuine d → f.arrival d.seq = .fresh → quiet →
      (32 ≤ f.busy.length → Completes s i (s.served d) d .busy) ∧
      (f.busy.length < 32 → senderOf d.opc = .none → Completes s i (s.served d) d .badop) ∧
      (f.busy.length < 32 → senderOf d.opc ≠ .none → s.maySend d.func d.opc = false → Completes s i (s.served d) d .denied))) ∧
    (f.arrival d.seq = .fresh →
      (f.accept d).arrival d.seq ≠ .fresh ∧ (f.accept d).top = max f.top d.seq ∧
      ∀ q, q ≠ d.seq → 0 < q → max f.top d.seq ≤ q + 64 → ((f.accept d).arrival q = .fresh ↔ f.arrival q = .fresh))

/-- R94, R103 to R107: PING answers; IDENTIFY gives identity, part number and certificates; ATTEST signs a report and uses up an index
of its tree; FWSTAGE keeps a part of an image and, with the last one, verifies it; the generation of a session tree ends. An item or
sub-operation that is not listed is answered BADARG.
Clauses beyond the rules' words follow the model's choices of log entries 13, 14, 38, 106, 108, 112, 113 and 114. -/
def Obligations.IdentityCommandResult : Prop :=
  ∀ (s : State) (d : Datagram),
    let u := s.served d
    let b := s.base
    (Accepted s d .ping → d.len = 0 → Completes s .ping u d .ok) ∧
    (Accepted s d .badop → Completes s .badop u d .badarg) ∧
    (let parts := [Config.identityKey, Config.identityCertificate, Config.intermediateKey, Config.intermediateSignature]
     let card := leBytes 8 Config.moduleIdentity.toNat ++ [0x42, 0x4C, 0x4E, 0x2D, 0x38, 0x34, 0, 0]  ++
         parts.flatMap (fun x => leBytes 2 x.length) ++ parts.flatten
     (Accepted s d .identify → d.len = 0 → Completes s .identify u d .ok card) ∧
     ∀ rest, s.rx = d :: rest → b.ethDown = false → d.magic = 0x7A11 → d.ver = 1 → d.func < 64 → d.flags % 8 = 4 → d.opc = 1 →
       d.claim = 0 → d.len = 0 → d.status = 0 → (b.recovery = false ∨ d.func = 0) →
       exec .identify s = .next (State.send { s with rx := rest } (.reply d.func d.ip d.udp d.seq 0 card))) ∧
    (Accepted s d .attest → d.len = 32 → b.sessionBusy = false → b.sessionLeft ≠ 0 →
      ∃ r : List Byte,
        r.length = 144 + 32 * b.measurements.length ∧ r.take 32 = d.payload ∧ leAt r 32 8 = Config.moduleIdentity.toNat ∧
        leAt r 40 4 = b.secVersion % 2 ^ 32 ∧ leAt r 44 2 = ((s.func d.func).part.getD 0xFFFF) % 2 ^ 16 ∧
        leAt r 46 2 = b.measurements.length % 2 ^ 16 ∧
        let sig := byteSlice (Config.signature (32768 * b.identityIx + b.sessionLeft) r) 0 attestBytes
        let next : Module :=
          if b.sessionLeft ≠ 1 then { b with sessionLeft := b.sessionLeft - 1 }
          else if b.identityLeft = 0 then { b with sessionLeft := 0, sessionBusy := false }
          else { b with identityIx := b.identityIx + 1, identityLeft := b.identityLeft - 1, sessionLeft := 0, sessionBusy := true }
        Completes s .attest { u with base := next } d .ok (r ++ leBytes 4 sig.length ++ sig)) ∧
    (Accepted s d .fwstage →
      let total := d.arg 0 4
      let off := d.arg 4 4
      let n := d.arg 8 4
      1 ≤ total → total ≤ 2 ^ 26 → off % 64 = 0 → 1 ≤ n → n ≤ 8128 → d.len = 64 + n → off + n ≤ total → d.zeros [(13, 51)] = true →
      let old : Staging := if b.staging.total = total then b.staging else { total := total }
      let kept : Staging :=
        { old with bytes := Memory.write old.bytes off (d.payload.drop 64), parts := old.parts ++ [(off, n)], verified := none }
      let img := Memory.bytes kept.bytes 0 total
      let with_ (x : Staging) : State := { u with base := { b with staging := x } }
      (d.arg 12 1 = 0 → Completes s .fwstage (with_ kept) d .ok) ∧
      (d.arg 12 1 = 1 → (∀ k, k < total → ∃ p ∈ kept.parts, p.1 ≤ k ∧ k < p.1 + p.2) →
        (b.imageOk img = true → Completes s .fwstage (with_ { kept with verified := some img }) d .ok) ∧
        (b.imageOk img = false → Completes s .fwstage (with_ {}) d .badsig)) ∧
      (d.arg 12 1 = 1 → ∀ k, k < total → (∀ p ∈ kept.parts, k < p.1 ∨ p.1 + p.2 ≤ k) → Completes s .fwstage u d .badarg)) ∧
    (b.sessionBusy = true → exec .sessionTree s = .next { s with base := { b with sessionBusy := false, sessionLeft := 32768 } })

/-- R95 to R98, R145, R156: GALLOC gives the lowest free range of the partition's share under a new handle; GLOAD writes its bytes and
no others; GSEAL seals a graph that passes every check and names the first failure of another; GFREE frees; GRUN queues a run under
the next number; GCANCEL takes back every queued run, each with a run event.
Clauses beyond the rules' words follow the model's choices of log entries 46, 64, 68 and 69. -/
def Obligations.GraphCommandResult : Prop :=
  ∀ (s : State) (d : Datagram) (p : Nat),
    let u := s.served d
    let n := d.arg 0 4
    (∀ b h, Accepted s d .galloc → d.len = 4 → n ≠ 0 → (s.func d.func).part = some p → (s.graphsOf p).length < 1024 →
      b + n ≤ (s.part p).share → ((s.graphsOf p).map fun x => x.2.units).sum + n ≤ (s.part p).share → (∀ x ∈ s.graphsOf p, rangesMeet b n x.2.base x.2.units = false) →
      (∀ a, a < b → ∃ x ∈ s.graphsOf p, rangesMeet a n x.2.base x.2.units = true) → s.handleFrom h →
      Completes s .galloc { u.setGraph h (some { part := p, base := b, units := n }) with nextHandle := (h + 1) % 2 ^ 32 } d .ok
        (leBytes 4 h)) ∧
    ∀ g, GraphNamed s d p g →
      (Accepted s d .gload → g.sealed = false →
        let k := d.arg 4 4
        let off := d.arg 8 8
        1 ≤ k → k ≤ 8128 → d.len = 64 + k → off % 64 = 0 → d.zeros [(16, 48)] = true → off + k ≤ 65536 * g.units →
        ∃ bs, Completes s .gload (u.setGraph n (some { g with bytes := bs })) d .ok ∧
          ∀ a, Memory.byte bs a =
            if off ≤ a ∧ a < off + k then d.payload.getD (64 + (a - off)) 0 else Memory.byte g.bytes a) ∧
      (Accepted s d .gseal → d.len = 4 →
        (g.sealed = true → Completes s .gseal u d .ok) ∧
        (g.sealed = false → s.sealFailure g = none → Completes s .gseal (u.setGraph n (some { g with sealed := true })) d .ok) ∧
        ∀ i o, g.sealed = false → s.sealFailure g = some (i, o) → Completes s .gseal u d .badgraph (leBytes 4 i ++ leBytes 4 o)) ∧
      (Accepted s d .gfree → d.len = 4 → g.run = none → g.queue = [] → Completes s .gfree (u.setGraph n none) d .ok) ∧
      (Accepted s d .grun → g.sealed = true → (s.part p).st ≠ .opened → g.queue.length < 16 →
        let ps := d.patches
        d.arg 12 2 ≤ 64 → d.len = 16 + 16 * d.arg 12 2 → d.zeros [(14, 2)] = true →
        (∀ k, k < d.arg 12 2 → d.zeros [(21 + 16 * k, 3)] = true) → (∀ x ∈ ps, g.patchLegal x.1 x.2.1 = true) →
        let seq := (g.lastSeq + 1) % 2 ^ 32
        let q : RunReq := { func := d.func, tag := BitVec.ofNat 64 (d.arg 4 8), seq := seq, patches := ps }
        Completes s .grun (u.setGraph n (some { g with queue := g.queue ++ [q], lastSeq := seq })) d .ok (leBytes 4 seq)) ∧
      (Accepted s d .gcancel → d.len = 4 →
        ∃ v, Completes s .gcancel v d .ok (leBytes 4 g.queue.length) ∧
          v = { u with graphs := v.graphs, funcs := v.funcs, ethOut := v.ethOut, ethWait := v.ethWait } ∧
          (∀ k, v.graph k = if k = n then some { g with queue := [] } else s.graph k) ∧
          ∀ fn, let x := s.func fn
            let mine := g.queue.filter fun q => q.func == fn
            (fn = 0 ∨ x.part ≠ none) → x.events.length + mine.length ≤ 4096 →
            (v.func fn).events = x.events ++ mine.zipIdx.map fun y =>
              (x.evseq + y.2 + 1,
                eventBytes 1 p (x.evseq + y.2 + 1) s.stamp
                  (leBytes 8 y.1.tag.toNat ++ leBytes 1 2 ++ leBytes 1 0 ++ leBytes 2 0 ++ leBytes 4 y.1.seq ++ leBytes 4 0)))

/-- R83, R86, R99 to R102: EVREAD releases the events up to a number and gives the oldest that are left, with an overflow event where
some were dropped; WINSET and HTSET write a memory window and a host target; KEYSET gives a function a key once its commands are
answered; the management port gives function 0 its key. -/
def Obligations.EventAndWindowCommandResult : Prop :=
  ∀ (s : State) (d : Datagram),
    let u := s.served d
    let fn := d.func
    let f := s.func fn
    (Accepted s d .evread → d.len = 6 → d.arg 4 2 ≤ 96 →
      let upTo := d.arg 0 4
      let left := if upTo = 0 then f.events else f.events.filter fun e => decide (upTo < e.1)
      let payload (es : List (Nat × List Byte)) (evseq : Nat) : List Byte :=
        leBytes 4 (es.take (d.arg 4 2)).length ++ leBytes 4 evseq ++ leBytes 8 0 ++ (es.take (d.arg 4 2)).flatMap fun e => e.2
      (f.dropped = 0 ∨ left.length = f.events.length →
        Completes s .evread (u.setFunc fn { u.func fn with events := left }) d .ok (payload left f.evseq)) ∧
      (f.dropped ≠ 0 → left.length < f.events.length → f.events.length ≤ 4096 → (fn = 0 ∨ f.part ≠ none) →
        let es := left ++
          [(f.evseq + 1, eventBytes 6 (f.part.getD 0xFFFF) (f.evseq + 1) s.stamp (leBytes 4 f.dropped))]
        ∃ v, Completes s .evread v d .ok (payload es (f.evseq + 1)) ∧
          v = { (if left = [] then u.send (.note fn d.ip d.udp (f.evseq + 1)) else u) with funcs := v.funcs } ∧
          v.func fn = { u.func fn with events := es, evseq := f.evseq + 1, dropped := 0 })) ∧
    (Accepted s d .winset → d.len = 26 → d.arg 0 2 < 4096 → d.arg 2 1 < 8 → d.zeros [(3, 1)] = true →
      d.arg 8 8 % 65536 = 0 → d.arg 16 8 % 65536 = 0 →
      (d.arg 16 8 ≠ 0 → ∀ p, f.part = some p → (s.part p).hasAsid (d.arg 24 2) = true) →
      let w : Option MemWin :=
        if d.arg 16 8 = 0 then none
        else some ⟨BitVec.ofNat 3 (d.arg 2 1), BitVec.ofNat 32 (d.arg 4 4), d.arg 8 8, d.arg 16 8, d.arg 24 2⟩
      Completes s .winset (u.setFunc fn { u.func fn with windows := Tab.set none f.windows (d.arg 0 2) w }) d .ok) ∧
    (Accepted s d .htset → d.len = 24 → d.arg 0 2 < 256 → d.arg 2 2 < 1024 →
      let t : Option HostTarget :=
        if d.arg 16 8 = 0 then none else some ⟨d.arg 2 2, BitVec.ofNat 32 (d.arg 4 4), d.arg 8 8, d.arg 16 8⟩
      Completes s .htset (u.setFunc fn { u.func fn with targets := Tab.set none f.targets (d.arg 0 2) t }) d .ok) ∧
    (Accepted s d .keyset → d.len = 64 → 1 ≤ d.arg 0 1 → d.arg 0 1 ≤ 63 → d.zeros [(1, 31)] = true →
      let g := d.arg 0 1
      let k : BitVec 256 := BitVec.ofNat 256 (d.arg 32 32)
      ((s.func g).busy = [] →
        Completes s .keyset
          (u.setFunc g { s.func g with key := some k, newKey := none, keyCmd := none, top := 0, seen := 0, cache := [], lastAddr := none })
          d .ok) ∧
      ((s.func g).busy ≠ [] → (s.func g).newKey = none →
        exec .keyset s = .next (u.setFunc g { s.func g with newKey := some k, keyCmd := some (fn, d.seq) }))) ∧
    ∀ key, exec (.trayKeyInstall key) s =
      .next (s.setFunc 0
        { s.func 0 with key := some key, newKey := none, keyCmd := none, top := 0, seen := 0, cache := [], lastAddr := none })

/-- R40, R79, R117 to R119, R124 to R126, R137, R142: PCREATE opens the lowest free partition or the one named; START, SUSPEND and
RESUME move a partition between its states; PDESTROY ends its workgroups and graphs and releases its blocks before it is answered;
FASSIGN empties a function that changes hands.
Clauses beyond the rules' words follow the model's choices of log entries 43, 44 and 47. -/
def Obligations.PartitionCommandResult : Prop :=
  ∀ (s : State) (d : Datagram),
    let u := s.served d
    let p := d.arg 0 1
    let x := s.part p
    (∀ q, Accepted s d .pcreate → d.len = 8 → d.zeros [(1, 7)] = true → s.base.ready = true → q < 32 → (s.part q).st = .free →
      (p = q ∨ (p = 0xFF ∧ ∀ k, k < q → (s.part k).st ≠ .free)) →
      Completes s .pcreate (u.setPart q { st := .opened }) d .ok (leBytes 1 q)) ∧
    (ItemComes s d .start p .openOnly → d.len = 8 → d.zeros [(4, 4)] = true → x.cores ≠ [] → x.share ≠ 0 →
      Completes s .start (u.setPart p { x with st := .active, codeImage := s.mem }) d .ok) ∧
    (ItemComes s d .suspend p .activeOnly → d.len = 8 → d.zeros [(4, 4)] = true →
      exec .suspend s = .next (u.setPart p { x with st := .suspending, cmd := some (d.func, d.seq) })) ∧
    (ItemComes s d .resume p .suspendedOnly → d.len = 8 → d.zeros [(4, 4)] = true →
      (s.base.pendingTable = none →
        ∃ v, Completes s .resume v d .ok ∧ v.part p = { x with st := .active, codeImage := s.mem } ∧
          ∀ k, k ≠ p → v.part k = s.part k) ∧
      (s.base.pendingTable ≠ none →
        exec .resume s = .next { u with base := { s.base with deferred := s.base.deferred ++ [d] } })) ∧
    (Accepted s d .pdestroy → d.len = 8 → d.zeros [(1, 7)] = true → p < 32 →
      (x.st = .opened ∨ x.st = .active ∨ x.st = .suspended →
        ∃ t, exec .pdestroy s = .next t ∧ t.part p = { x with st := .destroying, cmd := none, endCmd := some (d.func, d.seq) } ∧
          t.mem = s.mem ∧ (t.func d.func).busy = (u.func d.func).busy ∧ (∀ h g, t.graph h = some g → g.part ≠ p) ∧
          (∀ i w, Tab.get none t.wgs i = some w → w.part = p → w.place = .ended) ∧
          ∀ die b, die < 80 → b < 64 → s.blockOwner die b = p + 1 → ∃ r ∈ t.releases, r.die = die ∧ b ∈ r.blocks) ∧
      (x.st = .suspending → x.endCmd = none →
        exec .pdestroy s = .next (u.setPart p { x with endCmd := some (d.func, d.seq) }))) ∧
    let fn := p
    let q : Option Nat := if d.arg 1 1 = 0xFF then none else some (d.arg 1 1)
    Accepted s d .fassign → d.len = 8 → d.zeros [(2, 6)] = true → 1 ≤ fn → fn ≤ 63 → (s.func d.func).newKey = none →
    (s.func fn).keyCmd ≠ some (d.func, d.seq) →
    (∀ k, q = some k → k < 32 ∧ (s.part k).st ≠ .free ∧ (s.part k).st ≠ .destroying) →
      ((s.func fn).part = q → Completes s .fassign u d .ok) ∧
      ((s.func fn).part ≠ q →
        ∃ v, Completes s .fassign v d .ok ∧ v.mem = s.mem ∧ (∀ o ∈ v.hostOps, o.func ≠ fn) ∧
          (let g := v.func fn
           g.part = q ∧ g.qps = [] ∧ g.windows = [] ∧ g.targets = [] ∧ g.events = [] ∧ g.dropped = 0 ∧ g.busy = []) ∧
          ∀ k, (s.func fn).part = some k → (v.part k).dataFn ≠ some fn ∧ (v.part k).eventFn ≠ some fn ∧
            ∀ h g, v.graph h = some g → g.part = k → ∀ r ∈ g.queue, r.func ≠ fn)

/-- R60, R95, R120 to R123, R243, R254, R333, R454: the PCONFIG items that set a partition's weight, graph memory, watchdog, core map,
functions, address spaces, memory, spill region, roots and privilege; a released granule is zeroed before it is free again.
Clauses beyond the rules' words follow the model's choices of log entries 43, 45, 46 and 53. -/
def Obligations.PartitionItemResult : Prop :=
  ∀ (s : State) (d : Datagram) (p : Nat),
    let u := s.served d
    let x := s.part p
    let g := d.arg 8 4
    let n := d.arg 12 4
    (ItemComes s d .weight p .any → d.len = 8 → d.zeros [(6, 2)] = true → d.arg 4 2 ≠ 0 →
      Completes s .weight (u.setPart p { x with weight := d.arg 4 2 }) d .ok) ∧
    (ItemComes s d .wdog p .any → d.len = 8 → d.zeros [(5, 3)] = true → 16 ≤ d.arg 4 1 → d.arg 4 1 ≤ 32 →
      Completes s .wdog (u.setPart p { x with wdog := d.arg 4 1 }) d .ok) ∧
    (ItemComes s d .priv p .rest → d.len = 8 → d.zeros [(5, 3)] = true → d.arg 4 1 < 2 →
      Completes s .priv (u.setPart p { x with priv := d.arg 4 1 == 1 }) d .ok) ∧
    (ItemComes s d .gshare p .rest → d.len = 8 → ((s.graphsOf p).map fun y => y.2.units).foldl (· + ·) 0 ≤ d.arg 4 4 →
      d.arg 4 4 + s.sharesOf p ≤ 2048 → Completes s .gshare (u.setPart p { x with share := d.arg 4 4 }) d .ok) ∧
    (ItemComes s d .funcs p .any → d.len = 8 → d.zeros [(6, 2)] = true →
      let role (k : Nat) : Option Nat := if d.arg k 1 = 0xFF then none else some (d.arg k 1)
      (∀ k ∈ [4, 5], ∀ f, role k = some f → f < 64 ∧ (s.func f).part = some p) →
      Completes s .funcs (u.setPart p { x with dataFn := role 4, eventFn := role 5 }) d .ok) ∧
    (ItemComes s d .asids p .openOnly → d.len = 8 →
      let a := d.arg 4 2
      let k := d.arg 6 2
      1 ≤ k → a + k ≤ 8192 → (∀ y ∈ s.parts, y.1 ≠ p → rangesMeet a k y.2.asidBase y.2.asidCount = false) →
      Completes s .asids
        (u.setPart p { x with asidBase := a, asidCount := k, roots := x.roots.filter fun r => decide (a ≤ r.1) && decide (r.1 < a + k) })
        d .ok) ∧
    (ItemComes s d .asroot p .any → d.len = 16 → d.zeros [(6, 2)] = true → x.hasAsid (d.arg 4 2) = true → d.arg 8 8 % 4096 = 0 →
      (d.arg 8 8 ≠ 0 → d.arg 8 8 < dramBytes ∧ s.ownerOf (d.arg 8 8) = p + 1) →
      Completes s .asroot (u.setPart p { x with roots := Tab.set 0 x.roots (d.arg 4 2) (d.arg 8 8) }) d .ok) ∧
    (ItemComes s d .accspill p .rest → d.len = 16 → d.zeros [(4, 4)] = true → g + n ≤ 983040 →
      (∀ k, k < n → Tab.get 0 s.owner (g + k) = p + 1) → (s.spilledIn p fun k => !(decide (g ≤ k) && decide (k < g + n))) = false →
      Completes s .accspill (u.setPart p { x with spill := if n = 0 then none else some (g, n) }) d .ok) ∧
    (ItemComes s d .memGrant p .any → d.len = 16 → d.arg 4 1 = 0 → d.zeros [(5, 3)] = true → g + n ≤ 983040 →
      (∀ k, k < n → Tab.get 0 s.owner (g + k) = 0 ∨ Tab.get 0 s.owner (g + k) = p + 1) →
      ∃ o, Completes s .memGrant { u with owner := o } d .ok ∧
        ∀ k, Tab.get 0 o k = if g ≤ k ∧ k < g + n then p + 1 else Tab.get 0 s.owner k) ∧
    (ItemComes s d .memRelease p .rest → d.len = 16 → d.zeros [(5, 3)] = true → g + n ≤ 983040 →
      (∀ k, k < n → Tab.get 0 s.owner (g + k) = p + 1) → (s.spilledIn p fun k => decide (g ≤ k) && decide (k < g + n)) = false →
      ∃ o, Completes s .memRelease { u with owner := o } d .ok ∧
        ∀ k, Tab.get 0 o k = if g ≤ k ∧ k < g + n then 100 + p else Tab.get 0 s.owner k) ∧
    (∀ k, s.memWf = true → 100 ≤ Tab.get 0 s.owner k → s.homeLost (k * 2 ^ 21) = false → s.podHeldLines k = [] →
      ∃ t, exec (.granuleZeroed k) s = .next t ∧ (∀ j, Tab.get 0 t.owner j = if j = k then 0 else Tab.get 0 s.owner j) ∧
        (∀ a, Memory.byte t.mem a = if a / 2 ^ 21 = k then 0 else Memory.byte s.mem a) ∧
        (∀ y, Tab.get false t.failing y = if y / 2 ^ 15 = k then false else Tab.get false s.failing y) ∧
        (∀ a, a / 2 ^ 21 = k → Tab.get none t.accs a = none) ∧ t.parts = s.parts ∧ t.ethOut = s.ethOut) ∧
    (let touched := if x.viewVer % 2 = 0 then x.viewVer + 1 else x.viewVer
     ItemComes s d .coremap p .rest →
      let v0 := d.arg 4 2
      let es := (List.range (d.arg 6 2)).map fun k => d.arg (8 + 2 * k) 2
      ∀ cs k, es = cs ++ List.replicate k 0xFFFF → 0xFFFF ∉ cs → d.len = 8 + 2 * d.arg 6 2 → v0 ≤ x.cores.length →
        let m := x.cores.take v0 ++ cs.map (fun c => (c, false)) ++ (if k = 0 then x.cores.drop (v0 + cs.length) else [])
        (∀ c ∈ cs, s.inService c = true ∧ s.coreTaken p c = false) → (m.map (·.1)).Nodup → m.length ≤ 3840 →
        ∃ v, Completes s .coremap v d .ok ∧ v = { u with parts := v.parts, cores := v.cores } ∧
          v.part p = { x with cores := m, viewVer := touched } ∧ (∀ q, q ≠ p → v.part q = s.part q) ∧
          ∀ c, v.core c =
            if c ∈ m.map (·.1) ∧ c ∉ x.cores.map (·.1) then
              { copyQ := (s.core c).copyQ, matQ := (s.core c).matQ, cycles0 := s.now (c / 48), picker := (s.core c).picker }
            else s.core c)

/-- R60, R127 to R130, R139, R175, R251, R258: the PCONFIG items that retire cores, map tenant tags, grant and release counter blocks,
invalidate translations, and create, destroy and re-assign broadcast windows.
Clauses beyond the rules' words follow the model's choices of log entries 48, 49, 50, 51 and 52. -/
def Obligations.PartitionResourceResult : Prop :=
  ∀ (s : State) (d : Datagram) (p : Nat),
    let u := s.served d
    let x := s.part p
    let touched := if x.viewVer % 2 = 0 then x.viewVer + 1 else x.viewVer
    (s.base.pendingTable = none → ∀ c b, x.cores[d.arg 4 2]? = some (c, b) →
      let left (e : CairnEnt) : Serv := if e.serv = .fenced then .fenced else .retired
      (ItemComes s d .retireExpose p .any → (d.len = 8 ∨ (d.len = 10 ∧ d.zeros [(8, 2)] = true)) → d.arg 6 1 = 0 → d.zeros [(7, 1)] = true →
        ∃ v, Completes s .retireExpose v d .ok ∧
          v.part p = { x with cores := x.cores.set (d.arg 4 2) (c, true), viewVer := touched } ∧
          (∀ k, v.cairnOf k = if k = c then { s.cairnOf c with serv := left (s.cairnOf c) } else s.cairnOf k)) ∧
      (ItemComes s d .retireHide p .any → d.len = 10 → d.zeros [(7, 1)] = true →
        let n := d.arg 8 2
        s.inService n = true → (∀ y ∈ s.parts, ∀ z ∈ y.2.cores, z.1 ≠ n) → (s.cairnOf n).cfeat = (s.cairnOf c).cfeat →
        ∃ v, Completes s .retireHide v d .ok ∧
          v.part p = { x with cores := x.cores.set (d.arg 4 2) (n, false), viewVer := touched } ∧
          (∀ k, v.cairnOf k = if k = c then { s.cairnOf c with serv := left (s.cairnOf c) } else s.cairnOf k) ∧
          v.core n = { s.core c with
            copyQ := (s.core n).copyQ, matQ := (s.core n).matQ, picker := (s.core n).picker
            cyclesBase := s.cyclesOf c, cycles0 := s.now (n / 48) })) ∧
    (let t := d.arg 5 1
     let ports := if d.arg 4 1 = 0xFF then List.range 96 else [d.arg 4 1]
     let place (y : State) (n k : Nat) : Nat := Tab.get 0 y.ttags (256 * n + k)
     (d.arg 4 1 < 96 ∨ d.arg 4 1 = 0xFF) → 1 ≤ t → d.len = 8 → d.zeros [(7, 1)] = true →
     (ItemComes s d .ttagMap p .any → d.arg 6 1 = 0 →
       (∀ n ∈ ports, (place s n t = 0 ∨ place s n t = p + 1) ∧ ∀ k, k < 256 → k ≠ t → place s n k ≠ p + 1) →
       ∃ v, Completes s .ttagMap v d .ok ∧ v = { u with ttags := v.ttags, parts := v.parts } ∧
         v.part p = { x with viewVer := touched } ∧
         ∀ n k, k < 256 → place v n k = if n ∈ ports ∧ k = t then p + 1 else place s n k) ∧
     (ItemComes s d .ttagUnmap p .any → (∃ n ∈ ports, place s n t = p + 1) →
       ∃ v, Completes s .ttagUnmap v d .ok ∧ v = { u with ttags := v.ttags, parts := v.parts } ∧
         v.part p = { x with viewVer := touched } ∧
         ∀ n k, k < 256 → place v n k = if n ∈ ports ∧ k = t ∧ place s n t = p + 1 then 0 else place s n k)) ∧
    (let die := d.arg 4 1
     let blocks := (List.range (d.arg 8 2)).map fun k => d.arg 6 2 + k
     d.len = 10 → die < 80 → d.arg 6 2 < 64 → d.arg 6 2 + d.arg 8 2 ≤ 64 → (∀ b ∈ blocks, ∀ r ∈ s.releases, r.die = die → b ∉ r.blocks) →
     (ItemComes s d .fabricGrant p .any → d.arg 5 1 = 0 →
       (∀ b ∈ blocks, s.blockOwner die b = 0 ∨ s.blockOwner die b = p + 1) →
       ∃ v, Completes s .fabricGrant v d .ok ∧ v = { u with ctrBlocks := v.ctrBlocks } ∧
         ∀ k b, b < 64 → v.blockOwner k b = if k = die ∧ b ∈ blocks then p + 1 else s.blockOwner k b) ∧
     (ItemComes s d .fabricRelease p .rest → (∀ b ∈ blocks, s.blockOwner die b = p + 1) →
       ∃ t, exec .fabricRelease s = .next t ∧ t = { u with releases := t.releases, entries := t.entries } ∧
         t.releases = s.releases ++ [⟨die, p, blocks, some (d.func, d.seq)⟩])) ∧
    (ItemComes s d .tlbinv p .any → d.len = 24 → x.hasAsid (d.arg 4 2) = true → d.arg 6 1 < 2 → d.zeros [(7, 1)] = true →
      (d.arg 6 1 = 1 ∨ (d.arg 8 8 % 65536 = 0 ∧ d.arg 16 8 % 65536 = 0)) →
      let hit (asid a k : Nat) : Prop := asid = d.arg 4 2 ∧ (d.arg 6 1 = 1 ∨ (a < d.arg 8 8 + d.arg 16 8 ∧ d.arg 8 8 < a + k))
      ∃ t w, exec .tlbinv s = .next t ∧ t = { u with tlb := t.tlb, l1tlb := t.l1tlb, walkFails := t.walkFails, invs := s.invs ++ [(d.func, d.seq, w)] } ∧
        (∀ e, e ∈ t.tlb ↔ e ∈ s.tlb ∧ ¬ hit e.asid (e.page * 2 ^ e.bits) (2 ^ e.bits)) ∧
        (∀ c e, (e ∈ Tab.get [] t.l1tlb c → ¬ hit e.asid (e.page * 2 ^ e.bits) (2 ^ e.bits)) ∧
          (e ∈ Tab.get [] s.l1tlb c → ¬ hit e.asid (e.page * 2 ^ e.bits) (2 ^ e.bits) → e ∈ Tab.get [] t.l1tlb c)) ∧
        (∀ e, e ∈ t.walkFails ↔ e ∈ s.walkFails ∧ ¬ hit e.asid (e.page * 65536) 65536) ∧
        ∀ o ∈ s.pipe, ∀ a ∈ o.accs, a.done = false → a.space ≠ .localStore → hit (s.wg o.wg).launch.asid a.va 512 → o.id ∈ w) ∧
    (let k := d.arg 4 1
     let members := (List.range 80).filter fun m => bitAt (d.arg 16 10) m
     let b : BWin := { part := p, writer := d.arg 6 2, row0 := d.arg 8 4, rows := d.arg 12 4, members := members }
     d.len = 26 → k < 64 →
     (ItemComes s d .bwinCreate p .rest → d.arg 5 1 = 0 → 1 ≤ d.arg 12 4 → d.arg 8 4 + d.arg 12 4 ≤ 12288 →
       s.memWf = true → Tab.get none s.bwins k = none → d.arg 6 2 ∈ members → (∀ g ∈ b.granuleList, Tab.get 0 s.owner g = p + 1) →
       ∃ v : State, Completes s .bwinCreate { v with bwins := Tab.set none s.bwins k (some b) } d .ok ∧
         (∀ a, Memory.byte v.mem a = if a / 2 ^ 21 ∈ b.granuleList then 0 else Memory.byte s.mem a) ∧
         v.parts = s.parts ∧ v.owner = s.owner) ∧
     ∀ w, Tab.get none s.bwins k = some w → w.part = p →
       (ItemComes s d .bwinDestroy p .rest → Completes s .bwinDestroy { u.dropWindow k with bwins := Tab.set none s.bwins k none } d .ok) ∧
       (ItemComes s d .bwinSetWriter p .any → d.arg 6 2 ∈ w.members →
         exec .bwinSetWriter s = .next { u with writers := s.writers ++ [(k, d.arg 6 2, d.func, d.seq)] }))

/-- R43, and R50, R61 to R65, R74, R75, R94, R181 and R196 in part: the commands on Yilbel ports, on the module route table and on the
reduction table. YPORT answers YPSTAT and YPEER; the mark of a port changes only while it is DISABLED, and a 33rd fixed port is
refused and stays switched; YQUIESCE and YRESUME are answered later.
Clauses beyond the rules' words follow the model's choices of log entries 54, 55 and 56. -/
def Obligations.PortCommandResult : Prop :=
  ∀ (s : State) (d : Datagram),
    let u := s.served d
    let n := d.arg 0 1
    let p := s.port n
    let reads (i : Instr) (v : State) : Prop :=
      Completes s i v d .ok (leBytes 4 (v.port n).stat ++ leBytes 4 0 ++ leBytes 8 (v.port n).peer.toNat)
    let comes (i : Instr) : Prop := Accepted s d i ∧ d.len = 16 ∧ n < 96 ∧ d.zeros [(2, 6)] = true
    (comes .fixed → p.st = .disabled → s.fixedPorts n < 32 → reads .fixed (u.setPort n { p with fixed := true })) ∧
    (comes .switched → p.st = .disabled → reads .switched (u.setPort n { p with fixed := false })) ∧
    (comes .fixed → p.st = .disabled → 32 ≤ s.fixedPorts n → Completes s .fixed u d .nospace) ∧
    (p.st ≠ .disabled → (comes .fixed → Completes s .fixed u d .busy) ∧ (comes .switched → Completes s .switched u d .busy)) ∧
    (comes .enable → p.st = .disabled →
      reads .enable (u.setPort n { p with
        st := .down, txSeq := 0, rxSeq := 0, replay := [], used := [], owed := [], ctl := [], misses := 0, silent := 0
        training := none, heldRates := [], quiescing := false, peerDone := false, note := [] })) ∧
    (comes .disable → p.cmd = none →
      ∃ v, reads .disable v ∧ (v.port n).st = .disabled ∧ (v.port n).carrier = 0 ∧ (v.port n).lanes = 0 ∧
        (v.port n).txKeys = p.txKeys ∧ (v.port n).rxKeys = p.rxKeys ∧ v.mem = s.mem ∧
        (p.replay = [] → p.waiting = [] → ∀ k, k ≠ n → v.port k = s.port k)) ∧
    (comes .peer → (p.st = .disabled ∨ p.st = .down ∨ p.st = .hold) →
      reads .peer (u.setPort n { p with peer := BitVec.ofNat 64 (d.arg 8 8) })) ∧
    (comes .read → reads .read u) ∧
    (comes .route → d.arg 8 8 < 2048 →
      ∃ t, reads .route { u with base := { s.base with routes := t } } ∧
        ∀ m, Tab.get 0 t m = if m = d.arg 8 8 then n + 1 else Tab.get 0 s.base.routes m) ∧
    (comes .routeClear → d.arg 8 8 < 4096 →
      ∃ t, reads .routeClear { u with base := { s.base with routes := t } } ∧
        ∀ m, Tab.get 0 t m = if m = d.arg 8 8 % 2048 then 0 else Tab.get 0 s.base.routes m) ∧
    (let t := d.arg 2 1
     let j := d.arg 3 1
     let k := 2 * t + j
     let key : Option (BitVec 256) := some (BitVec.ofNat 256 (d.arg 32 32))
     Accepted s d .ykey → d.len = 64 → n < 96 → d.arg 3 1 < 2 → d.zeros [(4, 28)] = true →
     (d.arg 1 1 = 0 → Tab.get none p.txKeys k = none →
       ∃ v, Completes s .ykey v d .ok ∧ v = { u with ports := v.ports } ∧
         (∀ i, Tab.get none (v.port n).txKeys i = if i = k then key else Tab.get none p.txKeys i) ∧
         (s.portsQuiet →
           v = u.setPort n { p with
             txKeys := Tab.set none p.txKeys k key, fctr := Tab.set 0 p.fctr k 0, spent := p.spent.filter fun y => y != k
             inUse := if Tab.get none p.txKeys (2 * t + (1 - j)) = none then Tab.set 0 p.inUse t j else p.inUse })) ∧
     (d.arg 1 1 = 1 → Tab.get none p.rxKeys k = none →
       Completes s .ykey
         (u.setPort n { p with
           rxKeys := Tab.set none p.rxKeys k key
           rxUse := if Tab.get none p.rxKeys (2 * t + (1 - j)) = none then Tab.set 0 p.rxUse t j else p.rxUse }) d .ok)) ∧
    (Accepted s d .yquiesce → d.len = 12 → n < 96 → d.zeros [(1, 3)] = true → p.fixed = false → p.st = .active → p.quiescing = false →
      exec .yquiesce s = .next (u.setPort n { p with
        st := if p.training = none then .drain else .active, quiescing := true, peerDone := false
        drainUs := if d.arg 4 4 = 0 then 100 else d.arg 4 4, holdMs := if d.arg 8 4 = 0 then 100 else d.arg 8 4
        cmd := some (d.func, d.seq) })) ∧
    (Accepted s d .yresume → d.len = 48 → n < 96 → d.zeros [(1, 7)] = true → p.st = .hold →
      let q : Port := { p with
        st := .verify, lanes := 0, peer := BitVec.ofNat 64 (d.arg 8 8), note := d.payload.drop 16, cmd := some (d.func, d.seq) }
      ∃ v, exec .yresume s = .next v ∧ v = { u with ports := v.ports } ∧ (v.port n).st = .verify ∧ (v.port n).peer = q.peer ∧
        (v.port n).note = q.note ∧ (v.port n).cmd = q.cmd ∧ (p.carrier = 0 → s.portsQuiet → PortOnly u v n q)) ∧
    (Accepted s d .treealloc → d.arg 0 4 ≠ 0 → d.arg 6 1 ≤ 8 → d.len = 16 + 4 * d.arg 6 1 → d.zeros [(7, 1), (12, 4)] = true →
      (d.arg 8 2 = 0xFFFF ∨ d.arg 10 2 < 96) → (∀ k, k < d.arg 6 1 → d.arg (18 + 4 * k) 2 < 96) → d.arg 4 1 < 32 →
      (s.part (d.arg 4 1)).st ≠ .free → (∀ t ∈ s.trees, t.id ≠ d.arg 0 4) → s.trees.length < 64 →
      Completes s .treealloc
        { u with trees := s.trees ++ [{
            id := d.arg 0 4, part := d.arg 4 1, ttag := d.arg 5 1
            parent := if d.arg 8 2 = 0xFFFF then none else some (d.arg 8 2, d.arg 10 2)
            children := (List.range (d.arg 6 1)).map fun k => (d.arg (16 + 4 * k) 2, d.arg (18 + 4 * k) 2) }] } d .ok) ∧
    (Accepted s d .treefree → d.len = 4 → (∃ t ∈ s.trees, t.id = d.arg 0 4) →
      (∀ e ∈ s.entries, e.2.st = .free ∨ e.2.tree ≠ d.arg 0 4) →
      Completes s .treefree { u with trees := s.trees.filter fun t => t.id != d.arg 0 4 } d .ok)

/-- R32, R33, R74: TELREAD gives the bytes of the telemetry window, whose records stand at the manual's offsets, and clears RETRY of the
ports it covers; TELWRITE clears the bits that writing one clears, and nothing else. YPSTAT has its fields at their places.
Clauses beyond the rules' words follow the model's choices of log entry 57. -/
def Obligations.TelemetryResult : Prop :=
  (∀ (s : State) (d : Datagram),
    let u := s.served d
    let a := d.arg 0 8
    let n := d.arg 8 4
    (Accepted s d .telread → d.len = 12 → 1 ≤ n → n ≤ 8192 → a + n ≤ 2 ^ 20 →
      ∃ v, Completes s .telread v d .ok ((List.range n).map fun k => s.telByte (a + k)) ∧ v = { u with ports := v.ports } ∧
        ∀ k, v.port k =
          if k < 96 ∧ a < 0x1000 + 16 * k + 4 ∧ 0x1000 + 16 * k < a + n then { s.port k with retry := 0 } else s.port k) ∧
    (Accepted s d .telwrite → d.len = 12 → a % 4 = 0 → a + 4 ≤ 2 ^ 20 →
      (∀ k, k < 84 → a = 0x100 + 32 * k + 16 →
        Completes s .telwrite (if (d.arg 8 4).testBit 0 then u.setDie k { s.die k with warn := false } else u) d .ok) ∧
      (∀ k, k < 96 → a = 0x1000 + 16 * k →
        Completes s .telwrite (u.setPort k { s.port k with events := (s.port k).events &&& ~~~(BitVec.ofNat 8 (d.arg 8 4 / 2 ^ 9)) }) d
          .ok) ∧
      ((∀ k, k < 84 → a ≠ 0x100 + 32 * k + 16) → (∀ k, k < 96 → a ≠ 0x1000 + 16 * k) → Completes s .telwrite u d .ok))) ∧
  (∀ (s : State) (k : Nat),
    (k < 8 → s.telByte (8 + k) = (leBytes 8 Config.moduleIdentity.toNat).getD k 0 ∧ s.telByte (16 + k) = (leBytes 8 s.stamp).getD k 0) ∧
    (∀ n, n < 16 → k < 2 → s.telByte (0x40 + 2 * n + k) = (leBytes 2 (Tab.get 0 s.base.frameSensors n).toNat).getD k 0) ∧
    (∀ n, n < 84 → k < 32 → s.telByte (0x100 + 32 * n + k) = (s.die n).record.getD k 0) ∧
    (∀ n, n < 96 → k < 16 → s.telByte (0x1000 + 16 * n + k) =
      (leBytes 4 (s.port n).stat ++ leBytes 4 0 ++ leBytes 8 (s.port n).peer.toNat).getD k 0) ∧
    (∀ m, m < 2048 → k < 2 → s.telByte (0x3000 + 2 * m + k) = (leBytes 2 ((s.routeOf m).getD 0xFFFF)).getD k 0) ∧
    (∀ c, c < 3840 → k < 16 → s.telByte (0x10000 + 16 * c + k) = (s.cairnRecord c).getD k 0)) ∧
  ∀ p : Port,
    let x := p.stat
    x < 2 ^ 32 ∧ field x 28 4 = p.st.num ∧ field x 26 2 = p.rate % 4 ∧ field x 24 2 = p.lanes.toNat ∧ x.testBit 23 = p.ktx ∧
    x.testBit 21 = (p.carrier != 0) ∧ x.testBit 20 = p.fixed ∧ field x 9 8 = p.events.toNat ∧ x.testBit 8 = p.lossDir ∧
    field x 0 8 = min 255 p.retry

/-- R171, R226, R331, R332, R334, R337, R338: the sub-operations of DIAG. RESUME restarts a frozen fibre at its restart point;
CONTINUE lets one stopped by TRAP or BKPT go on behind it; DISCARD ends its workgroup; DIAGREAD and DUMPREAD read; PFREEZE freezes a
partition and makes its image; PTHAW releases it with every clock as it was.
Clauses beyond the rules' words follow the model's choices of log entries 23, 36 and 70. -/
def Obligations.DiagnosticCommandResult : Prop :=
  ∀ (s : State) (d : Datagram),
    let u := s.served d
    let p := d.arg 2 2
    let frseq := d.arg 4 4
    let comes (i : Instr) (events : Bool) : Prop :=
      Accepted s d i ∧ d.len = 16 ∧ d.zeros [(1, 1)] = true ∧ p < 32 ∧ (s.part p).st ≠ .free ∧
      (d.func = 0 ∨ (events = true ∧ (s.part p).eventFn = some d.func))
    (∀ w k f c, s.frozenFib p frseq = some (w, k, f, c) →
      let fb := s.fib w k f
      (comes .diagResume true → s.outstanding w k f = false →
        ∃ v, Completes s .diagResume v d .ok ∧ v = { u with wgs := v.wgs } ∧
          (let g := v.fib w k f
           g.st = .waiting ∧ g.frozenBy = none ∧ g.latches = [] ∧ g.restart = fb.restart ∧ g.livein = fb.livein ∧
           (∀ n, g.flagAt n = 0) ∧ SameRegs fb g ∧
           ∀ l, l < 16 → g.pcAt l = if laneIn fb.live l then fb.restart else fb.pcAt l) ∧
          ∀ w' k' f', (w', k', f') ≠ (w, k, f) → v.fib w' k' f' = s.fib w' k' f') ∧
      (comes .diagContinue true → s.outstanding w k f = false → (s.wg w).place = .resident →
        (c = FaultCode.trap.num ∨ c = FaultCode.bkpt.num) →
        ∀ r, (s.part p).faultQ.find? (fun y => y.1 == frseq) = some r →
        ∃ v, Completes s .diagContinue v d .ok ∧ v = { u with wgs := v.wgs } ∧
          (let g := v.fib w k f
           g.st = .waiting ∧ g.frozenBy = none ∧ g.f = fb.f ∧ g.restart = fb.restart ∧ SameRegs fb g ∧
           ∀ l, l < 16 → g.pcAt l =
             if laneIn fb.live l = true ∧ fb.pcAt l = leAt r.2 8 8 then nextPc (leAt r.2 8 8) else fb.pcAt l) ∧
          ∀ w' k' f', (w', k', f') ≠ (w, k, f) → v.fib w' k' f' = s.fib w' k' f') ∧
      (comes .discard true →
        ∃ v, Completes s .discard v d .ok ∧
          (∀ x, Tab.get none v.wgs w = some x → x.place = .ended ∧ ∀ i j, ((x.slot i).fib j).frozenBy = none) ∧
          (∀ o ∈ v.pipe, o.wg = w → o.kind.ofNetwork = true) ∧ ∀ w', w' ≠ w → v.wg w' = s.wg w')) ∧
    (comes .diagread true → ∀ r, (s.part p).diags.find? (fun y => y.1 == frseq) = some r →
      Completes s .diagread u d .ok ((r.2.drop (d.arg 8 8)).take 8192)) ∧
    (comes .dumpread false → ∀ bs, (s.part p).image = some bs → Completes s .dumpread u d .ok ((bs.drop (d.arg 8 8)).take 8192)) ∧
    (comes .pfreeze false →
      ((s.part p).frozen = false → s.base.frozen = none →
        ∃ img, Completes s .pfreeze (u.setPart p { s.part p with frozen := true, frozenAt := (s.part p).dies.map fun e => (e, s.now e), image := some img }) d .ok) ∧
      ((s.part p).frozen = true → Completes s .pfreeze u d .ok)) ∧
    (comes .pthaw false → (s.part p).frozen = true →
      ∃ v, Completes s .pthaw v d .ok ∧ v.part p = { s.part p with frozen := false } ∧ v.mem = s.mem ∧ v.counters = s.counters ∧
        ∀ w x, Tab.get none s.wgs w = some x → x.part = p → ∀ k f,
          let n := s.now x.die - Tab.get (s.now x.die) (s.part p).frozenAt x.die
          let fb := s.fib w k f
          let g := v.fib w k f
          SameRegs fb g ∧ g.pc = fb.pc ∧ g.st = fb.st ∧ g.restart = fb.restart ∧ g.timers = fb.timers.map (fun y => (y.1 + n, y.2)) ∧
          (fb ≠ {} → g.lastIssue = fb.lastIssue + n))

/-! ### Yilbel ports (chapter 02) -/

/-- R47 to R50, R62 to R65: how a port comes up and is resumed. Carrier takes it to TRAIN, where it sends training flits; the peer's
training flit takes it to IDENT with the lower of the two rates, the peer's identity to ACTIVE, and another identity to FAULT, or
back to HOLD; a retrain adopts the lower rate and resends, and one that comes meanwhile follows; a drained port holds. A resume's
completion message is reported.
Clauses beyond the rules' words follow the model's choices of log entries 27, 55, 104 and 105. -/
def Obligations.PortTrainingResult : Prop :=
  ∀ (s : State) (n : Nat),
    let p := s.port n
    let up : Prop := p.st = .active ∨ p.st = .drain
    let trains : Prop := (p.st = .train ∨ (p.st = .verify ∧ p.lanes = 0)) ∧ p.carrier ≠ 0
    let keyed (f : Flit) : Prop := Tab.get none p.rxKeys f.kidx ≠ none
    let comes (f : Flit) : Prop := keyed f ∧ f.ok = true ∧ f.seq = p.rxSeq
    let adopt (rate : Nat) : Nat := max (rate % 3) (max p.ownRate p.peerRate)
    (∀ c : LaneCarrier, c.lane < 2 → p.st ≠ .disabled →
      let fresh : Prop := p.st = .down ∨ (p.st = .verify ∧ p.lanes = 0 ∧ p.carrier = 0)
      let q : Port := { p with
        carrier := p.carrier ||| (1#2 <<< c.lane), st := if p.st = .down then .train else p.st
        ownRate := if fresh then c.ownRate % 3 else p.ownRate }
      ∃ t, exec (.receivedCarrier n c) s = .next t ∧ t = { s with ports := t.ports } ∧ (t.port n).carrier = q.carrier ∧
        (t.port n).st = q.st ∧ (t.port n).ownRate = q.ownRate ∧
        (s.portsQuiet →
          PortOnly s t n (if fresh ∨ p.st = .train ∨ (p.st = .verify ∧ p.lanes = 0) then q.sends (.training c.lane q.ownRate) else q))) ∧
    (∀ f r, trains → keyed f →
      let q : Port := { p with
        misses := 0, peerRate := r % 3, rate := max p.ownRate (r % 3), lanes := p.carrier
        st := if p.st = .train then .ident else .verify }
      (f.ok = true →
        ∃ t, exec (.trainingFlit ⟨n, f⟩ r) s = .next t ∧ t = { s with ports := t.ports } ∧ (t.port n).st = q.st ∧
          (t.port n).rate = q.rate ∧ (t.port n).lanes = q.lanes ∧
          (s.portsQuiet → PortOnly s t n (q.sends (.identity Config.moduleIdentity n)))) ∧
      (f.ok = false → exec (.trainingFlit ⟨n, f⟩ r) s = .next s)) ∧
    (trains → ∃ t, exec (.trainFail n) s = .next t ∧ Reports s t 0x0106 (leBytes 1 n ++ leBytes 1 12) ∧ PortFaulted s t n) ∧
    (∀ f id, p.st = .ident ∨ (p.st = .verify ∧ p.lanes ≠ 0) → keyed f →
      (f.ok = true ∧ (p.peer = 0 ∨ p.peer = id) →
        let q : Port := { p with
          st := .active, peer := id, txSeq := 0, rxSeq := 0, replay := [], used := [], owed := [], ctl := [], misses := 0, silent := 0
          training := none, heldRates := [], quiescing := false, peerDone := false, note := [], cmd := none }
        ∃ t, exec (.identityFlit n f id) s = .next t ∧ (t.port n).st = .active ∧ (t.port n).peer = id ∧ t.mem = s.mem ∧
          (p.st = .ident → s.portsQuiet → p.cmd = none → (∀ r ∈ s.netReqs, r.port ≠ n) → PortOnly s t n q) ∧
          (p.st = .verify → Reports s t 0x0106
            (leBytes 1 n ++ (leBytes 1 0 ++ (leBytes 2 0 ++ (leBytes 4 q.stat ++ (leBytes 4 0 ++ byteSlice p.note 0 32)))))) ∧
          ∀ fn seq ip udp, p.cmd = some (fn, seq) → (s.func fn).busy.find? (fun b => b.1 == seq) = some (seq, ip, udp) →
            ∃ payload, .reply fn ip udp seq 0 payload ∈ t.ethOut ++ t.ethWait) ∧
      (¬ (f.ok = true ∧ (p.peer = 0 ∨ p.peer = id)) →
        ∃ t, exec (.identityFlit n f id) s = .next t ∧ Reports s t 0x0106 (leBytes 1 n ++ leBytes 1 11) ∧
          (p.st = .ident → PortFaulted s t n) ∧ (p.st = .verify → (t.port n).st = .hold ∧ (t.port n).lanes = 0))) ∧
    (∀ f rate same, up → comes f →
      ∃ t, exec (.retrain ⟨n, f⟩ rate same) s = .next t ∧ t = { s with ports := t.ports } ∧ (t.port n).st = p.st ∧
        (p.training = none → (t.port n).training = some (adopt rate) ∧ (t.port n).heldRates = p.heldRates) ∧
        ∀ r, p.training = some r →
          if same then (t.port n).training = some (max r (adopt rate)) ∧ (t.port n).heldRates = p.heldRates
          else (t.port n).training = some r ∧ (t.port n).heldRates = p.heldRates ++ [rate]) ∧
    (∀ rate, up →
      let q := p.sends (.retrain (rate % 3))
      ∃ t, exec (.retrainRequest n rate) s = .next t ∧ t = { s with ports := t.ports } ∧
        (t.port n).training = some (p.training.getD (adopt rate)) ∧
        (t.port n).heldRates = (if p.training = none then p.heldRates else p.heldRates ++ [rate]) ∧
        (s.portsQuiet → PortOnly s t n { q with training := (t.port n).training, heldRates := (t.port n).heldRates })) ∧
    (∀ r, p.training = some r →
      ∃ t, exec (.retrainComplete n) s = .next t ∧ t = { s with ports := t.ports } ∧ (t.port n).rate = r ∧
        (t.port n).st = (if p.quiescing then .drain else p.st) ∧ (t.port n).training = p.heldRates.head?.map adopt ∧
        (t.port n).heldRates = p.heldRates.tail ∧ (p.replay ≠ [] → (t.port n).retry = p.retry + 1) ∧
        ∀ f ∈ p.replay, { f with resends := f.resends + 1 } ∈ (t.port n).replay) ∧
    (∀ f, p.st = .drain → comes f →
      (p.quiescing = true →
        ∃ t, exec (.quiesceDone ⟨n, f⟩) s = .next t ∧ t = { s with ports := t.ports } ∧ (t.port n).st = .drain ∧
          (t.port n).peerDone = true) ∧
      (p.quiescing = false →
        ∃ t, exec (.quiesceDone ⟨n, f⟩) s = .next t ∧
          t = { s with ports := t.ports, funcs := t.funcs, ethOut := t.ethOut, ethWait := t.ethWait } ∧ (t.port n).st = .hold ∧
          (t.port n).lanes = 0 ∧ (t.port n).quiescing = false ∧ (t.port n).peerDone = false ∧ (t.port n).cmd = none ∧
          (s.portsQuiet → ∀ k, k ≠ n → t.port k = s.port k))) ∧
    (p.st = .drain →
      ∃ t, exec (.drainLimit n) s = .next t ∧ (t.port n).st = .hold ∧ (t.port n).lanes = 0 ∧
        (∀ r ∈ t.netReqs, r.port = n → r.held ≠ []) ∧ t.mem = s.mem ∧ ∀ k, k ≠ n → t.port k = s.port k) ∧
    (p.st = .hold → ∃ t, exec (.holdLimit n) s = .next t ∧ PortFaulted s t n)

/-- R44 to R46, R51 to R61, R74, R198: what a port does with traffic. A good flit in order delivers its messages, or lets its control
message act; one under no key is discarded and counted; a bad one is asked for again; a resend past the eighth, a failed direction,
the loss of the last lane and a silent peer are faults; a key at its limit is reported, and a rekey ends with its acknowledgement.
Clauses beyond the rules' words follow the model's choices of log entries 27, 62, 63 and 88. -/
def Obligations.PortTrafficResult : Prop :=
  ∀ (s : State) (n : Nat),
    let p := s.port n
    let up : Prop := p.st = .active ∨ p.st = .drain
    let linkKey (f : Flit) : Prop := Tab.get none p.rxKeys f.kidx ≠ none
    let good (f : Flit) : Prop := f.ok = true ∧ f.seq = p.rxSeq
    let missed (i : Instr) : Prop :=
      ∃ t, exec i s = .next t ∧ Reports s t 0x0106 (leBytes 1 n ++ leBytes 1 14) ∧ t.inbox = s.inbox ∧
        (t.port n).misses = p.misses + 1 ∧ (16 ≤ p.misses + 1 → PortFaulted s t n) ∧ (p.misses + 1 < 16 → (t.port n).st = p.st)
    let askedAgain (i : Instr) : Prop :=
      ∃ t, exec i s = .next t ∧ t = { s with ports := t.ports } ∧ (t.port n).rxSeq = p.rxSeq ∧
        (s.portsQuiet → PortOnly s t n (p.sends .retry))
    (∀ f : Flit, up →
      let keyed : Prop := (f.ttag = 0 ∨ Tab.get 0 s.ttags (256 * n + f.ttag) ≠ 0) ∧ Tab.get none p.rxKeys (2 * f.ttag + f.kidx) ≠ none
      (¬ keyed → missed (.messageFlit n f)) ∧
      (keyed → ¬ good f → askedAgain (.messageFlit n f)) ∧
      (keyed → good f → (f.msgs.map Msg.granules).sum ≤ 15 →
        ∃ t, exec (.messageFlit n f) s = .next t ∧ (t.port n).rxSeq = (f.seq + 1) % 65536 ∧ (t.port n).misses = 0 ∧ t.mem = s.mem ∧
          t.inbox = s.inbox ++ (f.msgs.filter fun m => m.chan != 1 && m.legal p.fixed).map fun m => (n, f.ttag, m))) ∧
    (∀ (f : Flit) (rate tag : Nat) (same : Bool) (id : Dword), ¬ linkKey f →
      ((p.st = .train ∨ (p.st = .verify ∧ p.lanes = 0)) ∧ p.carrier ≠ 0 → missed (.trainingFlit ⟨n, f⟩ rate)) ∧
      (p.st = .ident ∨ (p.st = .verify ∧ p.lanes ≠ 0) → missed (.identityFlit n f id)) ∧
      (p.st ≠ .hold → p.st ≠ .disabled → missed (.carrierLossNotice ⟨n, f⟩)) ∧
      (p.st = .active → missed (.heartbeat ⟨n, f⟩)) ∧ (p.st = .drain → missed (.quiesceDone ⟨n, f⟩)) ∧
      (up → missed (.retrain ⟨n, f⟩ rate same) ∧ missed (.retryRequest n f) ∧ missed (.keyAcknowledge ⟨n, f⟩ tag) ∧
        missed (.keyRetire ⟨n, f⟩ tag))) ∧
    (∀ (f : Flit) (rate tag : Nat) (same : Bool), linkKey f → ¬ good f →
      (p.st = .active → askedAgain (.heartbeat ⟨n, f⟩)) ∧ (p.st = .drain → askedAgain (.quiesceDone ⟨n, f⟩)) ∧
      (up → askedAgain (.retrain ⟨n, f⟩ rate same) ∧ askedAgain (.retryRequest n f) ∧ askedAgain (.keyAcknowledge ⟨n, f⟩ tag) ∧
        askedAgain (.keyRetire ⟨n, f⟩ tag))) ∧
    (∀ f, up → linkKey f → good f →
      let left := p.replay.filter fun x => !seqUpTo x.seq f.ackseq
      (left = [] → ∃ t, exec (.retryRequest n f) s = .next t ∧ t = { s with ports := t.ports } ∧ (t.port n).retry = p.retry) ∧
      (left ≠ [] → (∀ x ∈ left, x.resends < 8) →
        ∃ t, exec (.retryRequest n f) s = .next t ∧ t = { s with ports := t.ports } ∧ (t.port n).retry = p.retry + 1 ∧
          ∀ x ∈ left, { x with resends := x.resends + 1 } ∈ (t.port n).replay) ∧
      ((∃ x ∈ left, 8 ≤ x.resends) →
        ∃ t, exec (.retryRequest n f) s = .next t ∧ Reports s t 0x0106 (leBytes 1 n ++ leBytes 1 10) ∧ (t.port n).st = .fault) ∧
      (∀ tag j b, p.rekeys = [(tag, j, b)] → Tab.get 0 p.inUse tag < 2 →
        ∃ t, exec (.keyAcknowledge ⟨n, f⟩ tag) s = .next t ∧ t = { s with ports := t.ports } ∧
          ((∀ x ∈ left, x.ttag = tag → x.kidx = j) →
            (∀ r ∈ (t.port n).rekeys, r.1 ≠ tag) ∧
            ∀ k, Tab.get none (t.port n).txKeys k = if k = 2 * tag + (1 - j) then none else Tab.get none p.txKeys k) ∧
          ((∃ x ∈ left, x.ttag = tag ∧ x.kidx ≠ j) → (tag, j, true) ∈ (t.port n).rekeys ∧ (t.port n).txKeys = p.txKeys)) ∧
      ∀ tag, Tab.get false p.rxNew tag = true →
        ∃ t, exec (.keyRetire ⟨n, f⟩ tag) s = .next t ∧ t = { s with ports := t.ports } ∧ Tab.get false (t.port n).rxNew tag = false ∧
          ∀ k, Tab.get none (t.port n).rxKeys k =
            if k = 2 * tag + (1 - Tab.get 0 p.rxUse tag) then none else Tab.get none p.rxKeys k) ∧
    (up → p.training = none → p.replay ≠ [] →
      ((∀ f ∈ p.replay, f.resends < 8) →
        ∃ t, exec (.ackTimeout n) s = .next t ∧
          PortOnly s t n { p with retry := p.retry + 1, replay := p.replay.map fun f => { f with resends := f.resends + 1 } }) ∧
      ((∃ f ∈ p.replay, 8 ≤ f.resends) →
        ∃ t, exec (.ackTimeout n) s = .next t ∧ Reports s t 0x0106 (leBytes 1 n ++ leBytes 1 10) ∧ PortFaulted s t n)) ∧
    (∀ tag k, Tab.get 0 p.inUse tag = k → 0xFFFFFFFF0000 ≤ Tab.get 0 p.fctr (2 * tag + k) → 2 * tag + k ∉ p.spent →
      ∃ t, exec (.keyExhaust n tag k) s = .next t ∧ Reports s t 0x0106 (leBytes 1 n ++ leBytes 1 16) ∧
        t.port n = { p with spent := p.spent ++ [2 * tag + k], events := p.events ||| 0x80 }) ∧
    (p.st = .active →
      (∃ t, exec (.heartbeatInterval n) s = .next t ∧ t = { s with ports := t.ports } ∧ (t.port n).silent = p.silent + 1 ∧
        (s.portsQuiet → PortOnly s t n ({ p with silent := p.silent + 1 }.sends .heartbeat))) ∧
      (∀ f, linkKey f → good f →
        ∃ t, exec (.heartbeat ⟨n, f⟩) s = .next t ∧ t = { s with ports := t.ports } ∧ (t.port n).silent = 0 ∧ (t.port n).st = .active) ∧
      (100 ≤ p.silent → ∃ t, exec (.peerSilent n) s = .next t ∧ Reports s t 0x010A (leBytes 1 n ++ leBytes 1 3) ∧ PortFaulted s t n)) ∧
    (p.carrier ≠ 0 →
      (p.st = .hold → ∃ t, exec (.carrierLoss n) s = .next t ∧ PortOnly s t n { p with carrier := 0 }) ∧
      (p.st = .fault →
        ∃ t, exec (.carrierLoss n) s = .next t ∧ Reports s t 0x0106 (leBytes 1 n ++ leBytes 1 9) ∧
          t.port n = { p with carrier := 0, lossDir := false, events := p.events ||| 1 }) ∧
      (p.st ≠ .hold → p.st ≠ .disabled → p.st ≠ .fault →
        ∃ t, exec (.carrierLoss n) s = .next t ∧ Reports s t 0x0106 (leBytes 1 n ++ leBytes 1 9) ∧ PortFaulted s t n ∧
          (t.port n).carrier = 0 ∧ (t.port n).lossDir = false ∧
          ((t.port n).ctl = [.carrierLoss] ∨ ∃ f ∈ (t.port n).replay, f.load = .ctl .carrierLoss))) ∧
    (∀ f, linkKey f → p.st ≠ .hold → p.st ≠ .disabled → p.st ≠ .fault →
      (f.ok = true →
        ∃ t, exec (.carrierLossNotice ⟨n, f⟩) s = .next t ∧ Reports s t 0x0106 (leBytes 1 n ++ leBytes 1 9) ∧ PortFaulted s t n ∧
          (t.port n).lossDir = true) ∧
      (f.ok = false → exec (.carrierLossNotice ⟨n, f⟩) s = .next s)) ∧
    ∀ lane, let left := p.lanes &&& ~~~(1#2 <<< lane)
      left ≠ p.lanes →
      ∃ t, exec (.laneDown n lane) s = .next t ∧ Reports s t 0x0106 (leBytes 1 n ++ leBytes 1 13) ∧ (t.port n).lanes = left ∧
        (left = 0 → PortFaulted s t n) ∧ (left ≠ 0 → (t.port n).st = p.st)


/-! ### Operations that perform (chapters 08, 09 and 13) -/

/-- R177, R209, R211, R249, R263, R367, R402, R403, R407: what one access of a load, a store, an atomic or a trigger window does when it
is made: the value it reads, the bytes it stores and no others, the counter it raises or sets.
Clauses beyond the rules' words follow the model's choices of log entries 19 and 32. -/
def Obligations.AccessPerforms : Prop :=
  ∀ (s : State) (o : PipeOp) (i : Nat) (a : LaneAcc) (lanes : Lanes),
    let wg := s.wg o.wg
    let die := (devicePage a.pa)
    let ctr := windowCounter a.pa
    (∀ n sx, o.kind = .load n sx → OneAccess s o i a (ofLanes lanes o) →
      ∃ t v, exec (.loadPerform o.id lanes) s = .next t ∧ AccDone s t o i v ∧
        ∀ x, s.before o = [] →
          ((a.space = .global ∧ s.accs = [] ∧ x = Memory.read s.mem a.pa n) ∨
            (a.space = .localStore ∧ x = Memory.read wg.localMem a.pa n)) →
          t.mem = s.mem ∧
          v = if sx then (match o.dst with
              | some (.s _) => ((BitVec.ofNat (8 * n) x).signExtend 64).toNat
              | _ => ((BitVec.ofNat (8 * n) x).signExtend 32).toNat)
            else x) ∧
    (∀ n, o.kind = .store n → a.atWindow = false → (∀ x ∈ s.accsIn a.pa n, x.2.spillAt = none) → OneAccess s o i a (fun b => ofLanes lanes o b && !b.atWindow) →
      ∃ t, exec (.storePerform o.id lanes) s = .next t ∧ AccDone s t o i 0 ∧
        (a.space = .global → StoredAt s t a.pa n a.data) ∧
        (a.space = .localStore → t.mem = s.mem ∧
          ∀ k, Memory.byte (t.wg o.wg).localMem k =
            if a.pa ≤ k ∧ k < a.pa + n then BitVec.ofNat 8 (a.data / 256 ^ (k - a.pa)) else Memory.byte wg.localMem k) ∧
        ∀ m, a.space = .pod m → t.mem = s.mem ∧ (t.podLine m (lineOf a.pa)).st = .m ∧
          ∀ k, Memory.byte (t.podLine m (lineOf a.pa)).bytes k =
            if a.pa % 256 ≤ k ∧ k < a.pa % 256 + n then BitVec.ofNat 8 (a.data / 256 ^ (k - a.pa % 256))
            else Memory.byte (s.podLine m (lineOf a.pa)).bytes k) ∧
    (∀ m, o.kind = .atomic m → OneAccess s o i a (ofLanes lanes o) →
      ∃ t v, exec (.atomicPerform o.id lanes) s = .next t ∧ AccDone s t o i v ∧
        let n := if m.d then 8 else 4
        let old := Memory.read s.mem a.pa n
        s.before o = [] → a.space = .global → s.accs = [] →
          v = old ∧
          StoredAt s t a.pa n
            (if m.op = .cas then (if old = a.data % 2 ^ (8 * n) then a.data2 % 2 ^ (8 * n) else old)
             else atomResult m.op.num m.s (8 * n) old a.data 0)) ∧
    (∀ n, o.kind = .store n → a.atWindow = true → windowSets a.pa = false →
      OneAccess s o i a (fun b => b.atWindow && !windowSets b.pa) →
      ∃ t, exec (.triggerWindowAdd o.id) s = .next t ∧ AccDone s t o i 0 ∧ t.mem = s.mem ∧
        let k := s.counter die ctr
        let x := k.value.toNat + a.data % 2 ^ (8 * n) % 2 ^ 48
        t.counter die ctr =
          if s.counterOwner die ctr ≠ wg.part + 1 then k
          else if 2 ^ 48 ≤ x then { k with value := BitVec.ofNat 48 (2 ^ 48 - 1), ovf := true }
          else { k with value := BitVec.ofNat 48 x }) ∧
    ∀ n, o.kind = .store n → a.atWindow = true → windowSets a.pa = true →
      OneAccess s o i a (fun b => b.atWindow && windowSets b.pa) →
      ∃ t, exec (.triggerWindowSet o.id) s = .next t ∧ AccDone s t o i 0 ∧ t.mem = s.mem ∧
        t.counter die ctr =
          if s.counterOwner die ctr ≠ wg.part + 1 then s.counter die ctr
          else { value := BitVec.ofNat 48 (a.data % 2 ^ (8 * n) % 2 ^ 48), err := 0, ovf := false }

/-- R241, R252, R254, R256, R257, R286, R306, R309, R385, R411, R425: the other operations that perform. An accumulate adds its value
exactly to the element's entry; a clear removes the entry and leaves +0; a division writes what its issue fixed; an STB reaches
every member's replica two frames after its own; a walk fills the TLB, whose oldest entry leaves a full one, or records its failure, with the module event of a failing
table sector.
Clauses beyond the rules' words follow the model's choices of log entries 10, 20, 30 and 33. -/
def Obligations.OperationPerforms : Prop :=
  ∀ (s : State) (o : PipeOp),
    let fb := s.fib o.wg o.slot o.fib
    (∀ i a t lanes halves, o.kind = .accum t → OneAccess s o i a (fun b => ofLanes lanes o b && ofHalves halves o b) →
      a.space = .global → (∀ b ∈ o.accs, s.clashes t b = false) → s.sumsBad o.accs = none → s.roomFor t o.accs = true →
      s.accumulateAt a.pa t id ≠ none →
      ∃ u, exec (.accumulatePerform o.id ⟨lanes, halves⟩) s = .next u ∧ AccDone s u o i 0 ∧
        (s.sliceUse (sliceOf a.pa) + 7 ≤ 4096 → (∀ e, s.accAt a.pa = some e → e.spillAt = none) →
          u.mem = s.mem ∧ ∃ e, u.accAt a.pa = some e ∧
            { e with touch := 0 } =
              { ((s.accAt a.pa).getD { ty := t.scalar }).accumulate (decodeVal t.fmt a.data) with spillAt := none, touch := 0 })) ∧
    (∀ i a t lanes halves, o.kind = .accClear t → OneAccess s o i a (fun b => ofLanes lanes o b && ofHalves halves o b) →
      a.space = .global → (∀ b ∈ o.accs, s.clashes t b = false) →
      ∃ u, exec (.accumulatePerform o.id ⟨lanes, halves⟩) s = .next u ∧ AccDone s u o i 0 ∧ u.accAt a.pa = none ∧
        StoredAt s u a.pa t.scalar.bytes 0) ∧
    (∀ fl, s.pipe.find? (fun x => x.id == o.id) = some o → o.kind = .divide fl →
      ∃ u, exec (.divideComplete o.id) s = .next u ∧ (∀ x ∈ u.pipe, x.id ≠ o.id) ∧ u.mem = s.mem ∧
        let g := u.fib o.wg o.slot o.fib
        g.fpstat = fb.fpstat ||| (fl &&& 0x3F) ∧
        (∀ d, o.dst = some (.v d) → ∀ k l, l < 16 → g.vAt k l =
          if d.val ≤ k ∧ k < d.val + o.regs ∧ laneIn o.lanes l = true then BitVec.ofNat 32 (o.valOf l / 2 ^ (32 * (k - d.val)))
          else fb.vAt k l) ∧
        (∀ d, o.dst = some (.s d) → g.sAt d.val = BitVec.ofNat 64 (o.valOf (lowestLane o.lanes)))) ∧
    (∀ n f, s.pipe.find? (fun x => x.id == o.id) = some o → o.kind = .stb n f → f + 3 ≤ s.frame → s.accs = [] →
      ∃ u, exec (.stbPerform o.id) s = .next u ∧ (∀ x ∈ u.pipe, x.id ≠ o.id) ∧
        ∀ a b, o.accs = [a] → Tab.get none s.bwins (a.pa / 2 ^ 40) = some b → (∀ e ∈ b.members, e < 80) →
          a.pa % 2 ^ 21 + n ≤ 2 ^ 21 → ∀ d ∈ b.members, ∀ k, k < n →
          Memory.byte u.mem (b.replica d (a.pa % 2 ^ 40) + k) = BitVec.ofNat 8 (a.data / 256 ^ k)) ∧
    (∀ n f, s.pipe.find? (fun x => x.id == o.id) = some o → o.kind = .stb n f → s.frame < f + 3 → exec (.stbPerform o.id) s = .next s) ∧
    ∀ die asid page p, (die, asid, page) ∈ s.walks → s.asidPart asid = some p →
      let rest : State := { s with walks := s.walks.erase (die, asid, page) }
      let mine := s.tlb.filter fun x => x.die == die
      (∀ bits l, walk s p asid (page * 65536) = .leaf bits l →
        let e : TlbEnt := ⟨die, asid, page * 65536 / 2 ^ bits, bits, l⟩
        (mine.length < 8192 → exec (.pageWalk die asid page) s = .next { rest with tlb := s.tlb ++ [e] }) ∧
        ∀ old more, mine = old :: more → 8192 ≤ mine.length →
          ∃ t, exec (.pageWalk die asid page) s = .next t ∧ t.tlb = s.tlb.filter (· != old) ++ [e] ∧ t.walks = rest.walks ∧
            t.mem = s.mem ∧ ∀ c, old ∉ Tab.get [] t.l1tlb c) ∧
      ∀ level bad, walk s p asid (page * 65536) = .fail level bad →
        exec (.pageWalk die asid page) s =
          .next { rest.reportBad bad with walkFails := s.walkFails ++ [⟨die, asid, page, level, bad.isSome⟩] }

/-- R242, R246 to R248, R250: what a request does to the copies of its line and to the home record at its order point, no access
waiting for the line: RDS shares, RDX, OWN and UPG leave one copy in M, PUTM and PUTO hand an owned copy back and leave none whatever
the copy has become by then, PIN drops every copy; a line that has been pinned meanwhile is served at its home.
Clauses beyond the rules' words follow the model's choices of log entries 78 and 90. -/
def Obligations.OrderPointResult : Prop :=
  ∀ (s : State) (lane : Nat) (r : OrderReq), s.memWf = true → s.nextOrdered lane = some r → s.lineQuiet r.line → r.line < 2 ^ 40 → r.die < 80 →
    let st (x : State) (d : Nat) : Moesi := (x.dieLine d r.line).st
    let mine := st s r.die
    let home := s.home r.line
    let after (i : Instr) (t : State) : Prop := exec i s = .next t ∧ t.mem = s.mem ∧ t.orderQ = dropFirst r s.orderQ
    let alone (t : State) : Prop :=
      st t r.die = .m ∧ (∀ d, d < 80 → d ≠ r.die → st t d = .i) ∧ (t.home r.line).owner = .em r.die
    (home.pinned = true →
      ∃ t, after (match r.kind with
          | .rds => .rds lane | .rdx => .rdx lane | .own => .own lane | .upg => .upg lane | .putm => .putm lane | .puto => .puto lane
          | .pin => .pin lane) t ∧ (∀ d, d < 80 → st t d = st s d) ∧ t.home r.line = home) ∧
    (r.kind = .rds → home.pinned = false → mine ≠ .i →
      ∃ t, after (.rds lane) t ∧ (∀ d, d < 80 → st t d = st s d) ∧ t.home r.line = home) ∧
    (r.kind = .rds → home.pinned = false → mine = .i →
      ∃ t, after (.rds lane) t ∧
        (∀ d, d < 80 → d ≠ r.die → st t d = match st s d with | .m => .o | .e => .s | x => x) ∧
        st t r.die = (if home.owner = .none then .e else .s) ∧ (t.dieLine r.die r.line).waiting = true ∧
        (home.owner = .none → (t.home r.line).owner = .em r.die)) ∧
    (r.kind = .rdx → home.pinned = false → ∃ t, after (.rdx lane) t ∧ alone t ∧
      (mine.owns = false → (t.dieLine r.die r.line).waiting = true)) ∧
    (r.kind = .own → home.pinned = false → ∃ t, after (.own lane) t ∧ alone t) ∧
    (r.kind = .upg → home.pinned = false → ∃ t, after (.upg lane) t ∧ alone t) ∧
    (r.kind = .putm ∨ r.kind = .puto → home.pinned = false →
      ∃ t, after (if r.kind = .putm then .putm lane else .puto lane) t ∧
        (∀ d, d < 80 → st t d = if d = r.die then .i else st s d) ∧
        (mine = .m ∨ mine = .e → (t.home r.line).owner = .none) ∧ (mine = .o → (t.home r.line).owner = .shared) ∧
        (mine = .s ∨ mine = .i → t.home r.line = home)) ∧
    (r.kind = .pin → home.pinned = false →
      ∃ t, after (.pin lane) t ∧ (∀ d, d < 80 → st t d = .i) ∧ (t.home r.line).owner = .none ∧ (t.home r.line).pinned = true)

/-- R25, R136, R246, R248: line data moves a router on, a detour within its cap; where it may arrive it merges beneath what its die has
written, there and in what that die owes; a requester's completion and a write-back close theirs; a blackout moves what its die sends past the remap's frame,
which gives the die its new group.
Clauses beyond the rules' words follow the model's choices of log entries 90 and 116. -/
def Obligations.LineDataAndRemapResult : Prop :=
  ∀ (s : State),
    (∀ m d r, s.mesh.find? (fun x => x.die == m.die && x.line == m.line) = some m → m.ahead = d :: r →
      (s.departs m = true → (m.detour = false ∨ s.vc4Room m.place d m.flits = true) →
        ∃ t, exec (.forwardedData m.die m.line) s = .next t ∧ t.mem = s.mem ∧
          t.mesh = s.mesh.map (fun x => if x == m then { m with place := d, ahead := r } else x) ∧
          t.base.detours = if m.detour = true ∧ r ≠ [] then s.base.detours + m.flits else s.base.detours) ∧
      (s.departs m = false ∨ (m.detour = true ∧ s.vc4Room m.place d m.flits = false) →
        exec (.forwardedData m.die m.line) s = .next s)) ∧
    (∀ m, s.mesh.find? (fun x => x.die == m.die && x.line == m.line) = some m → m.ahead = [] → s.meshReady m = true →
      let d := s.dieLine m.die m.line
      ∃ t, exec (.forwardedData m.die m.line) s = .next t ∧ t.mem = s.mem ∧
        t.mesh = (s.mesh.erase m).map (fun x =>
          if x.fromHome = false ∧ x.src = m.die ∧ x.line = m.line then
            { x with sectors := x.sectors ||| m.sectors, dirty := x.dirty ||| m.dirty }
          else x) ∧
        let e := t.dieLine m.die m.line
        e.st = d.st ∧ (d.st ≠ .i → e.fill = d.fill ||| m.sectors) ∧
        (d.st = .m ∨ d.st = .o → e.dirty = d.dirty ||| m.dirty) ∧
        (e.waiting = true ↔ 1 < (s.mesh.filter fun x => x.die == m.die && x.line == m.line).length)) ∧
    (∀ die line x r, (s.home line).trans = x :: r → x.die = die → (x.kind = .imAd ∨ x.kind = .smA ∨ x.kind = .omA) →
      (∀ m ∈ s.mesh, m.die = die → m.line ≠ line) →
      exec (.requesterCompletion die line) s = .next (s.setHome line { s.home line with trans := r })) ∧
    (∀ line x r, (s.home line).trans = x :: r → x.kind = .miA →
      exec (.dramWriteBack line) s = .next (s.setHome line { s.home line with trans := r })) ∧
    ∀ die r, s.base.remaps.find? (fun x => x.die == die) = some r → (∀ x ∈ s.base.remaps, x.die = die → x = r) →
      (s.frame < r.frame → r.frame ≤ s.frame + 2 → (s.die die).silentFrom ≠ some (r.frame - 2) →
        ∃ t, exec (.blackout die) s = .next t ∧ t.die die = { s.die die with silentFrom := some (r.frame - 2) } ∧ t.mem = s.mem ∧
          ∀ l, (s.die die).logical = some l → ∀ q ∈ t.orderQ, q.die = l → q.frame < r.frame - 2 ∨ r.frame + 4 ≤ q.frame) ∧
      (r.frame ≤ s.frame →
        ∃ t, exec (.remapFrame die) s = .next t ∧ t.die die = { s.die die with group := r.new, silentFrom := some (r.frame - 2) } ∧
          t.base.remaps = s.base.remaps.filter (fun x => x != r) ∧ t.mem = s.mem ∧ t.orderQ = s.orderQ)

/-! ### Messages between modules (chapters 02, 07 and 09) -/

/-- R67, R68, R70, R71, R253: what the home of a line does for another module. Its answers, on the port that the line has then, and its
directory follow the request; a copy that stands in the way is recalled and the request held; data of a failing sector are refused; a
write under a byte mask changes those bytes and no others; an answer to a snoop ends the recall.
Clauses beyond the rules' words follow the model's choices of log entries 28, 29 and 83. -/
def Obligations.PodHomeResult : Prop :=
  ∀ (s : State) (n t : Nat) (m : Msg),
    let line := m.addr / 256
    let k := m.srcmod
    let rest : State := { s with inbox := s.inbox.tail }
    let kept : State := { s with inbox := s.inbox.tail, podHeld := s.podHeld ++ [(n, t, m)] }
    let owned : Prop := s.podOwns n t m = true ∧ s.awaited line = 0 ∧ s.msgShut m = false ∧ k < 16
    let others (p : Nat → Prop) : Prop := ∀ j, j < 16 → j ≠ k → (s.presence line).getLsbD j = true → p j
    let readable (sm : BitVec 4) : Prop := ∀ j, j < 4 → sm.getLsbD j = true → s.sectorFails (256 * line + 64 * j) = false
    let has (u : State) (x : Msg) : Prop := ∀ p a b, s.msgPart n t = some p → s.podRoute p k line = some (a, b) → (u.port a).has b x
    let data (sm : BitVec 4) : Msg := podMsg 4 1 line m.mtag sm 0 (s.bytesAt (256 * line) 256)
    let joined (u : State) : Prop := u.presence line = s.presence line ||| modBit k
    let alone (u : State) : Prop :=
      joined u ∧ Tab.get 0 u.podExcl line = k + 1 ∧ (∀ d, (u.dieLine d line).st = .i) ∧ (u.home line).owner = .none
    let stored (u : State) (mask : BitVec 256) (bs : List Byte) : Prop := (∀ x ∈ s.accsIn (256 * line) 256, x.2.spillAt = none) →
      ∀ a, Memory.byte u.mem a =
      if 256 * line ≤ a ∧ a < 256 * line + 256 ∧ mask.getLsbD (a - 256 * line) = true then bs.getD (a - 256 * line) 0
      else Memory.byte s.mem a
    (∀ x ∈ [(Instr.creqRds, 1), (.creqRdx, 2), (.creqRdc, 3), (.creqUpg, 4), (.creqWbm, 5), (.creqWrs, 6)],
      MsgComes s n t m 2 x.2 → s.podOwns n t m = false → exec x.1 s = .next rest) ∧
    (∀ x ∈ [(Instr.creqRds, 1), (.creqRdx, 2), (.creqRdc, 3), (.creqUpg, 4), (.creqWrs, 6)],
      MsgComes s n t m 2 x.2 → s.podOwns n t m = true →
        (s.awaited line ≠ 0 → exec x.1 s = .next kept) ∧
        (s.awaited line = 0 → s.msgShut m = true → exec x.1 s = .next { rest with podShut := s.podShut ++ [(n, t, m)] })) ∧
    (MsgComes s n t m 2 1 → owned → others (fun j => Tab.get 0 s.podExcl line ≠ j + 1) → s.dirRoom line = true → readable m.smask →
      ∃ u, exec .creqRds s = .next u ∧ joined u ∧ has u (podMsg 3 1 line m.mtag 0) ∧ has u (data m.smask) ∧ u.mem = s.mem ∧
        u.lines = s.lines) ∧
    (MsgComes s n t m 2 2 → owned → others (fun _ => False) → s.dirRoom line = true → readable m.smask →
      ∃ u, exec .creqRdx s = .next u ∧ alone u ∧ has u (podMsg 3 2 line m.mtag 0) ∧ has u (data m.smask) ∧ u.mem = s.mem) ∧
    (MsgComes s n t m 2 3 → owned → others (fun j => Tab.get 0 s.podExcl line ≠ j + 1) → readable m.smask →
      ∃ u, exec .creqRdc s = .next u ∧ u.presence line = s.presence line ∧ has u (data m.smask) ∧ u.mem = s.mem ∧ u.lines = s.lines) ∧
    (MsgComes s n t m 2 3 → owned → others (fun j => Tab.get 0 s.podExcl line ≠ j + 1) →
      (∃ j, j < 4 ∧ m.smask.getLsbD j = true ∧ s.sectorFails (256 * line + 64 * j) = true) →
      ∃ u, exec .creqRdc s = .next u ∧ has u (mkMsg 8 4 m.addr m.mtag 4) ∧ u.presence line = s.presence line ∧ u.mem = s.mem) ∧
    (MsgComes s n t m 2 4 → owned → others (fun _ => False) →
      ((s.presence line).getLsbD k = true →
        ∃ u, exec .creqUpg s = .next u ∧ alone u ∧ has u (podMsg 3 3 line m.mtag 0) ∧ u.mem = s.mem) ∧
      ((s.presence line).getLsbD k = false → s.dirRoom line = true → readable 0xF →
        ∃ u, exec .creqUpg s = .next u ∧ alone u ∧ has u (podMsg 3 2 line m.mtag 0) ∧ has u (data 0xF) ∧ u.mem = s.mem)) ∧
    (MsgComes s n t m 2 5 → s.podOwns n t m = true → (s.awaited line).getLsbD k = true → exec .creqWbm s = .next kept) ∧
    (MsgComes s n t m 2 5 → s.podOwns n t m = true → (s.awaited line).getLsbD k = false →
      (∀ h, s.heldWith m (fun x => x.chan == 4) = some h →
        ∃ u, exec .creqWbm s = .next u ∧ has u (podMsg 3 3 line m.mtag 0) ∧ u.podHeld = s.podHeld.erase h ∧
          stored u m.mask h.2.2.data) ∧
      (s.heldWith m (fun x => x.chan == 4) = none → exec .creqWbm s = .next kept)) ∧
    (MsgComes s n t m 2 6 → owned → others (fun _ => False) →
      (∀ h, s.heldWith m (fun x => x.chan == 4) = some h →
        ∃ u, exec .creqWrs s = .next u ∧ has u (podMsg 3 3 line m.mtag 0) ∧ u.podHeld = s.podHeld.erase h ∧
          (∀ d, (u.dieLine d line).st = .i) ∧ stored u m.mask h.2.2.data) ∧
      (s.heldWith m (fun x => x.chan == 4) = none → exec .creqWrs s = .next kept)) ∧
    (∀ j p q, j < 16 → j ≠ k → (s.presence line).getLsbD j = true → s.podRoute (s.ownerOf (256 * line) - 1) j line = some (p, q) →
      owned →
      let held (i : Instr) (snoop : Nat) : Prop := ∃ u, exec i s = .next u ∧ (u.port p).has q (podMsg 5 snoop line 0 0) ∧
        u.podHeld = s.podHeld ++ [(n, t, m)] ∧ (u.awaited line).getLsbD j = true ∧ u.mem = s.mem ∧ u.lines = s.lines
      (∀ x ∈ [(Instr.creqRdx, 2), (.creqUpg, 4), (.creqWrs, 6)], MsgComes s n t m 2 x.2 → held x.1 1) ∧
      (Tab.get 0 s.podExcl line = j + 1 → ∀ x ∈ [(Instr.creqRds, 1), (.creqRdc, 3)], MsgComes s n t m 2 x.2 → held x.1 2)) ∧
    ∀ x ∈ [(Instr.backi, 1, true), (.backs, 2, false)], MsgComes s n t m 6 x.2.1 → s.podOwns n t m = true →
      (s.awaited line).getLsbD k = true →
      let ended (u : State) : Prop :=
        u.awaited line = s.awaited line &&& ~~~modBit k ∧ Tab.get 0 u.podExcl line ≠ k + 1 ∧
        u.presence line = if x.2.2 then s.presence line &&& ~~~modBit k else s.presence line
      (m.smask = 0 →
        ∃ u, exec x.1 s = .next u ∧ ended u ∧ u.mem = s.mem ∧
          (u.awaited line = 0 → ∀ h ∈ s.podHeld, h.2.2.addr / 256 = line → h ∈ u.inbox)) ∧
      (∀ h, m.smask ≠ 0 → s.heldWith m (fun y => y.chan == 4) = some h →
        ∃ u, exec x.1 s = .next u ∧ ended u ∧ stored u h.2.2.mask h.2.2.data) ∧
      (m.smask ≠ 0 → s.heldWith m (fun y => y.chan == 4) = none → exec x.1 s = .next kept)

/-- R67, R70, R235, R253: what this module's copy of another module's line becomes. A grant and the data of its request settle it, the
data beneath the bytes that this module has written, and data that fail their check values end it without a copy; a snoop of the copy's
own partition drops or shares it, and its modified bytes go home with the answer.
Clauses beyond the rules' words follow the model's choices of log entries 28 and 91. -/
def Obligations.PodRequesterResult : Prop :=
  ∀ (s : State) (n t : Nat) (m : Msg),
    let line := m.addr / 256
    let rest : State := { s with inbox := s.inbox.tail }
    let mine (r : PodReq) : Prop :=
      r ∈ s.podReqs ∧ r.line = line ∧ s.msgPart n t = some r.part ∧ (∀ y ∈ s.podReqs, y.mtag = m.mtag → y = r) ∧ r.mtag = m.mtag ∧
      ∀ o ∈ s.pipe, ∀ a ∈ o.accs, a.space = .pod r.home → lineOf a.pa ≠ line
    let swap (r g : PodReq) : List PodReq := s.podReqs.map fun y => if y = r then g else y
    let foreign : Prop := ∀ r ∈ s.podReqs, r.mtag = m.mtag → r.line = line → s.msgPart n t ≠ some r.part
    let settled (r : PodReq) (grant : Nat) (l : PodLine) : PodLine :=
      if r.opc = 1 ∧ l.st = .i then { l with st := if grant = 2 then .e else .s, part := r.part }
      else if r.opc = 2 ∨ r.opc = 4 then { l with st := if l.dirty = 0 then .e else .m, part := r.part }
      else l
    (∀ x ∈ [(Instr.crspCmps, 1), (.crspCmpe, 2), (.crspCmp, 3)], MsgComes s n t m 3 x.2 →
      (foreign → exec x.1 s = .next rest) ∧
      ∀ r, mine r →
        let l := s.podLine r.home line
        let g : PodReq := { r with granted := some x.2 }
        let done : Prop := r.data = true ∨ (r.opc = 4 ∧ x.2 = 3) ∨ r.opc = 5 ∨ r.opc = 6
        ∃ u, exec x.1 s = .next u ∧ u.mem = s.mem ∧
          (done → u.podReqs = (swap r g).erase g ∧ u.podLine r.home line = settled r x.2 l) ∧
          (¬ done → u.podReqs = swap r g ∧ u.podLine r.home line = l)) ∧
    (MsgComes s n t m 4 1 →
      (∀ r, mine r → r.home = m.srcmod → m.intact = false →
        ∃ u, exec .cdatData s = .next u ∧ u.podReqs = s.podReqs.erase r ∧ u.podLine r.home line = s.podLine r.home line ∧
          u.mem = s.mem) ∧
      (∀ r, mine r → r.home = m.srcmod → m.intact = true →
        let l := s.podLine r.home line
        let g : PodReq := { r with data := true }
        let done : Prop := r.granted ≠ none ∨ r.opc = 3
        ∃ u, exec .cdatData s = .next u ∧ u.mem = s.mem ∧
          let e := u.podLine r.home line
          e.fill = (l.fill ||| m.smask) ∧ e.dirty = l.dirty ∧
          (∀ b, b < 256 → Memory.byte e.bytes b =
            if m.smask.getLsbD (b / 64) = true ∧ l.dirty.getLsbD b = false then m.data.getD b 0 else Memory.byte l.bytes b) ∧
          (done → u.podReqs = (swap r g).erase g ∧ e.st = (settled r (r.granted.getD 0) l).st) ∧
          (¬ done → u.podReqs = swap r g ∧ e.st = l.st)) ∧
      (foreign →
        (∀ h, s.heldWith m (fun x => x.chan == 2 || x.chan == 6) = some h →
          exec .cdatData s = .next { s with podHeld := s.podHeld.erase h ++ [(n, t, m)], inbox := h :: s.inbox.tail }) ∧
        (s.heldWith m (fun x => x.chan == 2 || x.chan == 6) = none →
          exec .cdatData s = .next { s with inbox := s.inbox.tail, podHeld := s.podHeld ++ [(n, t, m)] }))) ∧
    let l := s.podLine m.srcmod line
    let answered (u : State) (opc : Nat) (d : BitVec 256) : Prop :=
      u.mem = s.mem ∧ ∀ p a b, s.msgPart n t = some p → s.podRoute p m.srcmod line = some (a, b) →
        (u.port a).has b (podMsg 6 opc line 0 (if d = 0 then 0 else maskSectors d)) ∧
        (d ≠ 0 → (u.port a).has b (podMsg 4 1 line 0 (maskSectors d) d (Memory.bytes l.bytes 0 256)))
    let gone (i : Instr) : Prop := ∃ u, exec i s = .next u ∧ u.podLine m.srcmod line = {} ∧ answered u 1 (if l.st = .m then l.dirty else 0)
    (∀ x ∈ [(Instr.binv, 1), (.bshr, 2)], MsgComes s n t m 5 x.2 → s.msgPart n t ≠ some l.part →
      ∃ u, exec x.1 s = .next u ∧ answered u 1 0 ∧ u.podLine m.srcmod line = l) ∧
    (MsgComes s n t m 5 1 → s.msgPart n t = some l.part → gone .binv) ∧
    (MsgComes s n t m 5 2 → s.msgPart n t = some l.part →
      (l.st ≠ .i → s.podAsked m.srcmod line = false →
        ∃ u, exec .bshr s = .next u ∧ answered u 2 l.dirty ∧
          u.podLine m.srcmod line = { l with st := .s, dirty := 0, fill := l.fill ||| maskSectors l.dirty }) ∧
      ((l.st = .i ∨ s.podAsked m.srcmod line = true) → gone .bshr))

/-- R73, R84, R176, R181, R183, R186 to R188, R242, R249, R309: the non-coherent messages. A request of a tag's partition becomes work at
its line's home; one that no partition sent or whose bytes failed is refused at once; a fenced CADD waits for the earlier requests of its
port and tag; an answer ends the request of the entry that waits, which then waits for the stores of what it brought. The first work on
its line that may be done is done: a PUT, a GET, an ATOM and an accumulate-put of a partition's own memory are performed and answered, of
other memory they are refused with PERM, and an engine's store is made and counted by the entry that waits for it.
Clauses beyond the rules' words follow the model's choices of log entries 26, 30, 31 and 73. -/
def Obligations.NetworkMessageResult : Prop :=
  (∀ (s : State) (n t : Nat) (m : Msg),
    let has (u : State) (x : Msg) : Prop := (u.port n).has t x
    let rest : State := { s with inbox := s.inbox.tail }
    let kept : State := { rest with podHeld := s.podHeld ++ [(n, t, m)] }
    let job (p : Nat) (w : LineWork) : LineJob := ⟨homeDie m.addr, p, lineOf m.addr, w, .sender n t m⟩
    let accp (data : List Byte) : LineWork := .accp (m.arg.toNat % 128) (m.arg.getLsbD 7) m.mask data
    let plain : Prop := firstPart m = false ∧ (m.images = false ∨ s.heldWith m firstPart = none)
    (∀ x ∈ [(Instr.nreqPut, 1, LineWork.put m.mask m.data), (.nreqGet, 2, .get m.addr (m.arg.toNat % 2 ^ 32) none),
        (.nreqAtom, 3, .atom m.addr (m.arg.toNat % 256) (leAt m.data 0 8) (leAt m.data 8 8) none), (.nreqAccp, 4, accp m.data)],
      MsgComes s n t m 7 x.2.1 → (x.2.1 = 4 → plain) →
        (s.msgPart n t = none → ∃ u, exec x.1 s = .next u ∧ has u (mkMsg 8 4 m.addr m.mtag 3) ∧ u.jobs = s.jobs ∧ u.mem = s.mem) ∧
        ∀ p, s.msgPart n t = some p →
          (m.intact = true → exec x.1 s = .next { rest with jobs := s.jobs ++ [job p x.2.2] }) ∧
          (m.intact = false →
            ∃ u, exec x.1 s = .next u ∧ has u (mkMsg 8 4 m.addr m.mtag 4) ∧ u.jobs = s.jobs ∧ u.mem = s.mem)) ∧
    (MsgComes s n t m 7 4 → firstPart m = true → exec .nreqAccp s = .next kept) ∧
    (∀ h p, MsgComes s n t m 7 4 → firstPart m = false → m.images = true → s.heldWith m firstPart = some h → h.2.2.intact = true →
      m.intact = true → s.msgPart n t = some p →
      exec .nreqAccp s =
        .next { rest with podHeld := s.podHeld.erase h, jobs := s.jobs ++ [job p (accp (h.2.2.data ++ m.data))] }) ∧
    (MsgComes s n t m 7 5 → m.arg.getLsbD 48 = true → s.fenceFree n t = false → exec .nreqCadd s = .next kept) ∧
    (MsgComes s n t m 7 5 → (m.arg.getLsbD 48 = false ∨ s.fenceFree n t = true) →
      let die := m.addr / 4096
      let c := m.addr % 4096
      (s.msgPart n t = none → ∃ u, exec .nreqCadd s = .next u ∧ has u (mkMsg 8 4 m.addr m.mtag 3) ∧ u.counters = s.counters) ∧
      ∀ p, s.msgPart n t = some p →
        (80 ≤ die ∨ s.counterOwner die c ≠ p + 1 →
          ∃ u, exec .nreqCadd s = .next u ∧ has u (mkMsg 8 4 m.addr m.mtag 2) ∧ u.counters = s.counters) ∧
        (die < 80 → s.counterOwner die c = p + 1 → s.isIsolated die = false →
          ∃ u, exec .nreqCadd s = .next u ∧ has u (mkMsg 8 1 m.addr m.mtag 0) ∧ u.mem = s.mem ∧
            u.counter die c = (s.counter die c).add (m.arg.toNat % 2 ^ 48))) ∧
    ∀ r die e, r ∈ s.netReqs → r.port = n → r.ttag = t → r.mtag = m.mtag → r.held = [] →
      (∀ y ∈ s.netReqs, y.port = n → y.ttag = t → y.mtag = m.mtag → y = r) → r.who = .entry die e →
      let x := s.entry die e
      let ends (i : Instr) (y : Entry) (p : State → Prop) : Prop :=
        ∃ u, exec i s = .next u ∧ u.netReqs = s.netReqs.erase r ∧ u.entry die e = y ∧ u.mem = s.mem ∧ p u
      (MsgComes s n t m 8 1 → ends .nrspAck { x with left := x.left - 1 } fun u => u.jobs = s.jobs) ∧
      (MsgComes s n t m 8 4 → (∀ y ∈ s.podReqs, y.mtag ≠ m.mtag) →
        ends .nrspNerr { x with left := x.left - 1, status := if x.status = 0 then m.arg.toNat % 256 else x.status }
          fun u => u.jobs = s.jobs) ∧
      ∀ a, r.dst = some (.global, a) → x.st = .inflight →
        let stores (bs : List Byte) : List LineJob := (linePieces a r.len).map fun y =>
          ⟨die, x.part, y.1, .store (256 * y.1 + y.2.1) ((bs.drop (256 * y.1 + y.2.1 - a)).take y.2.2), .waiter (.entry die e)⟩
        let waits : Entry := { x with left := x.left + (linePieces a r.len).length - 1 }
        (MsgComes s n t m 8 2 → m.intact = true →
          ends .nrspGdata waits fun u => u.jobs = s.jobs ++ stores (byteSlice m.data (m.addr % 256) r.len)) ∧
        (MsgComes s n t m 8 3 → ends .nrspArsp waits fun u => u.jobs = s.jobs ++ stores (leBytes r.len m.arg.toNat))) ∧
  ∀ (s : State) (j : LineJob),
    let u := s.doJob j
    let quiet (pa n : Nat) : Prop := ∀ x ∈ s.accsIn pa n, x.2.spillAt = none
    (((jobHeads s.jobs).filter fun x => !s.jobFrozen x).find? s.jobGoes = some j → s.jobStage = some u) ∧
    (∀ n t m, j.tells = .sender n t m → j.line = lineOf m.addr →
      let has (x : Msg) : Prop := (u.port n).has t x
      let pa := m.addr
      let may : Prop := pa < dramBytes ∧ s.ownerOf (256 * j.line) = j.part + 1 ∧ s.homeGone pa = false ∧ s.homeGone (256 * j.line) = false
      (s.lineOwned j.part j.line = false →
        ((∃ mask data, j.work = .put mask data) ∨ (∃ k, j.work = .get pa k none) ∨ (∃ f x y, j.work = .atom pa f x y none) ∨
          ∃ f i mask data, j.work = .accp f i mask data) →
        has (mkMsg 8 4 pa m.mtag 3) ∧ u.mem = s.mem ∧ u.accs = s.accs) ∧
      (∀ mask data, j.work = .put mask data → may → quiet (256 * j.line) 256 →
        has (mkMsg 8 1 pa m.mtag 0) ∧ ∀ a, Memory.byte u.mem a =
          if 256 * j.line ≤ a ∧ a < 256 * j.line + 256 ∧ mask.getLsbD (a - 256 * j.line) = true then data.getD (a - 256 * j.line) 0
          else Memory.byte s.mem a) ∧
      (∀ len, j.work = .get pa len none → may → 1 ≤ len → pa % 256 + len ≤ 256 → s.badSector pa len = none → s.accs = [] →
        u.mem = s.mem ∧
        has { mkMsg 8 2 pa m.mtag with smask := sectorsOf pa len, data := lineImage (pa % 256) (Memory.bytes s.mem pa len) }) ∧
      (∀ f x y, j.work = .atom pa f x y none → may →
        let k := f % 16
        let e := if f.testBit 4 then 8 else 4
        k ≤ 8 → f < 64 → (f.testBit 5 = true → k = 2 ∨ k = 3) → pa % e = 0 → s.badSector pa e = none → quiet pa e →
        has (mkMsg 8 3 pa m.mtag (s.numAt pa e)) ∧
          StoredAt s u pa e (atomResult k (f.testBit 5) (8 * e) (s.numAt pa e) x y)) ∧
      ∀ f i mask data o, j.work = .accp f i mask data → may → pa % 256 = 0 → f < 128 →
        let ty := f % 16
        let op := f / 16
        let e := if ty = 5 then 8 else 4
        (ty = 4 ∨ ty = 5 → op ≤ 5 → i = false → o % e = 0 → o + e ≤ 256 → mask = byteMask o e → s.badSector (pa + o) e = none →
          (pa + o, e) ∉ s.fresh → quiet (pa + o) e →
          has (mkMsg 8 1 pa m.mtag 0) ∧
          StoredAt s u (pa + o) e
            (atomResult (if op = 0 then 0 else op + 1) true (8 * e) (s.numAt (pa + o) e) (leAt data o e) 0)) ∧
        ∀ ac, afmtAcc ty = some ac → ac.isPair = false → op = 0 → o % ac.bytes = 0 → o + ac.bytes ≤ 256 → mask = byteMask o ac.bytes →
          s.accClash (pa + o) ac = false → s.sumBad (pa + o) = none → s.sliceUse (sliceOf (pa + o)) + 7 ≤ 4096 →
          (∀ e, s.accAt (pa + o) = some e → e.spillAt = none) →
          let old := (s.accAt (pa + o)).getD { ty := ac.scalar }
          let new := if i then old.addImage (AccEnt.ofImages ac.scalar (byteSlice data 0 (imageBytes ac)))
            else old.accumulate (decodeVal ac.fmt (leAt data o ac.bytes))
          has (mkMsg 8 1 pa m.mtag 0) ∧ u.mem = s.mem ∧ ∃ e, u.accAt (pa + o) = some e ∧
            { e with touch := 0 } = { new with spillAt := none, touch := 0 }) ∧
    ∀ die e, j.tells = .waiter (.entry die e) →
      let counted : Prop := u.entry die e = { s.entry die e with left := (s.entry die e).left - 1 }
      (∀ a bs, j.work = .store a bs → s.cutOff j.die a = false → quiet a bs.length →
        counted ∧ ∀ b, Memory.byte u.mem b = if a ≤ b ∧ b < a + bs.length then bs.getD (b - a) 0 else Memory.byte s.mem b) ∧
      ∀ mask data, j.work = .put mask data → s.lineOwned j.part j.line = true → s.homeGone (256 * j.line) = false →
        quiet (256 * j.line) 256 →
        counted ∧ ∀ a, Memory.byte u.mem a =
          if 256 * j.line ≤ a ∧ a < 256 * j.line + 256 ∧ mask.getLsbD (a - 256 * j.line) = true then data.getD (a - 256 * j.line) 0
          else Memory.byte s.mem a

/-! ### Engines and the scheduler (chapters 06, 07, 13 and 14) -/

/-- R175, R180 to R183, R230, R280, R420, R421, R424, R435, R437: the engines. A fired entry that leaves its queue does what its kind
says, a PUT as work at the home of its line, and its completion frees it or posts it again and raises its counter; a release empties its blocks; a command starts with the
places of its pages, and performs: a copy of bytes, the sums of an MMA, the clearing of an accumulator.
Clauses beyond the rules' words follow the model's choices of log entries 30, 34, 71, 79 and 93. -/
def Obligations.EngineResult : Prop :=
  ∀ (s : State),
    (∀ die part e rest, (s.part part).frozen = false → s.net die part = .entry e :: rest → e < 16384 →
      Tab.wf ({} : Entry) s.entries = true →
      let x := s.entry die e
      let img := x.img
      let rd := entRctr img / 4096
      let rc := entRctr img % 4096
      let n := entLen img
      let open_ : Prop := rd < 80 ∧ s.counterOwner rd rc = x.part + 1 ∧ s.isIsolated rd = false
      (x.st = .queued →
        let sent (u : State) : Prop := u.entry die e = { x with st := .inflight, left := 0, status := 0, noting := false }
        (entKind img = 5 → open_ →
          ∃ u, exec (.entryIssue die part) s = .next u ∧ sent u ∧ u.mem = s.mem ∧
            u.counter rd rc = (s.counter rd rc).add (entOpnd img % 2 ^ 48)) ∧
        ∀ lp rp, entKind img = 1 → x.brought = false → 1 ≤ n → entLaddr img % 256 + n ≤ 256 → entRaddr img % 256 + n ≤ 256 → rp % 256 + n ≤ 256 →
          s.engXlat x.part (entAsid img) (entLaddr img) { rd := true } = some (.global, lp) →
          s.engXlat x.part (entAsid img) (entRaddr img) { w := true } = some (.global, rp) →
          s.cutOff die lp = false → s.cutOff die rp = false → s.badSector lp n = none → s.freeIn lp n false = true →
          ∃ u, exec (.entryIssue die part) s = .next u ∧ u.mem = s.mem ∧
            u.entry die e = { x with st := .inflight, left := 1, status := 0, noting := false } ∧
            u.jobs = s.jobs ++ [⟨homeDie rp, x.part, lineOf rp,
              .put (byteMask (rp % 256) n) (lineImage (rp % 256) (s.bytesAt lp n)), .waiter (.entry die e)⟩]) ∧
      (x.st = .inflight → x.left = 0 →
        (∀ pa, x.notes = true → s.engXlat x.part (entAsid img) (entRaddr img) {} = some (.global, pa) → open_ →
          ∃ u, exec (.entryComplete die part) s = .next u ∧ u.entry die e = { x with noting := true, left := 0 } ∧ u.mem = s.mem ∧
            u.counter rd rc = (s.counter rd rc).add 1) ∧
        (x.notes = false → x.status = 0 → x.finish.bind (·.clear) = none →
          ∃ u, exec (.entryComplete die part) s = .next u ∧ (∃ more, u.net die part = rest ++ more) ∧ u.mem = s.mem ∧
            (x.rearm = false → u.entry die e = {}) ∧
            (x.rearm = true → (u.entry die e).thresh = x.thresh + entPeriod img ∧
              ((u.entry die e).st = .posted ∨ (u.entry die e).st = .queued)) ∧
            (entCctr img ≠ 0xFFFF → u.counter die (entCctr img) = (s.counter die (entCctr img)).add 1)))) ∧
    (∀ r, r ∈ s.releases → (∀ y ∈ s.releases, y.die = r.die → y.part = r.part → y = r) →
      (∀ x ∈ s.entries, x.1 / 16384 = r.die → x.1 % 16384 / 256 ∈ r.blocks → x.2.st ≠ .queued ∧ x.2.st ≠ .inflight) →
      ∃ u, exec (.blockRelease r.die r.part) s = .next u ∧ (∀ y ∈ u.releases, y ≠ r) ∧ u.mem = s.mem ∧
        ∀ b ∈ r.blocks, u.blockOwner r.die b = 0 ∧ (∀ k, k < 256 → u.entry r.die (256 * b + k) = {}) ∧
          ∀ k, k < 64 → u.counter r.die (64 * b + k) = {}) ∧
    ∀ core c rest, (s.wg c.wg).lcore = core →
      let w := s.wg c.wg
      let k := s.core core
      let placed : Prop := ∀ r ∈ c.kind.pieces w, ∃ g sp pa, s.placePiece w c.kind r = .at_ g sp pa ∧ (r.write = true → ∀ m, sp ≠ .remote m)
      let starts (i : Instr) (q : Core → List Cmd) : Prop := ∃ u c', exec i s = .next u ∧ (q (u.core core)).head? = some c' ∧
        c' = { c with started := true, trans := c'.trans, tiles := c'.tiles, hosts := c'.hosts } ∧ u.mem = s.mem ∧
        ∀ r ∈ c.kind.pieces w, ∀ g sp pa, s.placePiece w c.kind r = .at_ g sp pa → (g, sp, pa) ∈ c'.trans
      (k.copyQ = c :: rest → c.started = false → placed → starts (.copyCommandStart core) Core.copyQ) ∧
      (k.matQ = c :: rest → c.started = false → (∀ x ∈ k.copyQ, c.after ≠ some x.id) → placed → starts (.matrixCommandStart core) Core.matQ) ∧
      (c.started = true → c.sent = false → c.trap = none → c.nak = false → c.closing = none →
        (∀ n l a b, k.copyQ = c :: rest → c.kind = .acp n true true [(l, a, b)] → w.localFails a n = none →
          ∃ u, exec (.copyCommandPerform core) s = .next u ∧ (∀ x ∈ (u.core core).copyQ, x.id ≠ c.id) ∧ u.mem = s.mem ∧
            ∀ o, Memory.byte (u.wg c.wg).localMem o =
              if b ≤ o ∧ o < b + n then Memory.byte w.localMem (a + (o - b)) else Memory.byte w.localMem o) ∧
        (∀ acc ls a p, k.matQ = c :: rest → c.kind = .maccld acc .zero ls a p →
          ∃ u, exec (.matrixCommandPerform core) s = .next u ∧ (∀ x ∈ (u.core core).matQ, x.id ≠ c.id) ∧ u.mem = s.mem ∧
            ∀ i j, i < 32 → j < 32 → (u.wg c.wg).accElem acc false i j = 0) ∧
        ∀ acc ta tb ts fsa fsb m fa fb, k.matQ = c :: rest → c.kind = .mma acc ta tb ts fsa fsb m →
          let x := c.mmaTiles ts
          (w.fmtSlot fsa).format = some fa → (w.fmtSlot fsb).format = some fb → ternReserved fa x.1 = none → ternReserved fb x.2.1 = none →
          ∃ u, exec (.matrixCommandPerform core) s = .next u ∧ (∀ y ∈ (u.core core).matQ, y.id ≠ c.id) ∧ u.mem = s.mem ∧
            ∀ i j, i < 32 → j < 32 →
              let out : Fmt := if fa = .fp64 then .fp64 else .fp32
              let old := if m.z then 0 else flushIn out m.ftzi (w.accElem acc (fa == .fp64) i j)
              let products := (List.range fa.depth).map fun q =>
                (operandValue (w.fmtSlot fsa) fa m.ftzi x.1 x.2.2 0 i q, operandValue (w.fmtSlot fsb) fb m.ftzi x.2.1 x.2.2 1024 j q)
              (u.wg c.wg).accElem acc (fa == .fp64) i j =
                flushOut out m.ftzo (matrixSum (sumWidth fa fb) out products (decodeVal out old)) % 2 ^ (if fa = .fp64 then 64 else 32))

/-- R98, R154 to R156, R163, R166 to R170, R207, R208, R225, R333 to R335: the scheduler. A run starts with its patches and its roots
ready; a ready node becomes active; a decision places the next workgroup; a node that is complete releases its successors, and the
last one ends the run with an event; promotion, pre-emption, the watchdog and the hand-off do what their rules say.
Clauses beyond the rules' words follow the model's choices of log entries 9, 65, 66, 67 and 68. -/
def Obligations.SchedulerResult : Prop :=
  ∀ (s : State),
    (∀ h g q rest, s.graph h = some g → g.run = none → g.queue = q :: rest → (s.part g.part).st = .active →
      ∃ u r, exec (.runStart h) s = .next u ∧ u.graph h = some { g.patch q.patches with queue := rest, run := some r } ∧
        r.func = q.func ∧ r.tag = q.tag ∧ r.seq = q.seq ∧ r.stopped = none ∧ u.mem = s.mem ∧ (u.part g.part).codeImage = s.mem ∧
        ∀ n ∈ (g.patch q.patches).offsets, (r.node n).remaining = (g.patch q.patches).npred n ∧
          (r.node n).st = if (g.patch q.patches).npred n = 0 then .ready else .waiting) ∧
    (∀ h n g r, s.graph h = some g → g.run = some r →
      let x := r.node n
      let now (u : State) (p : Run → Prop) : Prop := ∃ r', u.graph h = some { g with run := some r' } ∧ p r'
      ((s.part g.part).st = .active → x.st = .ready → s.kindLegal g n = true →
        let starts (p : State → Prop) : Prop := ∃ u, exec (.nodeDispatch h n) s = .next u ∧ u.mem = s.mem ∧ p u ∧
          now u fun r' => r'.node n = { x with st := .active } ∧ ∀ k, k ≠ n → r'.node k = r.node k
        (g.kind n = 1 → (g.launch n).total = 0 ∨ s.neverFits (s.part g.part) (g.launch n) (g.launch n).gang = false →
          starts fun _ => True) ∧
        (g.kind n = 3 → g.aux n = 0xFF → starts fun u => u.funcs = s.funcs) ∧
        (g.kind n = 2 ∨ g.kind n = 4 →
          let d := (s.part g.part).firstDie
          starts fun u => u.net d g.part = s.net d g.part ++ [.node h n])) ∧
      (x.st = .active → g.kind n = 1 → x.out = 0 → (g.launch n).total ≤ x.next →
        ((∃ o ∈ g.offsets, o ≠ n ∧ (r.node o).st ≠ .done ∧ (r.node o).st ≠ .skipped) →
          ∃ u, exec (.nodeDone h n) s = .next u ∧ u.mem = s.mem ∧ now u fun r' => (r'.node n).st = .done ∧
            ∀ k, g.succs n = [k] → k ≠ n → (r'.node k).remaining = (r.node k).remaining - 1 ∧
              (r'.node k).st = if (r.node k).st = .waiting ∧ (r.node k).remaining ≤ 1 then .ready else (r.node k).st) ∧
        ((∀ o ∈ g.offsets, o ≠ n → (r.node o).st = .done ∨ (r.node o).st = .skipped) → g.succs n = [] →
          ∃ u, exec (.nodeDone h n) s = .next u ∧ u.mem = s.mem ∧ u.graph h = some { g with run := none } ∧
            let f := s.func r.func
            let result : List Byte := match r.stopped, r.nak with
              | some (st, k), _ => leBytes 1 1 ++ leBytes 1 st ++ leBytes 2 0 ++ leBytes 4 r.seq ++ leBytes 4 k
              | none, some k => leBytes 1 0 ++ leBytes 1 1 ++ leBytes 2 0 ++ leBytes 4 r.seq ++ leBytes 4 k
              | none, none => leBytes 1 0 ++ leBytes 1 0 ++ leBytes 2 0 ++ leBytes 4 r.seq ++ leBytes 4 0
            f.events.length < 4096 → (r.func = 0 ∨ f.part ≠ none) →
              (u.func r.func).events =
                f.events ++ [(f.evseq + 1, eventBytes 1 g.part (f.evseq + 1) s.stamp (leBytes 8 r.tag.toNat ++ result))])) ∧
      (∃ u, exec (.promotion h n) s = .next u ∧ u.mem = s.mem ∧
        (now u fun r' => r'.node n = { x with promoted := x.promoted || decide (2 ^ 20 ≤ x.passed) }) ∧
        ∀ i w, Tab.get none s.wgs i = some w → w.graph = h → w.node = n →
          u.wg i = { w with promoted := w.promoted || decide (2 ^ 20 ≤ w.passed) }) ∧
      ∀ ldie round p y vc lc, s.decision = some (round, p, y, [(vc, lc)]) → lc / 48 = ldie → y.saved = [] → y.handle = h → y.node = n →
        ∃ u, exec (.dispatchDecision ldie) s = .next u ∧ u.mem = s.mem ∧ u.nextWg = s.nextWg + 1 ∧
          let w := u.wg s.nextWg
          w.place = .resident ∧ w.vcore = vc ∧ w.lcore = lc ∧ w.part = g.part ∧ w.graph = h ∧ w.node = n ∧ w.index = x.next ∧
          w.runSeq = r.seq ∧ w.launch = g.launch n ∧ now u fun r' => (r'.node n).next = x.next + 1 ∧ (r'.node n).out = x.out + 1) ∧
    ∀ i, let w := s.wg i
      (∀ ps, w.place = .resident → s.preemptReady w = true → s.leavers w = [i] →
        s.recordPieces w.part w.launch (s.freeRecord w) = some ps →
        (s.leaveRoom w).all (fun q => s.storeReady w.die q.1 q.2) = true →
        ∃ u, exec (.preemption i) s = .next u ∧ (u.wg i).place = .saved (s.freeRecord w) s.free ∧ (u.wg i).accs = [] ∧
          (∀ o ∈ u.pipe, o.wg = i → o.kind.ofNetwork = true) ∧
          ∀ k j, let fb := s.fib i k j
            let fb' := u.fib i k j
            fb.st = .current → fb.arrival = none →
              fb'.st = .waiting ∧ fb'.restart = fb.restart ∧ fb'.livein = fb.livein ∧ fb'.live = fb.live ∧
              (∀ l, l < 16 → laneIn fb.live l = true → fb'.pcAt l = fb.restart) ∧
              (Tab.wf 0 fb.v = true → ∀ v l, l < 16 → v < fb.livein.nv → fb'.vAt v l = fb.vAt v l) ∧
              ∀ v, v < 128 → v < fb.livein.ns → fb'.sAt v = fb.sAt v) ∧
      (∀ x k j fb, s.runs w = true → s.expired w = some (x, k, j, fb) → (∀ o ∈ s.pipe, o.wg ≠ i) →
        ∃ u, exec (.watchdogExpiry i) s = .next u ∧ Tab.get none u.wgs i = none ∧
          (u.part w.part).frseq = (s.part w.part).frseq + 1 ∧
          let rec_ := faultRecord s w k j (fb.pc.getD ((lanesOf fb.live).headD 0) 0) fb.live 6 3 ((s.part w.part).frseq + 1)
            ⟨.barrierTimeout, 0xFF, 0, (watchFields w x fb).getD 0 0 + 256 * (watchFields w x fb).getD 1 0⟩
          (s.part w.part).faultQ.length < 4096 →
            (u.part w.part).faultQ = (s.part w.part).faultQ ++ [((s.part w.part).frseq + 1, rec_)]) ∧
      ∀ k f g, (s.slot i k).current = some f → s.handOffTo i k = some g →
        ∃ u, exec (.handOff i k) s = .next u ∧ u.mem = s.mem ∧ (u.slot i k).current = some g ∧ (u.fib i k g).st = .current ∧
          (u.fib i k f).st = .waiting ∧ (u.fib i k f).latches = [] ∧ (∀ j, SameRegs (s.fib i k j) (u.fib i k j)) ∧
          ∀ j, (u.fib i k j).pc = (s.fib i k j).pc

/-! ### The Ethernet port and the module (chapters 01, 03 and 04) -/

/-- R76, R77, R81 to R87, R108: the Ethernet port and RoCEv2. Frames for no function are counted and dropped; ARP and neighbour discovery
are answered; what is sent waits while the link is down or the port's priority is paused, and with the link up again the outstanding
requests are retried and what waited follows. A host's request reaches memory through its window alone, behind earlier ones of its
queue pair, and is acknowledged; a queue pair's error, rate and answers are kept; a read's bytes become stores of the waiting command.
Clauses beyond the rules' words follow the model's choices of log entries 30, 37, 92, 99, 109, 110 and 111. -/
def Obligations.EthernetResult : Prop :=
  (∀ (s : State),
    let b := s.base
    let sent (m : EthMsg) : State :=
      if s.ethStopped = true then { s with ethWait := s.ethWait ++ [m] } else { s with ethOut := s.ethOut ++ [m] }
    let packets (m : EthMsg) : List EthMsg := match m with
      | .write fn qp tag key addr bs => (mtuPieces bs).map fun p => .write fn qp tag key (addr + p.1) p.2
      | m => [m]
    (∀ bad len mac,
      let stray : Prop := bad = true ∨ 9216 < len ∨ ∀ f, f < 64 → funcMac f ≠ mac
      (b.ethDown = false → stray →
        exec (.ethernetFrameDiscard bad len mac) s = .next { s with base := { b with ethDiscards := b.ethDiscards + 1 } }) ∧
      (b.ethDown = true ∨ ¬ stray → exec (.ethernetFrameDiscard bad len mac) s = .next s)) ∧
    (∀ fn ip, b.ethDown = false → fn < 64 →
      exec (.arp fn ip) s = .next (if (s.func fn).ip4 = ip then sent (.arpReply fn ip) else s) ∧
      exec (.neighbourDiscovery fn ip) s = .next (if (s.func fn).ip6 = ip then sent (.neighbourReply fn ip) else s)) ∧
    (∀ fn ip, b.ethDown = true → exec (.arp fn ip) s = .next s ∧ exec (.neighbourDiscovery fn ip) s = .next s) ∧
    (∀ prio pause, b.ethDown = true ∨ 8 ≤ prio ∨ b.pfc.getLsbD prio = false → exec (.priorityFlowControl prio pause) s = .next s) ∧
    (∀ prio pause, b.ethDown = false → prio < 8 → b.pfc.getLsbD prio = true →
      ∃ t, exec (.priorityFlowControl prio pause) s = .next t ∧
        t = { s with base := { b with pauses := t.base.pauses }, ethOut := t.ethOut, ethWait := t.ethWait } ∧
        (∀ k, k < 8 → t.base.pauses.getLsbD k = if k = prio then pause else b.pauses.getLsbD k) ∧
        if t.ethStopped = true then t.ethOut = s.ethOut ∧ t.ethWait = s.ethWait else t.ethOut = s.ethOut ++ s.ethWait ∧ t.ethWait = []) ∧
    exec .ethernetLinkDown s = .next { s with base := { b with ethDown := true, pauses := 0 } } ∧
    (b.ethDown = false → exec .ethernetLinkUp s = .next s) ∧
    (b.ethDown = true →
      ∃ t, exec .ethernetLinkUp s = .next t ∧ t = { s with base := { b with ethDown := false }, ethOut := t.ethOut, ethWait := t.ethWait } ∧
        (b.pauses.getLsbD b.txPrio = false → t.ethWait = [] ∧ t.ethOut = s.ethOut ++
          ((s.hostOps.filter fun o => o.sent && !s.ethWait.contains o.msg).flatMap fun o => packets o.msg) ++ s.ethWait))) ∧
  ∀ (s : State), s.base.ethDown = false →
    let b := s.base
    let quiet (pa n : Nat) : Prop := ∀ x ∈ s.accsIn pa n, x.2.spillAt = none
    (∀ q : RdmaReq, s.ethStopped = false → q.func < 64 → q.qp < 1024 → (s.qp q.func q.qp).error = false → q.ecn = false →
      (∀ x ∈ s.rdmaHeld, x.on q.func q.qp = false) →
      let found := (s.func q.func).windows.find? fun x => match x.2 with | some w => w.key == q.key | none => false
      let tells (t : State) (m : EthMsg) : Prop := t.ethOut.getLast? = some m
      let refused (i : Instr) : Prop := ∃ t, exec i s = .next t ∧ tells t (.nakAccess q.func q.qp) ∧ t.mem = s.mem
      ((s.func q.func).part = none → refused (.rdmaWrite q) ∧ refused (.rdmaRead q)) ∧
      (∀ p, (s.func q.func).part = some p → found = none →
        refused (.rdmaWrite q) ∧ refused (.rdmaRead q) ∧
        (q.va % 8 = 0 → refused (.compareSwap q) ∧ refused (.fetchAdd q))) ∧
      (q.va % 8 ≠ 0 → ∀ i ∈ [Instr.compareSwap q, .fetchAdd q],
        exec i s = .next { s with ethOut := s.ethOut ++ [.nakInvalid q.func q.qp] }) ∧
      ∀ p k w pa, (s.func q.func).part = some p → found = some (k, some w) → w.base ≤ q.va →
        let room (n : Nat) : Prop := 1 ≤ n ∧ q.va + n ≤ w.base + w.len ∧ q.va % 65536 + n ≤ 65536 ∧ pa % 2 ^ 21 + n ≤ 2 ^ 21
        (room q.data.length → w.perms.getLsbD 1 = true → s.engXlat p w.asid q.va { w := true } = some (.global, pa) →
          s.storeReady (homeDie pa) pa q.data.length = true → s.homeGone pa = false → quiet pa q.data.length →
          ∃ t, exec (.rdmaWrite q) s = .next t ∧ tells t (.ack q.func q.qp) ∧ ∀ a, Memory.byte t.mem a =
            if pa ≤ a ∧ a < pa + q.data.length then q.data.getD (a - pa) 0 else Memory.byte s.mem a) ∧
        (room q.data.length → w.perms.getLsbD 1 = true → s.engXlat p w.asid q.va { w := true } = some (.global, pa) →
          s.homeGone pa = true →
          exec (.rdmaWrite q) s = .next { s with ethOut := s.ethOut ++ [.nakOperational q.func q.qp] }) ∧
        (room q.len → w.perms.getLsbD 0 = true → s.engXlat p w.asid q.va { rd := true } = some (.global, pa) →
          s.freeIn pa q.len false = true → s.badSector pa q.len = none →
          exec (.rdmaRead q) s = .next { s with
            ethOut := s.ethOut ++ (mtuPieces (s.bytesAt pa q.len)).map fun x => .readResp q.func q.qp x.2 }) ∧
        (room 8 → q.va % 8 = 0 → w.perms.getLsbD 2 = true →
          s.engXlat p w.asid q.va { rd := true, w := true, a := true } = some (.global, pa) →
          s.storeReady (homeDie pa) pa 8 = true → s.homeGone pa = false → s.badSector pa 8 = none → quiet pa 8 →
          let old := s.numAt pa 8
          (∃ t, exec (.compareSwap q) s = .next t ∧ tells t (.atomicResp q.func q.qp old) ∧
            StoredAt s t pa 8 (if old = q.cmp.toNat then q.opnd.toNat else old)) ∧
          ∃ t, exec (.fetchAdd q) s = .next t ∧ tells t (.atomicResp q.func q.qp old) ∧
            StoredAt s t pa 8 ((old + q.opnd.toNat) % 2 ^ 64))) ∧
    (∀ q p k w pa, q.func < 64 → q.qp < 1024 → (s.qp q.func q.qp).error = false → q.ecn = false →
      (∃ x ∈ s.rdmaHeld, x.on q.func q.qp = true) → (s.func q.func).part = some p →
      (s.func q.func).windows.find? (fun x => match x.2 with | some w => w.key == q.key | none => false) = some (k, some w) →
      w.base ≤ q.va → 1 ≤ q.data.length → q.va + q.data.length ≤ w.base + w.len → q.va % 65536 + q.data.length ≤ 65536 →
      w.perms.getLsbD 1 = true → s.engXlat p w.asid q.va { w := true } = some (.global, pa) →
      ∃ t, exec (.rdmaWrite q) s = .next t ∧ t.mem = s.mem ∧ t.ethOut = s.ethOut ∧
        t.rdmaHeld = s.rdmaHeld ++ [{ kind := .write, req := q, pieces := [(pa, q.data.length)] }]) ∧
    (∀ fn qp, fn < 64 → qp < 1024 →
      let x := s.qp fn qp
      (∀ ecn o, s.ethStopped = false → x.error = false →
        ∃ t, exec (.unsupportedOpcode fn ⟨qp, ecn⟩ o) s = .next t ∧ (t.qp fn qp).error = true ∧ .nakInvalid fn qp ∈ t.ethOut ∧
          t.mem = s.mem) ∧
      (∃ t, exec (.cnp fn qp) s = .next t ∧ t = { s with funcs := t.funcs } ∧ t.qp fn qp = { x with rate := max b.rateMin (x.rate / 2) }) ∧
      ∃ t, exec (.rateRestore fn qp) s = .next t ∧ t = { s with funcs := t.funcs } ∧
        t.qp fn qp = { x with rate := min 81920 (x.rate + b.rateStep) }) ∧
    ∀ o core id ecn, s.hostOp? o.func o.qp o.tag = some o → o.who = .cmd core id → (∃ c ∈ (s.core core).copyQ, c.id = id) →
      let left (n : Nat) (c : Cmd) : Cmd := if c.id = id then { c with left := c.left + n - 1 } else c
      let rest := s.hostOps.erase o
      let others := if (s.qp o.func o.qp).error = true then rest else (sendable o.func o.qp 0 rest).1
      let answered (i : Instr) (n : Nat) (p : State → Prop) : Prop :=
        ∃ t, exec i s = .next t ∧ t.hostOps = others ∧ t.mem = s.mem ∧ (t.core core).copyQ = (s.core core).copyQ.map (left n) ∧ p t
      (o.dst = none → answered (.acknowledgement o.func ⟨o.qp, ecn⟩ o.tag) 0 fun t => t.jobs = s.jobs) ∧
      (∀ a d, o.dst = some (.global, a) →
        answered (.readResponse o.func ⟨o.qp, ecn⟩ o.tag d) (linePieces a o.len).length fun t =>
          t.jobs = s.jobs ++ (linePieces a o.len).map fun y =>
            ⟨core / 48, s.waiterPart o.who, y.1,
              .store (256 * y.1 + y.2.1) (((byteSlice d 0 o.len).drop (256 * y.1 + y.2.1 - a)).take y.2.2), .waiter o.who⟩) ∧
      (∃ t, exec (.nak o.func ⟨o.qp, ecn⟩ o.tag false) s = .next t ∧ t.hostOps = others ∧ t.mem = s.mem ∧
        (t.core core).copyQ =
          (s.core core).copyQ.map fun c => if c.id = id then { c with left := c.left - 1, nak := true } else c) ∧
      ∃ t, exec (.nak o.func ⟨o.qp, ecn⟩ o.tag true) s = .next t ∧ (t.qp o.func o.qp).error = true ∧ t.mem = s.mem

/-- R24 to R32, R36 to R41, R104, R105, R133 to R138, R141, R337, R338: the module. A freeze keeps its cause and its image; a
temperature or a power above its limit slows the dies, a trip freezes the module and asks for power to be removed; a scrub marks a bad
sector; a quarantined core and a fenced die leave service; a new routing table is committed or waits; a reset empties the machine and
keeps its records.
Clauses beyond the rules' words follow the model's choices of log entries 11, 57, 58, 59, 60, 61, 97 and 116. -/
def Obligations.ModuleEventResult : Prop :=
  ∀ (s : State),
    let b := s.base
    (∀ die, die < 84 → b.frozen = none →
      exec (.orderSlotError die) s = .next { s with base := { b with frozen := some .orderSlot, image := some s.dumpModule } }) ∧
    (∀ mask, mask ≠ b.lantern →
      let n := ((List.range 8).filter fun k => mask.getLsbD k).length
      ∃ t, exec (.lantern mask) s = .next t ∧ t.base.lantern = mask ∧ t.mem = s.mem ∧
        Reports s t 0x0103 (leBytes 1 n ++ leBytes 1 mask.toNat) ∧ (6 ≤ n → t.base.frozen = b.frozen) ∧
        (n < 6 → b.frozen = none → t.base.frozen = some .dark ∧ t.base.image ≠ none)) ∧
    (∀ die, die < 84 →
      let d := s.die die
      let limit (k : Nat) : Int := if k = 5 then 760 else 840
      let seen (k : Nat) : Prop := k < 8 ∧ k ≠ 6
      (∀ k r, seen k →
        let bit : Byte := 1#8 <<< k
        let sensed : Die :=
          { d with sensors := Tab.set 0 d.sensors k r, hot := if limit k ≤ r.toInt then d.hot ||| bit else d.hot &&& ~~~bit }
        (r.toInt < limit k - 80 → ∃ t, exec (.warning die k r) s = .next t ∧ t.mem = s.mem ∧ t.die die = sensed ∧ t.funcs = s.funcs) ∧
        (limit k - 80 ≤ r.toInt → ∃ t, exec (.warning die k r) s = .next t ∧ t.mem = s.mem ∧ t.die die = { sensed with warn := true } ∧
          Reports s t 0x0104 (leBytes 1 die ++ leBytes 1 k ++ leBytes 1 0 ++ leBytes 1 0 ++ leBytes 2 r.toNat))) ∧
      (∀ rs : List Half,
        ((∃ k, seen k ∧ limit k ≤ (rs.getD k 0).toInt) →
          ∃ t, exec (.thermalThrottle die rs) s = .next t ∧ t.mem = s.mem ∧ (t.die die).kTherm = min 8 (d.kTherm + 1) ∧
            (t.die die).warn = true ∧
            ∀ k, k < 8 → Tab.get 0 (t.die die).sensors k = rs.getD k 0 ∧
              ((t.die die).hot.getLsbD k = true ↔ seen k ∧ limit k ≤ (rs.getD k 0).toInt)) ∧
        ((∀ k, seen k → (rs.getD k 0).toInt ≤ limit k - 40) →
          ∃ t, exec (.thermalRelease die rs) s = .next t ∧ t.mem = s.mem ∧ (t.die die).kTherm = d.kTherm - 1 ∧ (t.die die).hot = 0)) ∧
      (∀ k r, seen k → limit k + 80 ≤ r.toInt →
        ∃ t, exec (.trip die k r) s = .next t ∧ t.mem = s.mem ∧ (∀ e, e < 84 → (t.die e).trip = true) ∧
          t.base.askedOff = true ∧ (b.frozen = none → t.base.frozen = some .trip) ∧
          Reports s t 0x0104 (leBytes 1 die ++ leBytes 1 k ++ leBytes 1 1 ++ leBytes 1 0 ++ leBytes 2 r.toNat)) ∧
      (∀ n, n ≠ 0 → ∃ t, exec (.wearManagement die n) s = .next t ∧ t.mem = s.mem ∧ t.die die = { d with pgret := d.pgret + n }) ∧
      (∀ l x n, d.logical = some l → 64 * x < dramBytes → homeDie (64 * x) = l →
        let marks (t : State) : Prop := t.mem = s.mem ∧ t.die die = { d with soft := d.soft + n } ∧
          ∀ y, Tab.get false t.failing y = if y = x then true else Tab.get false s.failing y
        (∀ i ∈ [Instr.dramScrub die ⟨[x], [], []⟩ n, .sramScrub die ⟨[x], [], []⟩ n],
          ∃ t, exec i s = .next t ∧ marks t ∧
            (Tab.get false s.reported x = false → s.homeFenced (64 * x) = false →
              Reports s t 0x0105 (leBytes 4 0 ++ leBytes 8 (64 * x)))) ∧
        ∀ i ∈ [Instr.dramScrub die ⟨[], [x], []⟩ n, .sramScrub die ⟨[], [x], []⟩ n],
          ∃ t, exec i s = .next t ∧ marks t ∧ t.reported = s.reported ∧ t.funcs = s.funcs)) ∧
    (∀ k r, k < 16 → exec (.warning 0xFF k r) s =
      .next { s with base := { b with frameSensors := Tab.set 0 b.frameSensors k r } }) ∧
    (let all (t : State) (f : Nat → Nat) : Prop := t.mem = s.mem ∧ ∀ d, d < 84 →
       t.die d = (s.die d).retime s.tick fun x => { x with kPower := f x.kPower }
     (∀ w, 24000 < w → ∃ t, exec (.sustainedPower w) s = .next t ∧ all t fun k => min 8 (k + 1)) ∧
     (∀ w, 25000 < w → ∃ t, exec (.peakPower w) s = .next t ∧ all t fun k => min 8 (k + 2)) ∧
     ∀ w v, w ≤ 23500 → v ≤ 24500 → ∃ t, exec (.powerRelease w v) s = .next t ∧ all t fun k => k - 1) ∧
    (∀ c cause, c < 3840 → (s.cairnOf c).serv = .inService → (s.cairnOf c).cfeat.getLsbD 0 = true →
      ∃ t, exec (.quarantine c cause) s = .next t ∧ t.mem = s.mem ∧ t.cairnOf c = { s.cairnOf c with serv := .quarantined, sick := true } ∧
        Reports s t 0x0108 (leBytes 2 c ++ leBytes 1 cause)) ∧
    (∀ r : RouteCheck,
      let region := s.regionOf (if r.acyclic then [] else r.isolated)
      let active (old : Option (List Route)) : Module := { b with
        rtver := (b.rtver + 1) % 2 ^ 32, epoch := !b.epoch, pendingTable := none, isolated := region, table := r.routes, oldTable := old }
      let taken (i : Instr) : Prop :=
        (b.pendingTable ≠ none → exec i s = .next { s with base := { b with pendingTable := some r } }) ∧
        (b.pendingTable = none → b.oldTable ≠ none → exec i s = .next { s with base := { b with nextTable := some r } }) ∧
        (b.pendingTable = none → b.oldTable = none → r.unionAcyclic = false →
          exec i s = .next { s with base := { b with pendingTable := some r } }) ∧
        (b.pendingTable = none → b.oldTable = none → r.unionAcyclic = true →
          ∃ t, exec i s = .next t ∧ t.mem = s.mem ∧ t.base = active (if s.mesh = [] then none else some b.table))
      taken (.routingTable r) ∧ (b.isolated ≠ [] → region ≠ b.isolated → taken (.routingRetry r)) ∧
      (b.isolated = [] ∨ region = b.isolated → exec (.routingRetry r) s = .next s) ∧
      (b.pendingTable = some r →
        (s.mesh ≠ [] → exec .drainCommit s = .next s) ∧
        (s.mesh = [] → b.deferred = [] → ∃ t, exec .drainCommit s = .next t ∧ t.mem = s.mem ∧ t.base = active none))) ∧
    (∀ die, die < 84 → ((s.die die).st = 0 ∨ (s.die die).st = 2) →
      let d := s.die die
      (∀ cause r, ∃ t, exec (.fieldFence die ⟨cause, r⟩) s = .next t ∧ t.mem = s.mem ∧ (t.die die).st = 3 ∧
        t.base.fieldFenced = b.fieldFenced ++ [die] ∧
        (d.logical = none → Reports s t 0x0102 (leBytes 1 die ++ leBytes 1 0xFF ++ leBytes 1 cause)) ∧
        ∀ l, d.logical = some l → l < 80 →
          (∀ line, line < 2 ^ 40 → (t.dieLine l line).st = .i) ∧
          (b.pendingTable = none → b.oldTable = none → r.unionAcyclic = true → l ∈ t.base.isolated) ∧
          (b.pendingTable = none → b.oldTable = none → r.unionAcyclic = false → t.base.pendingTable = some r) ∧
          ∀ k, k < 48 → (s.cairnOf (48 * l + k)).serv = .inService → (s.cairnOf (48 * l + k)).cfeat.getLsbD 0 = true →
            (t.cairnOf (48 * l + k)).serv = .fenced) ∧
      ∀ f g routes, (∀ r ∈ b.remaps, r.die ≠ die) → s.frame + 8 ≤ f →
        let free (x : Nat) : Prop := (∀ y ∈ b.dies, y.2.group = x → y.2.st = 3) ∧ ∀ r ∈ b.remaps, r.new ≠ x
        84 ≤ g → g ≤ 87 → free g → (∀ x, 84 ≤ x → x < g → ¬ free x) →
        ∃ t, exec (.remap die ⟨f, routes⟩) s = .next t ∧ t.mem = s.mem ∧ t.base.remaps = b.remaps ++ [⟨die, d.group, g, f⟩] ∧
          t.die die = { d with remaps := d.remaps + 1 } ∧
          Reports s t 0x0101 (leBytes 1 die ++ leBytes 1 d.group ++ leBytes 1 g ++ leBytes 1 0 ++ leBytes 8 f)) ∧
    (∀ u : BringUp,
      let x : Boot := b.kept.boot u
      let lit := ((List.range 8).filter fun k => u.lantern.getLsbD k).length
      (b.staging.verified = none → x.version = u.secVersion ∧ (x.ok = true ↔ u.firmwareOk = true ∧ b.blown ≤ u.secVersion)) ∧
      ∃ t, exec (.moduleReset u) s = .next t ∧ t.mem = [] ∧ t.wgs = [] ∧ t.parts = [] ∧ t.ports = [] ∧ t.graphs = [] ∧ t.counters = [] ∧
        t.accs = [] ∧ t.base.staging = b.staging ∧ (t.base.recovery = true ↔ x.ok = false) ∧ t.base.secVersion = x.version ∧
        t.base.blown = (if x.ok = true then max b.blown x.version else b.blown) ∧
        (b.fieldFenced = [] → u.ringsFailed.length ≤ 4 →
          (t.base.ready = true ↔ x.ok = true ∧ 6 ≤ lit ∧ 80 ≤ u.good.length)) ∧
        (t.base.ready = true → t.base.rtver = 1 ∧ t.base.table = u.table.routes ∧
          t.base.isolated = if u.table.acyclic then [] else u.table.isolated)) ∧
    ∃ t, exec .powerRemoved s = .next t ∧ t.mem = [] ∧ t.wgs = [] ∧ t.parts = [] ∧ t.ports = [] ∧ t.base.power = false ∧
      t.base.ready = false ∧ t.base.fieldFenced = b.fieldFenced ∧ t.base.blown = b.blown ∧ t.base.staging = b.staging
end

