-- ==== Sys2Proof/Laws/Exec.lean ====
section
/-! SUPPORT. The meaning that the dispatch gives each instruction and event, one equation per constructor. -/

namespace Sys2Proof.Machine

variable (s : State)

@[simp] theorem exec_moduleReset (u : BringUp) : exec (.moduleReset u) s = execModuleReset u s := rfl
@[simp] theorem exec_trayKeyInstall (key : BitVec 256) : exec (.trayKeyInstall key) s = execTrayKeyInstall key s := rfl
@[simp] theorem exec_lantern (mask : BitVec 8) : exec (.lantern mask) s = execLantern mask s := rfl
@[simp] theorem exec_orderSlotError (die : Nat) : exec (.orderSlotError die) s = execOrderSlotError die s := rfl
@[simp] theorem exec_warning (die sensor : Nat) (reading : Half) : exec (.warning die sensor reading) s = execWarning die sensor reading s := rfl
@[simp] theorem exec_thermalThrottle (die : Nat) (readings : List Half) : exec (.thermalThrottle die readings) s = execThermalThrottle die readings s := rfl
@[simp] theorem exec_thermalRelease (die : Nat) (readings : List Half) : exec (.thermalRelease die readings) s = execThermalRelease die readings s := rfl
@[simp] theorem exec_sustainedPower (watts1s : Nat) : exec (.sustainedPower watts1s) s = execSustainedPower watts1s s := rfl
@[simp] theorem exec_peakPower (watts100us : Nat) : exec (.peakPower watts100us) s = execPeakPower watts100us s := rfl
@[simp] theorem exec_powerRelease (watts1s watts100us : Nat) : exec (.powerRelease watts1s watts100us) s = execPowerRelease watts1s watts100us s := rfl
@[simp] theorem exec_trip (die sensor : Nat) (reading : Half) : exec (.trip die sensor reading) s = execTrip die sensor reading s := rfl
@[simp] theorem exec_remap (die : Nat) (x : RemapOrder) : exec (.remap die x) s = execRemap die x s := rfl
@[simp] theorem exec_remapFrame (die : Nat) : exec (.remapFrame die) s = execRemapFrame die s := rfl
@[simp] theorem exec_fieldFence (die : Nat) (x : FenceOrder) : exec (.fieldFence die x) s = execFieldFence die x s := rfl
@[simp] theorem exec_quarantine (lcore cause : Nat) : exec (.quarantine lcore cause) s = execQuarantine lcore cause s := rfl
@[simp] theorem exec_dramScrub (die : Nat) (found : Scrubbed) (soft : Nat) : exec (.dramScrub die found soft) s = execDramScrub die found soft s := rfl
@[simp] theorem exec_sramScrub (die : Nat) (found : Scrubbed) (soft : Nat) : exec (.sramScrub die found soft) s = execSramScrub die found soft s := rfl
@[simp] theorem exec_routingTable (r : RouteCheck) : exec (.routingTable r) s = execRoutingTable r s := rfl
@[simp] theorem exec_routingRetry (r : RouteCheck) : exec (.routingRetry r) s = execRoutingRetry r s := rfl
@[simp] theorem exec_ethernetFrameDiscard (malformed : Bool) (length : Nat) (mac : BitVec 48) : exec (.ethernetFrameDiscard malformed length mac) s = execEthernetFrameDiscard malformed length mac s := rfl
@[simp] theorem exec_arp (func ip : Nat) : exec (.arp func ip) s = execArp func ip s := rfl
@[simp] theorem exec_neighbourDiscovery (func ip : Nat) : exec (.neighbourDiscovery func ip) s = execNeighbourDiscovery func ip s := rfl
@[simp] theorem exec_rdmaWrite (q : RdmaReq) : exec (.rdmaWrite q) s = execRdmaWrite q s := rfl
@[simp] theorem exec_rdmaRead (q : RdmaReq) : exec (.rdmaRead q) s = execRdmaRead q s := rfl
@[simp] theorem exec_compareSwap (q : RdmaReq) : exec (.compareSwap q) s = execCompareSwap q s := rfl
@[simp] theorem exec_fetchAdd (q : RdmaReq) : exec (.fetchAdd q) s = execFetchAdd q s := rfl
@[simp] theorem exec_unsupportedOpcode (func : Nat) (pair : MarkedQp) (opcode : Nat) : exec (.unsupportedOpcode func pair opcode) s = execUnsupportedOpcode func pair opcode s := rfl
@[simp] theorem exec_cnp (func qp : Nat) : exec (.cnp func qp) s = execCnp func qp s := rfl
@[simp] theorem exec_rateRestore (func qp : Nat) : exec (.rateRestore func qp) s = execRateRestore func qp s := rfl
@[simp] theorem exec_acknowledgement (func : Nat) (pair : MarkedQp) (tag : Nat) : exec (.acknowledgement func pair tag) s = execAcknowledgement func pair tag s := rfl
@[simp] theorem exec_readResponse (func : Nat) (pair : MarkedQp) (tag : Nat) (data : List Byte) : exec (.readResponse func pair tag data) s = execReadResponse func pair tag data s := rfl
@[simp] theorem exec_nak (func : Nat) (pair : MarkedQp) (tag : Nat) (qpError : Bool) : exec (.nak func pair tag qpError) s = execNak func pair tag qpError s := rfl
@[simp] theorem exec_blockRelease (ldie part : Nat) : exec (.blockRelease ldie part) s = execBlockRelease ldie part s := rfl
@[simp] theorem exec_runStart (handle : Nat) : exec (.runStart handle) s = execRunStart handle s := rfl
@[simp] theorem exec_nodeDispatch (handle node : Nat) : exec (.nodeDispatch handle node) s = execNodeDispatch handle node s := rfl
@[simp] theorem exec_dispatchDecision (ldie : Nat) : exec (.dispatchDecision ldie) s = execDispatchDecision ldie s := rfl
@[simp] theorem exec_promotion (handle node : Nat) : exec (.promotion handle node) s = execPromotion handle node s := rfl
@[simp] theorem exec_nodeDone (handle node : Nat) : exec (.nodeDone handle node) s = execNodeDone handle node s := rfl
@[simp] theorem exec_preemption (wg : Nat) : exec (.preemption wg) s = execPreemption wg s := rfl
@[simp] theorem exec_watchdogExpiry (wg : Nat) : exec (.watchdogExpiry wg) s = execWatchdogExpiry wg s := rfl
@[simp] theorem exec_handOff (wg slot : Nat) : exec (.handOff wg slot) s = execHandOff wg slot s := rfl
@[simp] theorem exec_loadPerform (op : Nat) (lanes : Lanes) : exec (.loadPerform op lanes) s = execLoadPerform op lanes s := rfl
@[simp] theorem exec_storePerform (op : Nat) (lanes : Lanes) : exec (.storePerform op lanes) s = execStorePerform op lanes s := rfl
@[simp] theorem exec_atomicPerform (op : Nat) (lanes : Lanes) : exec (.atomicPerform op lanes) s = execAtomicPerform op lanes s := rfl
@[simp] theorem exec_accumulatePerform (op : Nat) (part : AccPart) : exec (.accumulatePerform op part) s = execAccumulatePerform op part s := rfl
@[simp] theorem exec_divideComplete (op : Nat) : exec (.divideComplete op) s = execDivideComplete op s := rfl
@[simp] theorem exec_pageWalk (die asid page : Nat) : exec (.pageWalk die asid page) s = execPageWalk die asid page s := rfl
@[simp] theorem exec_copyCommandStart (core : Nat) : exec (.copyCommandStart core) s = execCopyCommandStart core s := rfl
@[simp] theorem exec_copyCommandPerform (core : Nat) : exec (.copyCommandPerform core) s = execCopyCommandPerform core s := rfl
@[simp] theorem exec_matrixCommandStart (core : Nat) : exec (.matrixCommandStart core) s = execMatrixCommandStart core s := rfl
@[simp] theorem exec_matrixCommandPerform (core : Nat) : exec (.matrixCommandPerform core) s = execMatrixCommandPerform core s := rfl
@[simp] theorem exec_stbPerform (op : Nat) : exec (.stbPerform op) s = execStbPerform op s := rfl
@[simp] theorem exec_rds (lane : Nat) : exec (.rds lane) s = execRds lane s := rfl
@[simp] theorem exec_rdx (lane : Nat) : exec (.rdx lane) s = execRdx lane s := rfl
@[simp] theorem exec_own (lane : Nat) : exec (.own lane) s = execOwn lane s := rfl
@[simp] theorem exec_upg (lane : Nat) : exec (.upg lane) s = execUpg lane s := rfl
@[simp] theorem exec_putm (lane : Nat) : exec (.putm lane) s = execPutm lane s := rfl
@[simp] theorem exec_puto (lane : Nat) : exec (.puto lane) s = execPuto lane s := rfl
@[simp] theorem exec_pin (lane : Nat) : exec (.pin lane) s = execPin lane s := rfl
@[simp] theorem exec_forwardedData (die line : Nat) : exec (.forwardedData die line) s = execForwardedData die line s := rfl
@[simp] theorem exec_requesterCompletion (die line : Nat) : exec (.requesterCompletion die line) s = execRequesterCompletion die line s := rfl
@[simp] theorem exec_dramWriteBack (line : Nat) : exec (.dramWriteBack line) s = execDramWriteBack line s := rfl
@[simp] theorem exec_receivedCarrier (port : Nat) (c : LaneCarrier) : exec (.receivedCarrier port c) s = execReceivedCarrier port c s := rfl
@[simp] theorem exec_carrierLoss (port : Nat) : exec (.carrierLoss port) s = execCarrierLoss port s := rfl
@[simp] theorem exec_laneDown (port lane : Nat) : exec (.laneDown port lane) s = execLaneDown port lane s := rfl
@[simp] theorem exec_trainingFlit (x : PortFlit) (peerRate : Nat) : exec (.trainingFlit x peerRate) s = execTrainingFlit x peerRate s := rfl
@[simp] theorem exec_trainFail (port : Nat) : exec (.trainFail port) s = execTrainFail port s := rfl
@[simp] theorem exec_identityFlit (port : Nat) (f : Flit) (identity : Dword) : exec (.identityFlit port f identity) s = execIdentityFlit port f identity s := rfl
@[simp] theorem exec_retrain (x : PortFlit) (rate : Nat) (same : Bool) : exec (.retrain x rate same) s = execRetrain x rate same s := rfl
@[simp] theorem exec_retrainComplete (port : Nat) : exec (.retrainComplete port) s = execRetrainComplete port s := rfl
@[simp] theorem exec_messageFlit (port : Nat) (f : Flit) : exec (.messageFlit port f) s = execMessageFlit port f s := rfl
@[simp] theorem exec_retryRequest (port : Nat) (f : Flit) : exec (.retryRequest port f) s = execRetryRequest port f s := rfl
@[simp] theorem exec_ackTimeout (port : Nat) : exec (.ackTimeout port) s = execAckTimeout port s := rfl
@[simp] theorem exec_keyExhaust (port tag kidx : Nat) : exec (.keyExhaust port tag kidx) s = execKeyExhaust port tag kidx s := rfl
@[simp] theorem exec_keyAcknowledge (x : PortFlit) (tag : Nat) : exec (.keyAcknowledge x tag) s = execKeyAcknowledge x tag s := rfl
@[simp] theorem exec_keyRetire (x : PortFlit) (tag : Nat) : exec (.keyRetire x tag) s = execKeyRetire x tag s := rfl
@[simp] theorem exec_quiesceDone (x : PortFlit) : exec (.quiesceDone x) s = execQuiesceDone x s := rfl
@[simp] theorem exec_drainLimit (port : Nat) : exec (.drainLimit port) s = execDrainLimit port s := rfl
@[simp] theorem exec_holdLimit (port : Nat) : exec (.holdLimit port) s = execHoldLimit port s := rfl
@[simp] theorem exec_carrierLossNotice (x : PortFlit) : exec (.carrierLossNotice x) s = execCarrierLossNotice x s := rfl
@[simp] theorem exec_heartbeat (x : PortFlit) : exec (.heartbeat x) s = execHeartbeat x s := rfl
@[simp] theorem exec_peerSilent (port : Nat) : exec (.peerSilent port) s = execPeerSilent port s := rfl
@[simp] theorem exec_triggerWindowAdd (op : Nat) : exec (.triggerWindowAdd op) s = execTriggerWindowAdd op s := rfl
@[simp] theorem exec_triggerWindowSet (op : Nat) : exec (.triggerWindowSet op) s = execTriggerWindowSet op s := rfl
@[simp] theorem exec_entryIssue (ldie part : Nat) : exec (.entryIssue ldie part) s = execEntryIssue ldie part s := rfl
@[simp] theorem exec_entryComplete (ldie part : Nat) : exec (.entryComplete ldie part) s = execEntryComplete ldie part s := rfl
@[simp] theorem exec_iadd (h : Sched) (o : GOps) (m : ModN) : exec (.iadd h o m) s = execIadd h o m s := rfl
@[simp] theorem exec_isub (h : Sched) (o : GOps) (m : ModN) : exec (.isub h o m) s = execIsub h o m s := rfl
@[simp] theorem exec_imul (h : Sched) (o : GOps) (m : ModN) : exec (.imul h o m) s = execImul h o m s := rfl
@[simp] theorem exec_imulh (h : Sched) (o : GOps) (m : ModN) : exec (.imulh h o m) s = execImulh h o m s := rfl
@[simp] theorem exec_imad (h : Sched) (o : GOps) (m : ModN) : exec (.imad h o m) s = execImad h o m s := rfl
@[simp] theorem exec_imin (h : Sched) (o : GOps) (m : ModN) : exec (.imin h o m) s = execImin h o m s := rfl
@[simp] theorem exec_imax (h : Sched) (o : GOps) (m : ModN) : exec (.imax h o m) s = execImax h o m s := rfl
@[simp] theorem exec_iabs (h : Sched) (o : GOps) (m : ModN) : exec (.iabs h o m) s = execIabs h o m s := rfl
@[simp] theorem exec_ineg (h : Sched) (o : GOps) (m : ModN) : exec (.ineg h o m) s = execIneg h o m s := rfl
@[simp] theorem exec_and (h : Sched) (o : GOps) (m : ModN) : exec (.and h o m) s = execAnd h o m s := rfl
@[simp] theorem exec_or (h : Sched) (o : GOps) (m : ModN) : exec (.or h o m) s = execOr h o m s := rfl
@[simp] theorem exec_xor (h : Sched) (o : GOps) (m : ModN) : exec (.xor h o m) s = execXor h o m s := rfl
@[simp] theorem exec_andn (h : Sched) (o : GOps) (m : ModN) : exec (.andn h o m) s = execAndn h o m s := rfl
@[simp] theorem exec_not (h : Sched) (o : GOps) (m : ModN) : exec (.not h o m) s = execNot h o m s := rfl
@[simp] theorem exec_shl (h : Sched) (o : GOps) (m : ModN) : exec (.shl h o m) s = execShl h o m s := rfl
@[simp] theorem exec_shr (h : Sched) (o : GOps) (m : ModN) : exec (.shr h o m) s = execShr h o m s := rfl
@[simp] theorem exec_sar (h : Sched) (o : GOps) (m : ModN) : exec (.sar h o m) s = execSar h o m s := rfl
@[simp] theorem exec_rol (h : Sched) (o : GOps) (m : ModN) : exec (.rol h o m) s = execRol h o m s := rfl
@[simp] theorem exec_ror (h : Sched) (o : GOps) (m : ModN) : exec (.ror h o m) s = execRor h o m s := rfl
@[simp] theorem exec_popc (h : Sched) (o : GOps) (m : ModN) : exec (.popc h o m) s = execPopc h o m s := rfl
@[simp] theorem exec_clz (h : Sched) (o : GOps) (m : ModN) : exec (.clz h o m) s = execClz h o m s := rfl
@[simp] theorem exec_ctz (h : Sched) (o : GOps) (m : ModN) : exec (.ctz h o m) s = execCtz h o m s := rfl
@[simp] theorem exec_brev (h : Sched) (o : GOps) (m : ModN) : exec (.brev h o m) s = execBrev h o m s := rfl
@[simp] theorem exec_bfx (h : Sched) (o : GOps) (m : ModN) : exec (.bfx h o m) s = execBfx h o m s := rfl
@[simp] theorem exec_bfi (h : Sched) (o : GOps) (m : ModN) : exec (.bfi h o m) s = execBfi h o m s := rfl
@[simp] theorem exec_prmb (h : Sched) (o : GOps) (m : ModN) : exec (.prmb h o m) s = execPrmb h o m s := rfl
@[simp] theorem exec_icmp (h : Sched) (o : GOps) (m : ModIcmp) : exec (.icmp h o m) s = execIcmp h o m s := rfl
@[simp] theorem exec_fcmp (h : Sched) (o : GOps) (m : ModFcmp) : exec (.fcmp h o m) s = execFcmp h o m s := rfl
@[simp] theorem exec_sel (h : Sched) (o : GOps) (dw : Bool) : exec (.sel h o dw) s = execSel h o dw s := rfl
@[simp] theorem exec_mov (h : Sched) (o : GOps) (dw : Bool) : exec (.mov h o dw) s = execMov h o dw s := rfl
@[simp] theorem exec_movi (h : Sched) (o : IOps) (m : MoviMode) : exec (.movi h o m) s = execMovi h o m s := rfl
@[simp] theorem exec_rdsp (h : Sched) (o : GOps) (m : RdspItem) : exec (.rdsp h o m) s = execRdsp h o m s := rfl
@[simp] theorem exec_lperm (h : Sched) (o : GOps) (dw : Bool) : exec (.lperm h o dw) s = execLperm h o dw s := rfl
@[simp] theorem exec_vote (h : Sched) (o : GOps) (m : ModVote) : exec (.vote h o m) s = execVote h o m s := rfl
@[simp] theorem exec_iscan (h : Sched) (o : GOps) (m : ModScan) : exec (.iscan h o m) s = execIscan h o m s := rfl
@[simp] theorem exec_lred (h : Sched) (o : GOps) (m : ModLred) : exec (.lred h o m) s = execLred h o m s := rfl
@[simp] theorem exec_aset (h : Sched) (o : IOps) : exec (.aset h o) s = execAset h o s := rfl
@[simp] theorem exec_aadd (h : Sched) (o : GOps) : exec (.aadd h o) s = execAadd h o s := rfl
@[simp] theorem exec_ascl (h : Sched) (o : IOps) : exec (.ascl h o) s = execAscl h o s := rfl
@[simp] theorem exec_aoff (h : Sched) (o : GOps) : exec (.aoff h o) s = execAoff h o s := rfl
@[simp] theorem exec_aexp (h : Sched) (o : GOps) (dw : Bool) : exec (.aexp h o dw) s = execAexp h o dw s := rfl
@[simp] theorem exec_pset (h : Sched) (o : GOps) (m : ModPset) : exec (.pset h o m) s = execPset h o m s := rfl
@[simp] theorem exec_plog (h : Sched) (o : GOps) (m : PlogOp) : exec (.plog h o m) s = execPlog h o m s := rfl
@[simp] theorem exec_pcnt (h : Sched) (o : GOps) : exec (.pcnt h o) s = execPcnt h o s := rfl
@[simp] theorem exec_fadd (h : Sched) (o : GOps) (m : ModF) : exec (.fadd h o m) s = execFadd h o m s := rfl
@[simp] theorem exec_fsub (h : Sched) (o : GOps) (m : ModF) : exec (.fsub h o m) s = execFsub h o m s := rfl
@[simp] theorem exec_fmul (h : Sched) (o : GOps) (m : ModF) : exec (.fmul h o m) s = execFmul h o m s := rfl
@[simp] theorem exec_ffma (h : Sched) (o : GOps) (m : ModF) : exec (.ffma h o m) s = execFfma h o m s := rfl
@[simp] theorem exec_fmin (h : Sched) (o : GOps) (m : ModF) : exec (.fmin h o m) s = execFmin h o m s := rfl
@[simp] theorem exec_fmax (h : Sched) (o : GOps) (m : ModF) : exec (.fmax h o m) s = execFmax h o m s := rfl
@[simp] theorem exec_fdiv (h : Sched) (o : GOps) (m : ModF) : exec (.fdiv h o m) s = execFdiv h o m s := rfl
@[simp] theorem exec_fsqrt (h : Sched) (o : GOps) (m : ModF) : exec (.fsqrt h o m) s = execFsqrt h o m s := rfl
@[simp] theorem exec_frcp (h : Sched) (o : GOps) (m : ModF) : exec (.frcp h o m) s = execFrcp h o m s := rfl
@[simp] theorem exec_frsq (h : Sched) (o : GOps) (m : ModF) : exec (.frsq h o m) s = execFrsq h o m s := rfl
@[simp] theorem exec_fexp2 (h : Sched) (o : GOps) (m : ModF) : exec (.fexp2 h o m) s = execFexp2 h o m s := rfl
@[simp] theorem exec_flog2 (h : Sched) (o : GOps) (m : ModF) : exec (.flog2 h o m) s = execFlog2 h o m s := rfl
@[simp] theorem exec_fsin (h : Sched) (o : GOps) (m : ModF) : exec (.fsin h o m) s = execFsin h o m s := rfl
@[simp] theorem exec_fcos (h : Sched) (o : GOps) (m : ModF) : exec (.fcos h o m) s = execFcos h o m s := rfl
@[simp] theorem exec_ftanh (h : Sched) (o : GOps) (m : ModF) : exec (.ftanh h o m) s = execFtanh h o m s := rfl
@[simp] theorem exec_ffrc (h : Sched) (o : GOps) (m : ModF) : exec (.ffrc h o m) s = execFfrc h o m s := rfl
@[simp] theorem exec_frnd (h : Sched) (o : GOps) (m : ModF) : exec (.frnd h o m) s = execFrnd h o m s := rfl
@[simp] theorem exec_fclass (h : Sched) (o : GOps) (m : ModF) : exec (.fclass h o m) s = execFclass h o m s := rfl
@[simp] theorem exec_cvt (h : Sched) (o : GOps) (m : ModCvt) : exec (.cvt h o m) s = execCvt h o m s := rfl
@[simp] theorem exec_cvtNarrow (h : Sched) (o : GOps) (m : ModCvt) : exec (.cvtNarrow h o m) s = execCvtNarrow h o m s := rfl
@[simp] theorem exec_qnt (h : Sched) (o : GOps) (m : ModQnt) : exec (.qnt h o m) s = execQnt h o m s := rfl
@[simp] theorem exec_dqnt (h : Sched) (o : GOps) (m : ModQnt) : exec (.dqnt h o m) s = execDqnt h o m s := rfl
@[simp] theorem exec_bra (h : Sched) (o : BOps) : exec (.bra h o) s = execBra h o s := rfl
@[simp] theorem exec_brx (h : Sched) (o : GOps) : exec (.brx h o) s = execBrx h o s := rfl
@[simp] theorem exec_call (h : Sched) (o : BOps) : exec (.call h o) s = execCall h o s := rfl
@[simp] theorem exec_callx (h : Sched) (o : GOps) : exec (.callx h o) s = execCallx h o s := rfl
@[simp] theorem exec_ret (h : Sched) (o : GOps) : exec (.ret h o) s = execRet h o s := rfl
@[simp] theorem exec_exit (h : Sched) (o : GOps) : exec (.exit h o) s = execExit h o s := rfl
@[simp] theorem exec_waypt (h : Sched) (o : IOps) : exec (.waypt h o) s = execWaypt h o s := rfl
@[simp] theorem exec_nop (h : Sched) (o : GOps) : exec (.nop h o) s = execNop h o s := rfl
@[simp] theorem exec_ld (h : Sched) (o : MOps) (m : ModM) : exec (.ld h o m) s = execLd h o m s := rfl
@[simp] theorem exec_st (h : Sched) (o : MOps) (m : ModM) : exec (.st h o m) s = execSt h o m s := rfl
@[simp] theorem exec_lds (h : Sched) (o : MOps) (m : ModM) : exec (.lds h o m) s = execLds h o m s := rfl
@[simp] theorem exec_ldL (h : Sched) (o : MOps) (m : ModM) : exec (.ldL h o m) s = execLdL h o m s := rfl
@[simp] theorem exec_stL (h : Sched) (o : MOps) (m : ModM) : exec (.stL h o m) s = execStL h o m s := rfl
@[simp] theorem exec_cpf (h : Sched) (o : MOps) (m : ModM) : exec (.cpf h o m) s = execCpf h o m s := rfl
@[simp] theorem exec_cwb (h : Sched) (o : MOps) (m : ModM) : exec (.cwb h o m) s = execCwb h o m s := rfl
@[simp] theorem exec_cinv (h : Sched) (o : MOps) (m : ModM) : exec (.cinv h o m) s = execCinv h o m s := rfl
@[simp] theorem exec_atom (h : Sched) (o : MOps) (m : ModAtom) : exec (.atom h o m) s = execAtom h o m s := rfl
@[simp] theorem exec_atomL (h : Sched) (o : MOps) (m : ModAtom) : exec (.atomL h o m) s = execAtomL h o m s := rfl
@[simp] theorem exec_facc (h : Sched) (o : MOps) (m : ModFacc) : exec (.facc h o m) s = execFacc h o m s := rfl
@[simp] theorem exec_faccrd (h : Sched) (o : MOps) (m : ModFaccrd) : exec (.faccrd h o m) s = execFaccrd h o m s := rfl
@[simp] theorem exec_faccclr (h : Sched) (o : MOps) (m : AccTy) : exec (.faccclr h o m) s = execFaccclr h o m s := rfl
@[simp] theorem exec_fence (h : Sched) (o : GOps) (m : ModFence) : exec (.fence h o m) s = execFence h o m s := rfl
@[simp] theorem exec_qfence (h : Sched) (o : GOps) (m : BitVec 4) : exec (.qfence h o m) s = execQfence h o m s := rfl
@[simp] theorem exec_barInit (h : Sched) (o : GOps) : exec (.barInit h o) s = execBarInit h o s := rfl
@[simp] theorem exec_barArv (h : Sched) (o : GOps) (m : Scope) : exec (.barArv h o m) s = execBarArv h o m s := rfl
@[simp] theorem exec_barWait (h : Sched) (o : GOps) (m : Scope) : exec (.barWait h o m) s = execBarWait h o m s := rfl
@[simp] theorem exec_barSync (h : Sched) (o : GOps) (m : Scope) : exec (.barSync h o m) s = execBarSync h o m s := rfl
@[simp] theorem exec_fbar (h : Sched) (o : GOps) (m : BitVec 4) : exec (.fbar h o m) s = execFbar h o m s := rfl
@[simp] theorem exec_wput (h : Sched) (o : GOps) : exec (.wput h o) s = execWput h o s := rfl
@[simp] theorem exec_wtake (h : Sched) (o : GOps) : exec (.wtake h o) s = execWtake h o s := rfl
@[simp] theorem exec_wpeek (h : Sched) (o : GOps) : exec (.wpeek h o) s = execWpeek h o s := rfl
@[simp] theorem exec_wclr (h : Sched) (o : GOps) : exec (.wclr h o) s = execWclr h o s := rfl
@[simp] theorem exec_acp (h : Sched) (o : MOps) (m : ModAcp) : exec (.acp h o m) s = execAcp h o m s := rfl
@[simp] theorem exec_tld (h : Sched) (o : XOps) (m : ModTld) : exec (.tld h o m) s = execTld h o m s := rfl
@[simp] theorem exec_tldSlide (h : Sched) (o : XOps) (m : ModTld) : exec (.tldSlide h o m) s = execTldSlide h o m s := rfl
@[simp] theorem exec_tst (h : Sched) (o : XOps) (m : ModTld) : exec (.tst h o m) s = execTst h o m s := rfl
@[simp] theorem exec_stb (h : Sched) (o : MOps) (m : MSize) : exec (.stb h o m) s = execStb h o m s := rfl
@[simp] theorem exec_tcfg (h : Sched) (o : XOps) (m : ModTcfg) : exec (.tcfg h o m) s = execTcfg h o m s := rfl
@[simp] theorem exec_tzero (h : Sched) (o : XOps) : exec (.tzero h o) s = execTzero h o s := rfl
@[simp] theorem exec_tmov (h : Sched) (o : XOps) (m : TmovMode) : exec (.tmov h o m) s = execTmov h o m s := rfl
@[simp] theorem exec_txp (h : Sched) (o : XOps) (m : TxpEsz) : exec (.txp h o m) s = execTxp h o m s := rfl
@[simp] theorem exec_mma (h : Sched) (o : XOps) (m : ModMma) : exec (.mma h o m) s = execMma h o m s := rfl
@[simp] theorem exec_maccld (h : Sched) (o : XOps) (m : ModMaccld) : exec (.maccld h o m) s = execMaccld h o m s := rfl
@[simp] theorem exec_mdrain (h : Sched) (o : XOps) (m : MdrainMode) : exec (.mdrain h o m) s = execMdrain h o m s := rfl
@[simp] theorem exec_kind (h : Sched) (o : GOps) (m : ModKind) : exec (.kind h o m) s = execKind h o m s := rfl
@[simp] theorem exec_kmask (h : Sched) (o : GOps) (m : ModKind) : exec (.kmask h o m) s = execKmask h o m s := rfl
@[simp] theorem exec_npost (h : Sched) (o : MOps) (m : ModNpost) : exec (.npost h o m) s = execNpost h o m s := rfl
@[simp] theorem exec_ntrig (h : Sched) (o : GOps) (set : Bool) : exec (.ntrig h o set) s = execNtrig h o set s := rfl
@[simp] theorem exec_nwait (h : Sched) (o : GOps) : exec (.nwait h o) s = execNwait h o s := rfl
@[simp] theorem exec_nrd (h : Sched) (o : GOps) : exec (.nrd h o) s = execNrd h o s := rfl
@[simp] theorem exec_ncoll (h : Sched) (o : MOps) (hnd : Bool) : exec (.ncoll h o hnd) s = execNcoll h o hnd s := rfl
@[simp] theorem exec_ncan (h : Sched) (o : GOps) : exec (.ncan h o) s = execNcan h o s := rfl
@[simp] theorem exec_trap (h : Sched) (o : IOps) : exec (.trap h o) s = execTrap h o s := rfl
@[simp] theorem exec_bkpt (h : Sched) (o : GOps) : exec (.bkpt h o) s = execBkpt h o s := rfl
@[simp] theorem exec_rdsys (h : Sched) (o : YOps) : exec (.rdsys h o) s = execRdsys h o s := rfl
@[simp] theorem exec_wrsys (h : Sched) (o : YOps) : exec (.wrsys h o) s = execWrsys h o s := rfl
@[simp] theorem exec_rdperf (h : Sched) (o : YOps) : exec (.rdperf h o) s = execRdperf h o s := rfl
@[simp] theorem exec_clock (h : Sched) (o : GOps) (ns : Bool) : exec (.clock h o ns) s = execClock h o ns s := rfl
@[simp] theorem exec_rolesw (h : Sched) (o : GOps) : exec (.rolesw h o) s = execRolesw h o s := rfl
@[simp] theorem exec_halt (h : Sched) (o : GOps) : exec (.halt h o) s = execHalt h o s := rfl
@[simp] theorem exec_priorityFlowControl (prio : Nat) (pause : Bool) : exec (.priorityFlowControl prio pause) s = execPriorityFlowControl prio pause s := rfl
@[simp] theorem exec_retrainRequest (port rate : Nat) : exec (.retrainRequest port rate) s = execRetrainRequest port rate s := rfl
@[simp] theorem exec_granuleZeroed (granule : Nat) : exec (.granuleZeroed granule) s = execGranuleZeroed granule s := rfl
@[simp] theorem exec_blackout (die : Nat) : exec (.blackout die) s = execBlackout die s := rfl
@[simp] theorem exec_wearManagement (die pages : Nat) : exec (.wearManagement die pages) s = execWearManagement die pages s := rfl
@[simp] theorem exec_heartbeatInterval (port : Nat) : exec (.heartbeatInterval port) s = execHeartbeatInterval port s := rfl
@[simp] theorem exec_identify : exec .identify s = execIdentify s := rfl
@[simp] theorem exec_attest : exec .attest s = execAttest s := rfl
@[simp] theorem exec_ping : exec .ping s = execPing s := rfl
@[simp] theorem exec_galloc : exec .galloc s = execGalloc s := rfl
@[simp] theorem exec_gload : exec .gload s = execGload s := rfl
@[simp] theorem exec_gseal : exec .gseal s = execGseal s := rfl
@[simp] theorem exec_gfree : exec .gfree s = execGfree s := rfl
@[simp] theorem exec_grun : exec .grun s = execGrun s := rfl
@[simp] theorem exec_gcancel : exec .gcancel s = execGcancel s := rfl
@[simp] theorem exec_evread : exec .evread s = execEvread s := rfl
@[simp] theorem exec_winset : exec .winset s = execWinset s := rfl
@[simp] theorem exec_htset : exec .htset s = execHtset s := rfl
@[simp] theorem exec_pcreate : exec .pcreate s = execPcreate s := rfl
@[simp] theorem exec_pdestroy : exec .pdestroy s = execPdestroy s := rfl
@[simp] theorem exec_weight : exec .weight s = execWeight s := rfl
@[simp] theorem exec_gshare : exec .gshare s = execGshare s := rfl
@[simp] theorem exec_wdog : exec .wdog s = execWdog s := rfl
@[simp] theorem exec_coremap : exec .coremap s = execCoremap s := rfl
@[simp] theorem exec_funcs : exec .funcs s = execFuncs s := rfl
@[simp] theorem exec_asids : exec .asids s = execAsids s := rfl
@[simp] theorem exec_memGrant : exec .memGrant s = execMemGrant s := rfl
@[simp] theorem exec_memRelease : exec .memRelease s = execMemRelease s := rfl
@[simp] theorem exec_start : exec .start s = execStart s := rfl
@[simp] theorem exec_suspend : exec .suspend s = execSuspend s := rfl
@[simp] theorem exec_resume : exec .resume s = execResume s := rfl
@[simp] theorem exec_retireExpose : exec .retireExpose s = execRetireExpose s := rfl
@[simp] theorem exec_retireHide : exec .retireHide s = execRetireHide s := rfl
@[simp] theorem exec_ttagMap : exec .ttagMap s = execTtagMap s := rfl
@[simp] theorem exec_ttagUnmap : exec .ttagUnmap s = execTtagUnmap s := rfl
@[simp] theorem exec_fabricGrant : exec .fabricGrant s = execFabricGrant s := rfl
@[simp] theorem exec_fabricRelease : exec .fabricRelease s = execFabricRelease s := rfl
@[simp] theorem exec_accspill : exec .accspill s = execAccspill s := rfl
@[simp] theorem exec_asroot : exec .asroot s = execAsroot s := rfl
@[simp] theorem exec_tlbinv : exec .tlbinv s = execTlbinv s := rfl
@[simp] theorem exec_bwinCreate : exec .bwinCreate s = execBwinCreate s := rfl
@[simp] theorem exec_bwinDestroy : exec .bwinDestroy s = execBwinDestroy s := rfl
@[simp] theorem exec_bwinSetWriter : exec .bwinSetWriter s = execBwinSetWriter s := rfl
@[simp] theorem exec_priv : exec .priv s = execPriv s := rfl
@[simp] theorem exec_fassign : exec .fassign s = execFassign s := rfl
@[simp] theorem exec_keyset : exec .keyset s = execKeyset s := rfl
@[simp] theorem exec_ykey : exec .ykey s = execYkey s := rfl
@[simp] theorem exec_fixed : exec .fixed s = execFixed s := rfl
@[simp] theorem exec_switched : exec .switched s = execSwitched s := rfl
@[simp] theorem exec_enable : exec .enable s = execEnable s := rfl
@[simp] theorem exec_disable : exec .disable s = execDisable s := rfl
@[simp] theorem exec_peer : exec .peer s = execPeer s := rfl
@[simp] theorem exec_route : exec .route s = execRoute s := rfl
@[simp] theorem exec_routeClear : exec .routeClear s = execRouteClear s := rfl
@[simp] theorem exec_read : exec .read s = execRead s := rfl
@[simp] theorem exec_yquiesce : exec .yquiesce s = execYquiesce s := rfl
@[simp] theorem exec_yresume : exec .yresume s = execYresume s := rfl
@[simp] theorem exec_treealloc : exec .treealloc s = execTreealloc s := rfl
@[simp] theorem exec_treefree : exec .treefree s = execTreefree s := rfl
@[simp] theorem exec_fwstage : exec .fwstage s = execFwstage s := rfl
@[simp] theorem exec_telread : exec .telread s = execTelread s := rfl
@[simp] theorem exec_telwrite : exec .telwrite s = execTelwrite s := rfl
@[simp] theorem exec_diagResume : exec .diagResume s = execDiagResume s := rfl
@[simp] theorem exec_diagContinue : exec .diagContinue s = execDiagContinue s := rfl
@[simp] theorem exec_discard : exec .discard s = execDiscard s := rfl
@[simp] theorem exec_diagread : exec .diagread s = execDiagread s := rfl
@[simp] theorem exec_pfreeze : exec .pfreeze s = execPfreeze s := rfl
@[simp] theorem exec_pthaw : exec .pthaw s = execPthaw s := rfl
@[simp] theorem exec_dumpread : exec .dumpread s = execDumpread s := rfl
@[simp] theorem exec_badop : exec .badop s = execBadop s := rfl
@[simp] theorem exec_creqRds : exec .creqRds s = execCreqRds s := rfl
@[simp] theorem exec_creqRdx : exec .creqRdx s = execCreqRdx s := rfl
@[simp] theorem exec_creqRdc : exec .creqRdc s = execCreqRdc s := rfl
@[simp] theorem exec_creqUpg : exec .creqUpg s = execCreqUpg s := rfl
@[simp] theorem exec_creqWbm : exec .creqWbm s = execCreqWbm s := rfl
@[simp] theorem exec_creqWrs : exec .creqWrs s = execCreqWrs s := rfl
@[simp] theorem exec_crspCmps : exec .crspCmps s = execCrspCmps s := rfl
@[simp] theorem exec_crspCmpe : exec .crspCmpe s = execCrspCmpe s := rfl
@[simp] theorem exec_crspCmp : exec .crspCmp s = execCrspCmp s := rfl
@[simp] theorem exec_cdatData : exec .cdatData s = execCdatData s := rfl
@[simp] theorem exec_binv : exec .binv s = execBinv s := rfl
@[simp] theorem exec_bshr : exec .bshr s = execBshr s := rfl
@[simp] theorem exec_backi : exec .backi s = execBacki s := rfl
@[simp] theorem exec_backs : exec .backs s = execBacks s := rfl
@[simp] theorem exec_nreqPut : exec .nreqPut s = execNreqPut s := rfl
@[simp] theorem exec_nreqGet : exec .nreqGet s = execNreqGet s := rfl
@[simp] theorem exec_nreqAtom : exec .nreqAtom s = execNreqAtom s := rfl
@[simp] theorem exec_nreqAccp : exec .nreqAccp s = execNreqAccp s := rfl
@[simp] theorem exec_nreqCadd : exec .nreqCadd s = execNreqCadd s := rfl
@[simp] theorem exec_nrspAck : exec .nrspAck s = execNrspAck s := rfl
@[simp] theorem exec_nrspGdata : exec .nrspGdata s = execNrspGdata s := rfl
@[simp] theorem exec_nrspArsp : exec .nrspArsp s = execNrspArsp s := rfl
@[simp] theorem exec_nrspNerr : exec .nrspNerr s = execNrspNerr s := rfl
@[simp] theorem exec_drainCommit : exec .drainCommit s = execDrainCommit s := rfl
@[simp] theorem exec_ethernetLinkDown : exec .ethernetLinkDown s = execEthernetLinkDown s := rfl
@[simp] theorem exec_ethernetLinkUp : exec .ethernetLinkUp s = execEthernetLinkUp s := rfl
@[simp] theorem exec_sessionTree : exec .sessionTree s = execSessionTree s := rfl
@[simp] theorem exec_powerRemoved : exec .powerRemoved s = execPowerRemoved s := rfl

end Sys2Proof.Machine
end

