-- ==== Sys2Proof/Laws/Tab.lean ====
section
/-! SUPPORT. Laws of sparse tables: reading after writing, and the canonical form. -/

namespace Sys2Proof.Machine.Tab

theorem get_dropWhile {α : Type} (d : α) (t : Tab α) (k k' : Nat) (h : k < k') :
    get d (t.dropWhile (fun x => decide (x.1 ≤ k))) k' = get d t k' := by
  induction t with
  | nil => rfl
  | cons x r ih =>
    obtain ⟨j, a⟩ := x
    by_cases hj : j ≤ k
    · have h1 : ¬ k' < j := by omega
      have h2 : k' ≠ j := by omega
      simp [hj, ih, get, h1, h2]
    · simp [hj]

theorem get_dropWhile_le {α : Type} (d : α) (t : Tab α) (k k' : Nat) (h : k' ≤ k) :
    get d (t.dropWhile (fun x => decide (x.1 ≤ k))) k' = d := by
  induction t with
  | nil => rfl
  | cons x r ih =>
    obtain ⟨j, a⟩ := x
    by_cases hj : j ≤ k
    · simp [hj, ih]
    · simp [hj, get]; omega

variable {α : Type} [DecidableEq α]

/-- Reading the key just written gives the value written. -/
theorem get_set_same (d : α) (t : Tab α) (k : Nat) (v : α) : get d (set d t k v) k = v := by
  induction t with
  | nil => by_cases h : v = d <;> simp [set, get, h]
  | cons x r ih =>
    obtain ⟨j, a⟩ := x
    by_cases h1 : k < j
    · by_cases hv : v = d <;> simp [set, get, h1, hv]
    · by_cases h2 : k = j
      · by_cases hv : v = d
        · simp [set, h2, hv, get_dropWhile_le]
        · simp [set, get, h2, hv]
      · simp [set, get, h1, h2, ih]

/-- Writing one key leaves every other key alone. -/
theorem get_set_other (d : α) (t : Tab α) (k k' : Nat) (v : α) (h : k' ≠ k) :
    get d (set d t k v) k' = get d t k' := by
  induction t with
  | nil => by_cases hv : v = d <;> simp [set, get, hv, h]
  | cons x r ih =>
    obtain ⟨j, a⟩ := x
    by_cases h1 : k < j
    · by_cases hv : v = d
      · simp [set, h1, hv]
      · by_cases h3 : k' < k
        · have h4 : k' < j := by omega
          simp [set, get, h1, hv, h3, h4]
        · simp [set, get, h1, hv, h3, h]
    · by_cases h2 : k = j
      · subst h2
        by_cases hv : v = d
        · by_cases h3 : k' < k
          · simp [set, get, hv, h3, get_dropWhile_le d r k k' (by omega)]
          · simp [set, get, hv, h3, h, get_dropWhile d r k k' (by omega)]
        · simp [set, get, hv, h]
      · simp [set, get, h1, h2, ih]

/-- Reading any key after a write. -/
theorem get_set (d : α) (t : Tab α) (k k' : Nat) (v : α) :
    get d (set d t k v) k' = if k' = k then v else get d t k' := by
  by_cases h : k' = k
  · subst h; simp [get_set_same]
  · simp [h, get_set_other]

/-- The tail of a canonical table is canonical. -/
theorem wf_tail (d : α) (x : Nat × α) (r : Tab α) (h : wf d (x :: r) = true) : wf d r = true := by
  obtain ⟨j, a⟩ := x
  cases r with
  | nil => rfl
  | cons y r => obtain ⟨k, b⟩ := y; simp [wf] at h; exact h.2

/-- A canonical table's head key is below the keys of its tail. -/
theorem wf_cons (d : α) (j : Nat) (a : α) (r : Tab α) :
    wf d ((j, a) :: r) = true ↔ a ≠ d ∧ (∀ x ∈ r.head?, j < x.1) ∧ wf d r = true := by
  cases r with
  | nil => simp [wf]
  | cons y r => obtain ⟨k, b⟩ := y; simp [wf, and_assoc]

theorem dropWhile_wf (d : α) (t : Tab α) (k : Nat) (h : wf d t = true) :
    wf d (t.dropWhile (fun x => decide (x.1 ≤ k))) = true ∧
      ∀ x ∈ (t.dropWhile (fun x => decide (x.1 ≤ k))).head?, k < x.1 := by
  induction t with
  | nil => simp [wf]
  | cons x r ih =>
    by_cases hj : x.1 ≤ k
    · simpa [hj] using ih (wf_tail d x r h)
    · simp [hj, h]; omega

theorem set_head (d : α) (t : Tab α) (k : Nat) (v : α) (j : Nat) (hk : j < k)
    (ht : ∀ x ∈ t.head?, j < x.1) (hw : wf d t = true) : ∀ x ∈ (set d t k v).head?, j < x.1 := by
  cases t with
  | nil => by_cases hv : v = d <;> simp [set, hv, hk]
  | cons y r =>
    obtain ⟨i, a⟩ := y
    simp at ht
    by_cases h1 : k < i
    · by_cases hv : v = d <;> simp [set, h1, hv, hk, ht]
    · by_cases h2 : k = i
      · by_cases hv : v = d
        · simp only [set, h2, hv, if_true]
          intro x hx
          have h3 := (dropWhile_wf d r i (wf_tail d _ r hw)).2 x (by simpa using hx)
          omega
        · simp [set, h2, hv]; omega
      · simp [set, h1, h2, ht]

/-- Every write keeps the canonical form. -/
theorem set_wf (d : α) (t : Tab α) (k : Nat) (v : α) (h : wf d t = true) : wf d (set d t k v) = true := by
  induction t with
  | nil => by_cases hv : v = d <;> simp [set, wf, hv]
  | cons y r ih =>
    obtain ⟨j, a⟩ := y
    have hr := (wf_cons d j a r).1 h
    by_cases h1 : k < j
    · by_cases hv : v = d
      · simp [set, h1, hv, h]
      · simp [set, h1, hv, wf_cons, h]
    · by_cases h2 : k = j
      · by_cases hv : v = d
        · simpa [set, h1, h2, hv] using (dropWhile_wf d r j hr.2.2).1
        · subst h2
          simp only [set, hv, if_true, if_false, h1, wf_cons]
          exact ⟨hv, hr.2.1, hr.2.2⟩
      · simp only [set, h1, h2, if_false, wf_cons]
        exact ⟨hr.1, set_head d r k v j (by omega) hr.2.1 hr.2.2, ih hr.2.2⟩

end Sys2Proof.Machine.Tab
end

