-- ==== Sys2Proof/Laws/State.lean ====
section
/-! SUPPORT. What each named write of a part of State leaves alone, field by field, and what reading a part after writing it gives. -/

namespace Sys2Proof.Machine

variable (s : State)

/-! ### setWg -/

@[simp] theorem State.setWg_agenda (i : Nat) (w : Workgroup) : (s.setWg i w).agenda = s.agenda := rfl
@[simp] theorem State.setWg_rx (i : Nat) (w : Workgroup) : (s.setWg i w).rx = s.rx := rfl
@[simp] theorem State.setWg_inbox (i : Nat) (w : Workgroup) : (s.setWg i w).inbox = s.inbox := rfl
@[simp] theorem State.setWg_tick (i : Nat) (w : Workgroup) : (s.setWg i w).tick = s.tick := rfl
@[simp] theorem State.setWg_focus (i : Nat) (w : Workgroup) : (s.setWg i w).focus = s.focus := rfl
@[simp] theorem State.setWg_held (i : Nat) (w : Workgroup) : (s.setWg i w).held = s.held := rfl
@[simp] theorem State.setWg_free (i : Nat) (w : Workgroup) : (s.setWg i w).free = s.free := rfl
@[simp] theorem State.setWg_nextId (i : Nat) (w : Workgroup) : (s.setWg i w).nextId = s.nextId := rfl
@[simp] theorem State.setWg_nextWg (i : Nat) (w : Workgroup) : (s.setWg i w).nextWg = s.nextWg := rfl
@[simp] theorem State.setWg_base (i : Nat) (w : Workgroup) : (s.setWg i w).base = s.base := rfl
@[simp] theorem State.setWg_cairn (i : Nat) (w : Workgroup) : (s.setWg i w).cairn = s.cairn := rfl
@[simp] theorem State.setWg_parts (i : Nat) (w : Workgroup) : (s.setWg i w).parts = s.parts := rfl
@[simp] theorem State.setWg_graphs (i : Nat) (w : Workgroup) : (s.setWg i w).graphs = s.graphs := rfl
@[simp] theorem State.setWg_nextHandle (i : Nat) (w : Workgroup) : (s.setWg i w).nextHandle = s.nextHandle := rfl
@[simp] theorem State.setWg_roundNext (i : Nat) (w : Workgroup) : (s.setWg i w).roundNext = s.roundNext := rfl
@[simp] theorem State.setWg_cores (i : Nat) (w : Workgroup) : (s.setWg i w).cores = s.cores := rfl
@[simp] theorem State.setWg_pipe (i : Nat) (w : Workgroup) : (s.setWg i w).pipe = s.pipe := rfl
@[simp] theorem State.setWg_mem (i : Nat) (w : Workgroup) : (s.setWg i w).mem = s.mem := rfl
@[simp] theorem State.setWg_owner (i : Nat) (w : Workgroup) : (s.setWg i w).owner = s.owner := rfl
@[simp] theorem State.setWg_failing (i : Nat) (w : Workgroup) : (s.setWg i w).failing = s.failing := rfl
@[simp] theorem State.setWg_reported (i : Nat) (w : Workgroup) : (s.setWg i w).reported = s.reported := rfl
@[simp] theorem State.setWg_tlb (i : Nat) (w : Workgroup) : (s.setWg i w).tlb = s.tlb := rfl
@[simp] theorem State.setWg_l1tlb (i : Nat) (w : Workgroup) : (s.setWg i w).l1tlb = s.l1tlb := rfl
@[simp] theorem State.setWg_walks (i : Nat) (w : Workgroup) : (s.setWg i w).walks = s.walks := rfl
@[simp] theorem State.setWg_walkFails (i : Nat) (w : Workgroup) : (s.setWg i w).walkFails = s.walkFails := rfl
@[simp] theorem State.setWg_invs (i : Nat) (w : Workgroup) : (s.setWg i w).invs = s.invs := rfl
@[simp] theorem State.setWg_lines (i : Nat) (w : Workgroup) : (s.setWg i w).lines = s.lines := rfl
@[simp] theorem State.setWg_l1 (i : Nat) (w : Workgroup) : (s.setWg i w).l1 = s.l1 := rfl
@[simp] theorem State.setWg_homes (i : Nat) (w : Workgroup) : (s.setWg i w).homes = s.homes := rfl
@[simp] theorem State.setWg_orderQ (i : Nat) (w : Workgroup) : (s.setWg i w).orderQ = s.orderQ := rfl
@[simp] theorem State.setWg_mesh (i : Nat) (w : Workgroup) : (s.setWg i w).mesh = s.mesh := rfl
@[simp] theorem State.setWg_jobs (i : Nat) (w : Workgroup) : (s.setWg i w).jobs = s.jobs := rfl
@[simp] theorem State.setWg_accs (i : Nat) (w : Workgroup) : (s.setWg i w).accs = s.accs := rfl
@[simp] theorem State.setWg_sums (i : Nat) (w : Workgroup) : (s.setWg i w).sums = s.sums := rfl
@[simp] theorem State.setWg_fresh (i : Nat) (w : Workgroup) : (s.setWg i w).fresh = s.fresh := rfl
@[simp] theorem State.setWg_landed (i : Nat) (w : Workgroup) : (s.setWg i w).landed = s.landed := rfl
@[simp] theorem State.setWg_bwins (i : Nat) (w : Workgroup) : (s.setWg i w).bwins = s.bwins := rfl
@[simp] theorem State.setWg_writers (i : Nat) (w : Workgroup) : (s.setWg i w).writers = s.writers := rfl
@[simp] theorem State.setWg_counters (i : Nat) (w : Workgroup) : (s.setWg i w).counters = s.counters := rfl
@[simp] theorem State.setWg_ctrBlocks (i : Nat) (w : Workgroup) : (s.setWg i w).ctrBlocks = s.ctrBlocks := rfl
@[simp] theorem State.setWg_entries (i : Nat) (w : Workgroup) : (s.setWg i w).entries = s.entries := rfl
@[simp] theorem State.setWg_netQ (i : Nat) (w : Workgroup) : (s.setWg i w).netQ = s.netQ := rfl
@[simp] theorem State.setWg_netReqs (i : Nat) (w : Workgroup) : (s.setWg i w).netReqs = s.netReqs := rfl
@[simp] theorem State.setWg_releases (i : Nat) (w : Workgroup) : (s.setWg i w).releases = s.releases := rfl
@[simp] theorem State.setWg_trees (i : Nat) (w : Workgroup) : (s.setWg i w).trees = s.trees := rfl
@[simp] theorem State.setWg_ttags (i : Nat) (w : Workgroup) : (s.setWg i w).ttags = s.ttags := rfl
@[simp] theorem State.setWg_podDir (i : Nat) (w : Workgroup) : (s.setWg i w).podDir = s.podDir := rfl
@[simp] theorem State.setWg_podLines (i : Nat) (w : Workgroup) : (s.setWg i w).podLines = s.podLines := rfl
@[simp] theorem State.setWg_podReqs (i : Nat) (w : Workgroup) : (s.setWg i w).podReqs = s.podReqs := rfl
@[simp] theorem State.setWg_podAwait (i : Nat) (w : Workgroup) : (s.setWg i w).podAwait = s.podAwait := rfl
@[simp] theorem State.setWg_podExcl (i : Nat) (w : Workgroup) : (s.setWg i w).podExcl = s.podExcl := rfl
@[simp] theorem State.setWg_podHeld (i : Nat) (w : Workgroup) : (s.setWg i w).podHeld = s.podHeld := rfl
@[simp] theorem State.setWg_podShut (i : Nat) (w : Workgroup) : (s.setWg i w).podShut = s.podShut := rfl
@[simp] theorem State.setWg_ports (i : Nat) (w : Workgroup) : (s.setWg i w).ports = s.ports := rfl
@[simp] theorem State.setWg_funcs (i : Nat) (w : Workgroup) : (s.setWg i w).funcs = s.funcs := rfl
@[simp] theorem State.setWg_hostOps (i : Nat) (w : Workgroup) : (s.setWg i w).hostOps = s.hostOps := rfl
@[simp] theorem State.setWg_rdmaHeld (i : Nat) (w : Workgroup) : (s.setWg i w).rdmaHeld = s.rdmaHeld := rfl
@[simp] theorem State.setWg_errWords (i : Nat) (w : Workgroup) : (s.setWg i w).errWords = s.errWords := rfl
@[simp] theorem State.setWg_ethWait (i : Nat) (w : Workgroup) : (s.setWg i w).ethWait = s.ethWait := rfl
@[simp] theorem State.setWg_ethOut (i : Nat) (w : Workgroup) : (s.setWg i w).ethOut = s.ethOut := rfl

/-! ### dropWg -/

@[simp] theorem State.dropWg_agenda (i : Nat) : (s.dropWg i).agenda = s.agenda := rfl
@[simp] theorem State.dropWg_rx (i : Nat) : (s.dropWg i).rx = s.rx := rfl
@[simp] theorem State.dropWg_inbox (i : Nat) : (s.dropWg i).inbox = s.inbox := rfl
@[simp] theorem State.dropWg_tick (i : Nat) : (s.dropWg i).tick = s.tick := rfl
@[simp] theorem State.dropWg_focus (i : Nat) : (s.dropWg i).focus = s.focus := rfl
@[simp] theorem State.dropWg_held (i : Nat) : (s.dropWg i).held = s.held := rfl
@[simp] theorem State.dropWg_free (i : Nat) : (s.dropWg i).free = s.free := rfl
@[simp] theorem State.dropWg_nextId (i : Nat) : (s.dropWg i).nextId = s.nextId := rfl
@[simp] theorem State.dropWg_nextWg (i : Nat) : (s.dropWg i).nextWg = s.nextWg := rfl
@[simp] theorem State.dropWg_base (i : Nat) : (s.dropWg i).base = s.base := rfl
@[simp] theorem State.dropWg_cairn (i : Nat) : (s.dropWg i).cairn = s.cairn := rfl
@[simp] theorem State.dropWg_parts (i : Nat) : (s.dropWg i).parts = s.parts := rfl
@[simp] theorem State.dropWg_graphs (i : Nat) : (s.dropWg i).graphs = s.graphs := rfl
@[simp] theorem State.dropWg_nextHandle (i : Nat) : (s.dropWg i).nextHandle = s.nextHandle := rfl
@[simp] theorem State.dropWg_roundNext (i : Nat) : (s.dropWg i).roundNext = s.roundNext := rfl
@[simp] theorem State.dropWg_cores (i : Nat) : (s.dropWg i).cores = s.cores := rfl
@[simp] theorem State.dropWg_pipe (i : Nat) : (s.dropWg i).pipe = s.pipe := rfl
@[simp] theorem State.dropWg_mem (i : Nat) : (s.dropWg i).mem = s.mem := rfl
@[simp] theorem State.dropWg_owner (i : Nat) : (s.dropWg i).owner = s.owner := rfl
@[simp] theorem State.dropWg_failing (i : Nat) : (s.dropWg i).failing = s.failing := rfl
@[simp] theorem State.dropWg_reported (i : Nat) : (s.dropWg i).reported = s.reported := rfl
@[simp] theorem State.dropWg_tlb (i : Nat) : (s.dropWg i).tlb = s.tlb := rfl
@[simp] theorem State.dropWg_l1tlb (i : Nat) : (s.dropWg i).l1tlb = s.l1tlb := rfl
@[simp] theorem State.dropWg_walks (i : Nat) : (s.dropWg i).walks = s.walks := rfl
@[simp] theorem State.dropWg_walkFails (i : Nat) : (s.dropWg i).walkFails = s.walkFails := rfl
@[simp] theorem State.dropWg_invs (i : Nat) : (s.dropWg i).invs = s.invs := rfl
@[simp] theorem State.dropWg_lines (i : Nat) : (s.dropWg i).lines = s.lines := rfl
@[simp] theorem State.dropWg_l1 (i : Nat) : (s.dropWg i).l1 = s.l1 := rfl
@[simp] theorem State.dropWg_homes (i : Nat) : (s.dropWg i).homes = s.homes := rfl
@[simp] theorem State.dropWg_orderQ (i : Nat) : (s.dropWg i).orderQ = s.orderQ := rfl
@[simp] theorem State.dropWg_mesh (i : Nat) : (s.dropWg i).mesh = s.mesh := rfl
@[simp] theorem State.dropWg_jobs (i : Nat) : (s.dropWg i).jobs = s.jobs := rfl
@[simp] theorem State.dropWg_accs (i : Nat) : (s.dropWg i).accs = s.accs := rfl
@[simp] theorem State.dropWg_sums (i : Nat) : (s.dropWg i).sums = s.sums := rfl
@[simp] theorem State.dropWg_fresh (i : Nat) : (s.dropWg i).fresh = s.fresh := rfl
@[simp] theorem State.dropWg_landed (i : Nat) : (s.dropWg i).landed = s.landed := rfl
@[simp] theorem State.dropWg_bwins (i : Nat) : (s.dropWg i).bwins = s.bwins := rfl
@[simp] theorem State.dropWg_writers (i : Nat) : (s.dropWg i).writers = s.writers := rfl
@[simp] theorem State.dropWg_counters (i : Nat) : (s.dropWg i).counters = s.counters := rfl
@[simp] theorem State.dropWg_ctrBlocks (i : Nat) : (s.dropWg i).ctrBlocks = s.ctrBlocks := rfl
@[simp] theorem State.dropWg_entries (i : Nat) : (s.dropWg i).entries = s.entries := rfl
@[simp] theorem State.dropWg_netQ (i : Nat) : (s.dropWg i).netQ = s.netQ := rfl
@[simp] theorem State.dropWg_netReqs (i : Nat) : (s.dropWg i).netReqs = s.netReqs := rfl
@[simp] theorem State.dropWg_releases (i : Nat) : (s.dropWg i).releases = s.releases := rfl
@[simp] theorem State.dropWg_trees (i : Nat) : (s.dropWg i).trees = s.trees := rfl
@[simp] theorem State.dropWg_ttags (i : Nat) : (s.dropWg i).ttags = s.ttags := rfl
@[simp] theorem State.dropWg_podDir (i : Nat) : (s.dropWg i).podDir = s.podDir := rfl
@[simp] theorem State.dropWg_podLines (i : Nat) : (s.dropWg i).podLines = s.podLines := rfl
@[simp] theorem State.dropWg_podReqs (i : Nat) : (s.dropWg i).podReqs = s.podReqs := rfl
@[simp] theorem State.dropWg_podAwait (i : Nat) : (s.dropWg i).podAwait = s.podAwait := rfl
@[simp] theorem State.dropWg_podExcl (i : Nat) : (s.dropWg i).podExcl = s.podExcl := rfl
@[simp] theorem State.dropWg_podHeld (i : Nat) : (s.dropWg i).podHeld = s.podHeld := rfl
@[simp] theorem State.dropWg_podShut (i : Nat) : (s.dropWg i).podShut = s.podShut := rfl
@[simp] theorem State.dropWg_ports (i : Nat) : (s.dropWg i).ports = s.ports := rfl
@[simp] theorem State.dropWg_funcs (i : Nat) : (s.dropWg i).funcs = s.funcs := rfl
@[simp] theorem State.dropWg_hostOps (i : Nat) : (s.dropWg i).hostOps = s.hostOps := rfl
@[simp] theorem State.dropWg_rdmaHeld (i : Nat) : (s.dropWg i).rdmaHeld = s.rdmaHeld := rfl
@[simp] theorem State.dropWg_errWords (i : Nat) : (s.dropWg i).errWords = s.errWords := rfl
@[simp] theorem State.dropWg_ethWait (i : Nat) : (s.dropWg i).ethWait = s.ethWait := rfl
@[simp] theorem State.dropWg_ethOut (i : Nat) : (s.dropWg i).ethOut = s.ethOut := rfl

/-! ### setSlot -/

@[simp] theorem State.setSlot_agenda (w k : Nat) (x : SlotSt) : (s.setSlot w k x).agenda = s.agenda := rfl
@[simp] theorem State.setSlot_rx (w k : Nat) (x : SlotSt) : (s.setSlot w k x).rx = s.rx := rfl
@[simp] theorem State.setSlot_inbox (w k : Nat) (x : SlotSt) : (s.setSlot w k x).inbox = s.inbox := rfl
@[simp] theorem State.setSlot_tick (w k : Nat) (x : SlotSt) : (s.setSlot w k x).tick = s.tick := rfl
@[simp] theorem State.setSlot_focus (w k : Nat) (x : SlotSt) : (s.setSlot w k x).focus = s.focus := rfl
@[simp] theorem State.setSlot_held (w k : Nat) (x : SlotSt) : (s.setSlot w k x).held = s.held := rfl
@[simp] theorem State.setSlot_free (w k : Nat) (x : SlotSt) : (s.setSlot w k x).free = s.free := rfl
@[simp] theorem State.setSlot_nextId (w k : Nat) (x : SlotSt) : (s.setSlot w k x).nextId = s.nextId := rfl
@[simp] theorem State.setSlot_nextWg (w k : Nat) (x : SlotSt) : (s.setSlot w k x).nextWg = s.nextWg := rfl
@[simp] theorem State.setSlot_base (w k : Nat) (x : SlotSt) : (s.setSlot w k x).base = s.base := rfl
@[simp] theorem State.setSlot_cairn (w k : Nat) (x : SlotSt) : (s.setSlot w k x).cairn = s.cairn := rfl
@[simp] theorem State.setSlot_parts (w k : Nat) (x : SlotSt) : (s.setSlot w k x).parts = s.parts := rfl
@[simp] theorem State.setSlot_graphs (w k : Nat) (x : SlotSt) : (s.setSlot w k x).graphs = s.graphs := rfl
@[simp] theorem State.setSlot_nextHandle (w k : Nat) (x : SlotSt) : (s.setSlot w k x).nextHandle = s.nextHandle := rfl
@[simp] theorem State.setSlot_roundNext (w k : Nat) (x : SlotSt) : (s.setSlot w k x).roundNext = s.roundNext := rfl
@[simp] theorem State.setSlot_cores (w k : Nat) (x : SlotSt) : (s.setSlot w k x).cores = s.cores := rfl
@[simp] theorem State.setSlot_pipe (w k : Nat) (x : SlotSt) : (s.setSlot w k x).pipe = s.pipe := rfl
@[simp] theorem State.setSlot_mem (w k : Nat) (x : SlotSt) : (s.setSlot w k x).mem = s.mem := rfl
@[simp] theorem State.setSlot_owner (w k : Nat) (x : SlotSt) : (s.setSlot w k x).owner = s.owner := rfl
@[simp] theorem State.setSlot_failing (w k : Nat) (x : SlotSt) : (s.setSlot w k x).failing = s.failing := rfl
@[simp] theorem State.setSlot_reported (w k : Nat) (x : SlotSt) : (s.setSlot w k x).reported = s.reported := rfl
@[simp] theorem State.setSlot_tlb (w k : Nat) (x : SlotSt) : (s.setSlot w k x).tlb = s.tlb := rfl
@[simp] theorem State.setSlot_l1tlb (w k : Nat) (x : SlotSt) : (s.setSlot w k x).l1tlb = s.l1tlb := rfl
@[simp] theorem State.setSlot_walks (w k : Nat) (x : SlotSt) : (s.setSlot w k x).walks = s.walks := rfl
@[simp] theorem State.setSlot_walkFails (w k : Nat) (x : SlotSt) : (s.setSlot w k x).walkFails = s.walkFails := rfl
@[simp] theorem State.setSlot_invs (w k : Nat) (x : SlotSt) : (s.setSlot w k x).invs = s.invs := rfl
@[simp] theorem State.setSlot_lines (w k : Nat) (x : SlotSt) : (s.setSlot w k x).lines = s.lines := rfl
@[simp] theorem State.setSlot_l1 (w k : Nat) (x : SlotSt) : (s.setSlot w k x).l1 = s.l1 := rfl
@[simp] theorem State.setSlot_homes (w k : Nat) (x : SlotSt) : (s.setSlot w k x).homes = s.homes := rfl
@[simp] theorem State.setSlot_orderQ (w k : Nat) (x : SlotSt) : (s.setSlot w k x).orderQ = s.orderQ := rfl
@[simp] theorem State.setSlot_mesh (w k : Nat) (x : SlotSt) : (s.setSlot w k x).mesh = s.mesh := rfl
@[simp] theorem State.setSlot_jobs (w k : Nat) (x : SlotSt) : (s.setSlot w k x).jobs = s.jobs := rfl
@[simp] theorem State.setSlot_accs (w k : Nat) (x : SlotSt) : (s.setSlot w k x).accs = s.accs := rfl
@[simp] theorem State.setSlot_sums (w k : Nat) (x : SlotSt) : (s.setSlot w k x).sums = s.sums := rfl
@[simp] theorem State.setSlot_fresh (w k : Nat) (x : SlotSt) : (s.setSlot w k x).fresh = s.fresh := rfl
@[simp] theorem State.setSlot_landed (w k : Nat) (x : SlotSt) : (s.setSlot w k x).landed = s.landed := rfl
@[simp] theorem State.setSlot_bwins (w k : Nat) (x : SlotSt) : (s.setSlot w k x).bwins = s.bwins := rfl
@[simp] theorem State.setSlot_writers (w k : Nat) (x : SlotSt) : (s.setSlot w k x).writers = s.writers := rfl
@[simp] theorem State.setSlot_counters (w k : Nat) (x : SlotSt) : (s.setSlot w k x).counters = s.counters := rfl
@[simp] theorem State.setSlot_ctrBlocks (w k : Nat) (x : SlotSt) : (s.setSlot w k x).ctrBlocks = s.ctrBlocks := rfl
@[simp] theorem State.setSlot_entries (w k : Nat) (x : SlotSt) : (s.setSlot w k x).entries = s.entries := rfl
@[simp] theorem State.setSlot_netQ (w k : Nat) (x : SlotSt) : (s.setSlot w k x).netQ = s.netQ := rfl
@[simp] theorem State.setSlot_netReqs (w k : Nat) (x : SlotSt) : (s.setSlot w k x).netReqs = s.netReqs := rfl
@[simp] theorem State.setSlot_releases (w k : Nat) (x : SlotSt) : (s.setSlot w k x).releases = s.releases := rfl
@[simp] theorem State.setSlot_trees (w k : Nat) (x : SlotSt) : (s.setSlot w k x).trees = s.trees := rfl
@[simp] theorem State.setSlot_ttags (w k : Nat) (x : SlotSt) : (s.setSlot w k x).ttags = s.ttags := rfl
@[simp] theorem State.setSlot_podDir (w k : Nat) (x : SlotSt) : (s.setSlot w k x).podDir = s.podDir := rfl
@[simp] theorem State.setSlot_podLines (w k : Nat) (x : SlotSt) : (s.setSlot w k x).podLines = s.podLines := rfl
@[simp] theorem State.setSlot_podReqs (w k : Nat) (x : SlotSt) : (s.setSlot w k x).podReqs = s.podReqs := rfl
@[simp] theorem State.setSlot_podAwait (w k : Nat) (x : SlotSt) : (s.setSlot w k x).podAwait = s.podAwait := rfl
@[simp] theorem State.setSlot_podExcl (w k : Nat) (x : SlotSt) : (s.setSlot w k x).podExcl = s.podExcl := rfl
@[simp] theorem State.setSlot_podHeld (w k : Nat) (x : SlotSt) : (s.setSlot w k x).podHeld = s.podHeld := rfl
@[simp] theorem State.setSlot_podShut (w k : Nat) (x : SlotSt) : (s.setSlot w k x).podShut = s.podShut := rfl
@[simp] theorem State.setSlot_ports (w k : Nat) (x : SlotSt) : (s.setSlot w k x).ports = s.ports := rfl
@[simp] theorem State.setSlot_funcs (w k : Nat) (x : SlotSt) : (s.setSlot w k x).funcs = s.funcs := rfl
@[simp] theorem State.setSlot_hostOps (w k : Nat) (x : SlotSt) : (s.setSlot w k x).hostOps = s.hostOps := rfl
@[simp] theorem State.setSlot_rdmaHeld (w k : Nat) (x : SlotSt) : (s.setSlot w k x).rdmaHeld = s.rdmaHeld := rfl
@[simp] theorem State.setSlot_errWords (w k : Nat) (x : SlotSt) : (s.setSlot w k x).errWords = s.errWords := rfl
@[simp] theorem State.setSlot_ethWait (w k : Nat) (x : SlotSt) : (s.setSlot w k x).ethWait = s.ethWait := rfl
@[simp] theorem State.setSlot_ethOut (w k : Nat) (x : SlotSt) : (s.setSlot w k x).ethOut = s.ethOut := rfl

/-! ### modSlot -/

@[simp] theorem State.modSlot_agenda (w k : Nat) (g : SlotSt → SlotSt) : (s.modSlot w k g).agenda = s.agenda := rfl
@[simp] theorem State.modSlot_rx (w k : Nat) (g : SlotSt → SlotSt) : (s.modSlot w k g).rx = s.rx := rfl
@[simp] theorem State.modSlot_inbox (w k : Nat) (g : SlotSt → SlotSt) : (s.modSlot w k g).inbox = s.inbox := rfl
@[simp] theorem State.modSlot_tick (w k : Nat) (g : SlotSt → SlotSt) : (s.modSlot w k g).tick = s.tick := rfl
@[simp] theorem State.modSlot_focus (w k : Nat) (g : SlotSt → SlotSt) : (s.modSlot w k g).focus = s.focus := rfl
@[simp] theorem State.modSlot_held (w k : Nat) (g : SlotSt → SlotSt) : (s.modSlot w k g).held = s.held := rfl
@[simp] theorem State.modSlot_free (w k : Nat) (g : SlotSt → SlotSt) : (s.modSlot w k g).free = s.free := rfl
@[simp] theorem State.modSlot_nextId (w k : Nat) (g : SlotSt → SlotSt) : (s.modSlot w k g).nextId = s.nextId := rfl
@[simp] theorem State.modSlot_nextWg (w k : Nat) (g : SlotSt → SlotSt) : (s.modSlot w k g).nextWg = s.nextWg := rfl
@[simp] theorem State.modSlot_base (w k : Nat) (g : SlotSt → SlotSt) : (s.modSlot w k g).base = s.base := rfl
@[simp] theorem State.modSlot_cairn (w k : Nat) (g : SlotSt → SlotSt) : (s.modSlot w k g).cairn = s.cairn := rfl
@[simp] theorem State.modSlot_parts (w k : Nat) (g : SlotSt → SlotSt) : (s.modSlot w k g).parts = s.parts := rfl
@[simp] theorem State.modSlot_graphs (w k : Nat) (g : SlotSt → SlotSt) : (s.modSlot w k g).graphs = s.graphs := rfl
@[simp] theorem State.modSlot_nextHandle (w k : Nat) (g : SlotSt → SlotSt) : (s.modSlot w k g).nextHandle = s.nextHandle := rfl
@[simp] theorem State.modSlot_roundNext (w k : Nat) (g : SlotSt → SlotSt) : (s.modSlot w k g).roundNext = s.roundNext := rfl
@[simp] theorem State.modSlot_cores (w k : Nat) (g : SlotSt → SlotSt) : (s.modSlot w k g).cores = s.cores := rfl
@[simp] theorem State.modSlot_pipe (w k : Nat) (g : SlotSt → SlotSt) : (s.modSlot w k g).pipe = s.pipe := rfl
@[simp] theorem State.modSlot_mem (w k : Nat) (g : SlotSt → SlotSt) : (s.modSlot w k g).mem = s.mem := rfl
@[simp] theorem State.modSlot_owner (w k : Nat) (g : SlotSt → SlotSt) : (s.modSlot w k g).owner = s.owner := rfl
@[simp] theorem State.modSlot_failing (w k : Nat) (g : SlotSt → SlotSt) : (s.modSlot w k g).failing = s.failing := rfl
@[simp] theorem State.modSlot_reported (w k : Nat) (g : SlotSt → SlotSt) : (s.modSlot w k g).reported = s.reported := rfl
@[simp] theorem State.modSlot_tlb (w k : Nat) (g : SlotSt → SlotSt) : (s.modSlot w k g).tlb = s.tlb := rfl
@[simp] theorem State.modSlot_l1tlb (w k : Nat) (g : SlotSt → SlotSt) : (s.modSlot w k g).l1tlb = s.l1tlb := rfl
@[simp] theorem State.modSlot_walks (w k : Nat) (g : SlotSt → SlotSt) : (s.modSlot w k g).walks = s.walks := rfl
@[simp] theorem State.modSlot_walkFails (w k : Nat) (g : SlotSt → SlotSt) : (s.modSlot w k g).walkFails = s.walkFails := rfl
@[simp] theorem State.modSlot_invs (w k : Nat) (g : SlotSt → SlotSt) : (s.modSlot w k g).invs = s.invs := rfl
@[simp] theorem State.modSlot_lines (w k : Nat) (g : SlotSt → SlotSt) : (s.modSlot w k g).lines = s.lines := rfl
@[simp] theorem State.modSlot_l1 (w k : Nat) (g : SlotSt → SlotSt) : (s.modSlot w k g).l1 = s.l1 := rfl
@[simp] theorem State.modSlot_homes (w k : Nat) (g : SlotSt → SlotSt) : (s.modSlot w k g).homes = s.homes := rfl
@[simp] theorem State.modSlot_orderQ (w k : Nat) (g : SlotSt → SlotSt) : (s.modSlot w k g).orderQ = s.orderQ := rfl
@[simp] theorem State.modSlot_mesh (w k : Nat) (g : SlotSt → SlotSt) : (s.modSlot w k g).mesh = s.mesh := rfl
@[simp] theorem State.modSlot_jobs (w k : Nat) (g : SlotSt → SlotSt) : (s.modSlot w k g).jobs = s.jobs := rfl
@[simp] theorem State.modSlot_accs (w k : Nat) (g : SlotSt → SlotSt) : (s.modSlot w k g).accs = s.accs := rfl
@[simp] theorem State.modSlot_sums (w k : Nat) (g : SlotSt → SlotSt) : (s.modSlot w k g).sums = s.sums := rfl
@[simp] theorem State.modSlot_fresh (w k : Nat) (g : SlotSt → SlotSt) : (s.modSlot w k g).fresh = s.fresh := rfl
@[simp] theorem State.modSlot_landed (w k : Nat) (g : SlotSt → SlotSt) : (s.modSlot w k g).landed = s.landed := rfl
@[simp] theorem State.modSlot_bwins (w k : Nat) (g : SlotSt → SlotSt) : (s.modSlot w k g).bwins = s.bwins := rfl
@[simp] theorem State.modSlot_writers (w k : Nat) (g : SlotSt → SlotSt) : (s.modSlot w k g).writers = s.writers := rfl
@[simp] theorem State.modSlot_counters (w k : Nat) (g : SlotSt → SlotSt) : (s.modSlot w k g).counters = s.counters := rfl
@[simp] theorem State.modSlot_ctrBlocks (w k : Nat) (g : SlotSt → SlotSt) : (s.modSlot w k g).ctrBlocks = s.ctrBlocks := rfl
@[simp] theorem State.modSlot_entries (w k : Nat) (g : SlotSt → SlotSt) : (s.modSlot w k g).entries = s.entries := rfl
@[simp] theorem State.modSlot_netQ (w k : Nat) (g : SlotSt → SlotSt) : (s.modSlot w k g).netQ = s.netQ := rfl
@[simp] theorem State.modSlot_netReqs (w k : Nat) (g : SlotSt → SlotSt) : (s.modSlot w k g).netReqs = s.netReqs := rfl
@[simp] theorem State.modSlot_releases (w k : Nat) (g : SlotSt → SlotSt) : (s.modSlot w k g).releases = s.releases := rfl
@[simp] theorem State.modSlot_trees (w k : Nat) (g : SlotSt → SlotSt) : (s.modSlot w k g).trees = s.trees := rfl
@[simp] theorem State.modSlot_ttags (w k : Nat) (g : SlotSt → SlotSt) : (s.modSlot w k g).ttags = s.ttags := rfl
@[simp] theorem State.modSlot_podDir (w k : Nat) (g : SlotSt → SlotSt) : (s.modSlot w k g).podDir = s.podDir := rfl
@[simp] theorem State.modSlot_podLines (w k : Nat) (g : SlotSt → SlotSt) : (s.modSlot w k g).podLines = s.podLines := rfl
@[simp] theorem State.modSlot_podReqs (w k : Nat) (g : SlotSt → SlotSt) : (s.modSlot w k g).podReqs = s.podReqs := rfl
@[simp] theorem State.modSlot_podAwait (w k : Nat) (g : SlotSt → SlotSt) : (s.modSlot w k g).podAwait = s.podAwait := rfl
@[simp] theorem State.modSlot_podExcl (w k : Nat) (g : SlotSt → SlotSt) : (s.modSlot w k g).podExcl = s.podExcl := rfl
@[simp] theorem State.modSlot_podHeld (w k : Nat) (g : SlotSt → SlotSt) : (s.modSlot w k g).podHeld = s.podHeld := rfl
@[simp] theorem State.modSlot_podShut (w k : Nat) (g : SlotSt → SlotSt) : (s.modSlot w k g).podShut = s.podShut := rfl
@[simp] theorem State.modSlot_ports (w k : Nat) (g : SlotSt → SlotSt) : (s.modSlot w k g).ports = s.ports := rfl
@[simp] theorem State.modSlot_funcs (w k : Nat) (g : SlotSt → SlotSt) : (s.modSlot w k g).funcs = s.funcs := rfl
@[simp] theorem State.modSlot_hostOps (w k : Nat) (g : SlotSt → SlotSt) : (s.modSlot w k g).hostOps = s.hostOps := rfl
@[simp] theorem State.modSlot_rdmaHeld (w k : Nat) (g : SlotSt → SlotSt) : (s.modSlot w k g).rdmaHeld = s.rdmaHeld := rfl
@[simp] theorem State.modSlot_errWords (w k : Nat) (g : SlotSt → SlotSt) : (s.modSlot w k g).errWords = s.errWords := rfl
@[simp] theorem State.modSlot_ethWait (w k : Nat) (g : SlotSt → SlotSt) : (s.modSlot w k g).ethWait = s.ethWait := rfl
@[simp] theorem State.modSlot_ethOut (w k : Nat) (g : SlotSt → SlotSt) : (s.modSlot w k g).ethOut = s.ethOut := rfl

/-! ### setFib -/

@[simp] theorem State.setFib_agenda (w k j : Nat) (x : Fibre) : (s.setFib w k j x).agenda = s.agenda := rfl
@[simp] theorem State.setFib_rx (w k j : Nat) (x : Fibre) : (s.setFib w k j x).rx = s.rx := rfl
@[simp] theorem State.setFib_inbox (w k j : Nat) (x : Fibre) : (s.setFib w k j x).inbox = s.inbox := rfl
@[simp] theorem State.setFib_tick (w k j : Nat) (x : Fibre) : (s.setFib w k j x).tick = s.tick := rfl
@[simp] theorem State.setFib_focus (w k j : Nat) (x : Fibre) : (s.setFib w k j x).focus = s.focus := rfl
@[simp] theorem State.setFib_held (w k j : Nat) (x : Fibre) : (s.setFib w k j x).held = s.held := rfl
@[simp] theorem State.setFib_free (w k j : Nat) (x : Fibre) : (s.setFib w k j x).free = s.free := rfl
@[simp] theorem State.setFib_nextId (w k j : Nat) (x : Fibre) : (s.setFib w k j x).nextId = s.nextId := rfl
@[simp] theorem State.setFib_nextWg (w k j : Nat) (x : Fibre) : (s.setFib w k j x).nextWg = s.nextWg := rfl
@[simp] theorem State.setFib_base (w k j : Nat) (x : Fibre) : (s.setFib w k j x).base = s.base := rfl
@[simp] theorem State.setFib_cairn (w k j : Nat) (x : Fibre) : (s.setFib w k j x).cairn = s.cairn := rfl
@[simp] theorem State.setFib_parts (w k j : Nat) (x : Fibre) : (s.setFib w k j x).parts = s.parts := rfl
@[simp] theorem State.setFib_graphs (w k j : Nat) (x : Fibre) : (s.setFib w k j x).graphs = s.graphs := rfl
@[simp] theorem State.setFib_nextHandle (w k j : Nat) (x : Fibre) : (s.setFib w k j x).nextHandle = s.nextHandle := rfl
@[simp] theorem State.setFib_roundNext (w k j : Nat) (x : Fibre) : (s.setFib w k j x).roundNext = s.roundNext := rfl
@[simp] theorem State.setFib_cores (w k j : Nat) (x : Fibre) : (s.setFib w k j x).cores = s.cores := rfl
@[simp] theorem State.setFib_pipe (w k j : Nat) (x : Fibre) : (s.setFib w k j x).pipe = s.pipe := rfl
@[simp] theorem State.setFib_mem (w k j : Nat) (x : Fibre) : (s.setFib w k j x).mem = s.mem := rfl
@[simp] theorem State.setFib_owner (w k j : Nat) (x : Fibre) : (s.setFib w k j x).owner = s.owner := rfl
@[simp] theorem State.setFib_failing (w k j : Nat) (x : Fibre) : (s.setFib w k j x).failing = s.failing := rfl
@[simp] theorem State.setFib_reported (w k j : Nat) (x : Fibre) : (s.setFib w k j x).reported = s.reported := rfl
@[simp] theorem State.setFib_tlb (w k j : Nat) (x : Fibre) : (s.setFib w k j x).tlb = s.tlb := rfl
@[simp] theorem State.setFib_l1tlb (w k j : Nat) (x : Fibre) : (s.setFib w k j x).l1tlb = s.l1tlb := rfl
@[simp] theorem State.setFib_walks (w k j : Nat) (x : Fibre) : (s.setFib w k j x).walks = s.walks := rfl
@[simp] theorem State.setFib_walkFails (w k j : Nat) (x : Fibre) : (s.setFib w k j x).walkFails = s.walkFails := rfl
@[simp] theorem State.setFib_invs (w k j : Nat) (x : Fibre) : (s.setFib w k j x).invs = s.invs := rfl
@[simp] theorem State.setFib_lines (w k j : Nat) (x : Fibre) : (s.setFib w k j x).lines = s.lines := rfl
@[simp] theorem State.setFib_l1 (w k j : Nat) (x : Fibre) : (s.setFib w k j x).l1 = s.l1 := rfl
@[simp] theorem State.setFib_homes (w k j : Nat) (x : Fibre) : (s.setFib w k j x).homes = s.homes := rfl
@[simp] theorem State.setFib_orderQ (w k j : Nat) (x : Fibre) : (s.setFib w k j x).orderQ = s.orderQ := rfl
@[simp] theorem State.setFib_mesh (w k j : Nat) (x : Fibre) : (s.setFib w k j x).mesh = s.mesh := rfl
@[simp] theorem State.setFib_jobs (w k j : Nat) (x : Fibre) : (s.setFib w k j x).jobs = s.jobs := rfl
@[simp] theorem State.setFib_accs (w k j : Nat) (x : Fibre) : (s.setFib w k j x).accs = s.accs := rfl
@[simp] theorem State.setFib_sums (w k j : Nat) (x : Fibre) : (s.setFib w k j x).sums = s.sums := rfl
@[simp] theorem State.setFib_fresh (w k j : Nat) (x : Fibre) : (s.setFib w k j x).fresh = s.fresh := rfl
@[simp] theorem State.setFib_landed (w k j : Nat) (x : Fibre) : (s.setFib w k j x).landed = s.landed := rfl
@[simp] theorem State.setFib_bwins (w k j : Nat) (x : Fibre) : (s.setFib w k j x).bwins = s.bwins := rfl
@[simp] theorem State.setFib_writers (w k j : Nat) (x : Fibre) : (s.setFib w k j x).writers = s.writers := rfl
@[simp] theorem State.setFib_counters (w k j : Nat) (x : Fibre) : (s.setFib w k j x).counters = s.counters := rfl
@[simp] theorem State.setFib_ctrBlocks (w k j : Nat) (x : Fibre) : (s.setFib w k j x).ctrBlocks = s.ctrBlocks := rfl
@[simp] theorem State.setFib_entries (w k j : Nat) (x : Fibre) : (s.setFib w k j x).entries = s.entries := rfl
@[simp] theorem State.setFib_netQ (w k j : Nat) (x : Fibre) : (s.setFib w k j x).netQ = s.netQ := rfl
@[simp] theorem State.setFib_netReqs (w k j : Nat) (x : Fibre) : (s.setFib w k j x).netReqs = s.netReqs := rfl
@[simp] theorem State.setFib_releases (w k j : Nat) (x : Fibre) : (s.setFib w k j x).releases = s.releases := rfl
@[simp] theorem State.setFib_trees (w k j : Nat) (x : Fibre) : (s.setFib w k j x).trees = s.trees := rfl
@[simp] theorem State.setFib_ttags (w k j : Nat) (x : Fibre) : (s.setFib w k j x).ttags = s.ttags := rfl
@[simp] theorem State.setFib_podDir (w k j : Nat) (x : Fibre) : (s.setFib w k j x).podDir = s.podDir := rfl
@[simp] theorem State.setFib_podLines (w k j : Nat) (x : Fibre) : (s.setFib w k j x).podLines = s.podLines := rfl
@[simp] theorem State.setFib_podReqs (w k j : Nat) (x : Fibre) : (s.setFib w k j x).podReqs = s.podReqs := rfl
@[simp] theorem State.setFib_podAwait (w k j : Nat) (x : Fibre) : (s.setFib w k j x).podAwait = s.podAwait := rfl
@[simp] theorem State.setFib_podExcl (w k j : Nat) (x : Fibre) : (s.setFib w k j x).podExcl = s.podExcl := rfl
@[simp] theorem State.setFib_podHeld (w k j : Nat) (x : Fibre) : (s.setFib w k j x).podHeld = s.podHeld := rfl
@[simp] theorem State.setFib_podShut (w k j : Nat) (x : Fibre) : (s.setFib w k j x).podShut = s.podShut := rfl
@[simp] theorem State.setFib_ports (w k j : Nat) (x : Fibre) : (s.setFib w k j x).ports = s.ports := rfl
@[simp] theorem State.setFib_funcs (w k j : Nat) (x : Fibre) : (s.setFib w k j x).funcs = s.funcs := rfl
@[simp] theorem State.setFib_hostOps (w k j : Nat) (x : Fibre) : (s.setFib w k j x).hostOps = s.hostOps := rfl
@[simp] theorem State.setFib_rdmaHeld (w k j : Nat) (x : Fibre) : (s.setFib w k j x).rdmaHeld = s.rdmaHeld := rfl
@[simp] theorem State.setFib_errWords (w k j : Nat) (x : Fibre) : (s.setFib w k j x).errWords = s.errWords := rfl
@[simp] theorem State.setFib_ethWait (w k j : Nat) (x : Fibre) : (s.setFib w k j x).ethWait = s.ethWait := rfl
@[simp] theorem State.setFib_ethOut (w k j : Nat) (x : Fibre) : (s.setFib w k j x).ethOut = s.ethOut := rfl

/-! ### modFib -/

@[simp] theorem State.modFib_agenda (w k j : Nat) (g : Fibre → Fibre) : (s.modFib w k j g).agenda = s.agenda := rfl
@[simp] theorem State.modFib_rx (w k j : Nat) (g : Fibre → Fibre) : (s.modFib w k j g).rx = s.rx := rfl
@[simp] theorem State.modFib_inbox (w k j : Nat) (g : Fibre → Fibre) : (s.modFib w k j g).inbox = s.inbox := rfl
@[simp] theorem State.modFib_tick (w k j : Nat) (g : Fibre → Fibre) : (s.modFib w k j g).tick = s.tick := rfl
@[simp] theorem State.modFib_focus (w k j : Nat) (g : Fibre → Fibre) : (s.modFib w k j g).focus = s.focus := rfl
@[simp] theorem State.modFib_held (w k j : Nat) (g : Fibre → Fibre) : (s.modFib w k j g).held = s.held := rfl
@[simp] theorem State.modFib_free (w k j : Nat) (g : Fibre → Fibre) : (s.modFib w k j g).free = s.free := rfl
@[simp] theorem State.modFib_nextId (w k j : Nat) (g : Fibre → Fibre) : (s.modFib w k j g).nextId = s.nextId := rfl
@[simp] theorem State.modFib_nextWg (w k j : Nat) (g : Fibre → Fibre) : (s.modFib w k j g).nextWg = s.nextWg := rfl
@[simp] theorem State.modFib_base (w k j : Nat) (g : Fibre → Fibre) : (s.modFib w k j g).base = s.base := rfl
@[simp] theorem State.modFib_cairn (w k j : Nat) (g : Fibre → Fibre) : (s.modFib w k j g).cairn = s.cairn := rfl
@[simp] theorem State.modFib_parts (w k j : Nat) (g : Fibre → Fibre) : (s.modFib w k j g).parts = s.parts := rfl
@[simp] theorem State.modFib_graphs (w k j : Nat) (g : Fibre → Fibre) : (s.modFib w k j g).graphs = s.graphs := rfl
@[simp] theorem State.modFib_nextHandle (w k j : Nat) (g : Fibre → Fibre) : (s.modFib w k j g).nextHandle = s.nextHandle := rfl
@[simp] theorem State.modFib_roundNext (w k j : Nat) (g : Fibre → Fibre) : (s.modFib w k j g).roundNext = s.roundNext := rfl
@[simp] theorem State.modFib_cores (w k j : Nat) (g : Fibre → Fibre) : (s.modFib w k j g).cores = s.cores := rfl
@[simp] theorem State.modFib_pipe (w k j : Nat) (g : Fibre → Fibre) : (s.modFib w k j g).pipe = s.pipe := rfl
@[simp] theorem State.modFib_mem (w k j : Nat) (g : Fibre → Fibre) : (s.modFib w k j g).mem = s.mem := rfl
@[simp] theorem State.modFib_owner (w k j : Nat) (g : Fibre → Fibre) : (s.modFib w k j g).owner = s.owner := rfl
@[simp] theorem State.modFib_failing (w k j : Nat) (g : Fibre → Fibre) : (s.modFib w k j g).failing = s.failing := rfl
@[simp] theorem State.modFib_reported (w k j : Nat) (g : Fibre → Fibre) : (s.modFib w k j g).reported = s.reported := rfl
@[simp] theorem State.modFib_tlb (w k j : Nat) (g : Fibre → Fibre) : (s.modFib w k j g).tlb = s.tlb := rfl
@[simp] theorem State.modFib_l1tlb (w k j : Nat) (g : Fibre → Fibre) : (s.modFib w k j g).l1tlb = s.l1tlb := rfl
@[simp] theorem State.modFib_walks (w k j : Nat) (g : Fibre → Fibre) : (s.modFib w k j g).walks = s.walks := rfl
@[simp] theorem State.modFib_walkFails (w k j : Nat) (g : Fibre → Fibre) : (s.modFib w k j g).walkFails = s.walkFails := rfl
@[simp] theorem State.modFib_invs (w k j : Nat) (g : Fibre → Fibre) : (s.modFib w k j g).invs = s.invs := rfl
@[simp] theorem State.modFib_lines (w k j : Nat) (g : Fibre → Fibre) : (s.modFib w k j g).lines = s.lines := rfl
@[simp] theorem State.modFib_l1 (w k j : Nat) (g : Fibre → Fibre) : (s.modFib w k j g).l1 = s.l1 := rfl
@[simp] theorem State.modFib_homes (w k j : Nat) (g : Fibre → Fibre) : (s.modFib w k j g).homes = s.homes := rfl
@[simp] theorem State.modFib_orderQ (w k j : Nat) (g : Fibre → Fibre) : (s.modFib w k j g).orderQ = s.orderQ := rfl
@[simp] theorem State.modFib_mesh (w k j : Nat) (g : Fibre → Fibre) : (s.modFib w k j g).mesh = s.mesh := rfl
@[simp] theorem State.modFib_jobs (w k j : Nat) (g : Fibre → Fibre) : (s.modFib w k j g).jobs = s.jobs := rfl
@[simp] theorem State.modFib_accs (w k j : Nat) (g : Fibre → Fibre) : (s.modFib w k j g).accs = s.accs := rfl
@[simp] theorem State.modFib_sums (w k j : Nat) (g : Fibre → Fibre) : (s.modFib w k j g).sums = s.sums := rfl
@[simp] theorem State.modFib_fresh (w k j : Nat) (g : Fibre → Fibre) : (s.modFib w k j g).fresh = s.fresh := rfl
@[simp] theorem State.modFib_landed (w k j : Nat) (g : Fibre → Fibre) : (s.modFib w k j g).landed = s.landed := rfl
@[simp] theorem State.modFib_bwins (w k j : Nat) (g : Fibre → Fibre) : (s.modFib w k j g).bwins = s.bwins := rfl
@[simp] theorem State.modFib_writers (w k j : Nat) (g : Fibre → Fibre) : (s.modFib w k j g).writers = s.writers := rfl
@[simp] theorem State.modFib_counters (w k j : Nat) (g : Fibre → Fibre) : (s.modFib w k j g).counters = s.counters := rfl
@[simp] theorem State.modFib_ctrBlocks (w k j : Nat) (g : Fibre → Fibre) : (s.modFib w k j g).ctrBlocks = s.ctrBlocks := rfl
@[simp] theorem State.modFib_entries (w k j : Nat) (g : Fibre → Fibre) : (s.modFib w k j g).entries = s.entries := rfl
@[simp] theorem State.modFib_netQ (w k j : Nat) (g : Fibre → Fibre) : (s.modFib w k j g).netQ = s.netQ := rfl
@[simp] theorem State.modFib_netReqs (w k j : Nat) (g : Fibre → Fibre) : (s.modFib w k j g).netReqs = s.netReqs := rfl
@[simp] theorem State.modFib_releases (w k j : Nat) (g : Fibre → Fibre) : (s.modFib w k j g).releases = s.releases := rfl
@[simp] theorem State.modFib_trees (w k j : Nat) (g : Fibre → Fibre) : (s.modFib w k j g).trees = s.trees := rfl
@[simp] theorem State.modFib_ttags (w k j : Nat) (g : Fibre → Fibre) : (s.modFib w k j g).ttags = s.ttags := rfl
@[simp] theorem State.modFib_podDir (w k j : Nat) (g : Fibre → Fibre) : (s.modFib w k j g).podDir = s.podDir := rfl
@[simp] theorem State.modFib_podLines (w k j : Nat) (g : Fibre → Fibre) : (s.modFib w k j g).podLines = s.podLines := rfl
@[simp] theorem State.modFib_podReqs (w k j : Nat) (g : Fibre → Fibre) : (s.modFib w k j g).podReqs = s.podReqs := rfl
@[simp] theorem State.modFib_podAwait (w k j : Nat) (g : Fibre → Fibre) : (s.modFib w k j g).podAwait = s.podAwait := rfl
@[simp] theorem State.modFib_podExcl (w k j : Nat) (g : Fibre → Fibre) : (s.modFib w k j g).podExcl = s.podExcl := rfl
@[simp] theorem State.modFib_podHeld (w k j : Nat) (g : Fibre → Fibre) : (s.modFib w k j g).podHeld = s.podHeld := rfl
@[simp] theorem State.modFib_podShut (w k j : Nat) (g : Fibre → Fibre) : (s.modFib w k j g).podShut = s.podShut := rfl
@[simp] theorem State.modFib_ports (w k j : Nat) (g : Fibre → Fibre) : (s.modFib w k j g).ports = s.ports := rfl
@[simp] theorem State.modFib_funcs (w k j : Nat) (g : Fibre → Fibre) : (s.modFib w k j g).funcs = s.funcs := rfl
@[simp] theorem State.modFib_hostOps (w k j : Nat) (g : Fibre → Fibre) : (s.modFib w k j g).hostOps = s.hostOps := rfl
@[simp] theorem State.modFib_rdmaHeld (w k j : Nat) (g : Fibre → Fibre) : (s.modFib w k j g).rdmaHeld = s.rdmaHeld := rfl
@[simp] theorem State.modFib_errWords (w k j : Nat) (g : Fibre → Fibre) : (s.modFib w k j g).errWords = s.errWords := rfl
@[simp] theorem State.modFib_ethWait (w k j : Nat) (g : Fibre → Fibre) : (s.modFib w k j g).ethWait = s.ethWait := rfl
@[simp] theorem State.modFib_ethOut (w k j : Nat) (g : Fibre → Fibre) : (s.modFib w k j g).ethOut = s.ethOut := rfl

/-! ### modFibOf -/

@[simp] theorem State.modFibOf_agenda (f : Focus) (g : Fibre → Fibre) : (s.modFibOf f g).agenda = s.agenda := rfl
@[simp] theorem State.modFibOf_rx (f : Focus) (g : Fibre → Fibre) : (s.modFibOf f g).rx = s.rx := rfl
@[simp] theorem State.modFibOf_inbox (f : Focus) (g : Fibre → Fibre) : (s.modFibOf f g).inbox = s.inbox := rfl
@[simp] theorem State.modFibOf_tick (f : Focus) (g : Fibre → Fibre) : (s.modFibOf f g).tick = s.tick := rfl
@[simp] theorem State.modFibOf_focus (f : Focus) (g : Fibre → Fibre) : (s.modFibOf f g).focus = s.focus := rfl
@[simp] theorem State.modFibOf_held (f : Focus) (g : Fibre → Fibre) : (s.modFibOf f g).held = s.held := rfl
@[simp] theorem State.modFibOf_free (f : Focus) (g : Fibre → Fibre) : (s.modFibOf f g).free = s.free := rfl
@[simp] theorem State.modFibOf_nextId (f : Focus) (g : Fibre → Fibre) : (s.modFibOf f g).nextId = s.nextId := rfl
@[simp] theorem State.modFibOf_nextWg (f : Focus) (g : Fibre → Fibre) : (s.modFibOf f g).nextWg = s.nextWg := rfl
@[simp] theorem State.modFibOf_base (f : Focus) (g : Fibre → Fibre) : (s.modFibOf f g).base = s.base := rfl
@[simp] theorem State.modFibOf_cairn (f : Focus) (g : Fibre → Fibre) : (s.modFibOf f g).cairn = s.cairn := rfl
@[simp] theorem State.modFibOf_parts (f : Focus) (g : Fibre → Fibre) : (s.modFibOf f g).parts = s.parts := rfl
@[simp] theorem State.modFibOf_graphs (f : Focus) (g : Fibre → Fibre) : (s.modFibOf f g).graphs = s.graphs := rfl
@[simp] theorem State.modFibOf_nextHandle (f : Focus) (g : Fibre → Fibre) : (s.modFibOf f g).nextHandle = s.nextHandle := rfl
@[simp] theorem State.modFibOf_roundNext (f : Focus) (g : Fibre → Fibre) : (s.modFibOf f g).roundNext = s.roundNext := rfl
@[simp] theorem State.modFibOf_cores (f : Focus) (g : Fibre → Fibre) : (s.modFibOf f g).cores = s.cores := rfl
@[simp] theorem State.modFibOf_pipe (f : Focus) (g : Fibre → Fibre) : (s.modFibOf f g).pipe = s.pipe := rfl
@[simp] theorem State.modFibOf_mem (f : Focus) (g : Fibre → Fibre) : (s.modFibOf f g).mem = s.mem := rfl
@[simp] theorem State.modFibOf_owner (f : Focus) (g : Fibre → Fibre) : (s.modFibOf f g).owner = s.owner := rfl
@[simp] theorem State.modFibOf_failing (f : Focus) (g : Fibre → Fibre) : (s.modFibOf f g).failing = s.failing := rfl
@[simp] theorem State.modFibOf_reported (f : Focus) (g : Fibre → Fibre) : (s.modFibOf f g).reported = s.reported := rfl
@[simp] theorem State.modFibOf_tlb (f : Focus) (g : Fibre → Fibre) : (s.modFibOf f g).tlb = s.tlb := rfl
@[simp] theorem State.modFibOf_l1tlb (f : Focus) (g : Fibre → Fibre) : (s.modFibOf f g).l1tlb = s.l1tlb := rfl
@[simp] theorem State.modFibOf_walks (f : Focus) (g : Fibre → Fibre) : (s.modFibOf f g).walks = s.walks := rfl
@[simp] theorem State.modFibOf_walkFails (f : Focus) (g : Fibre → Fibre) : (s.modFibOf f g).walkFails = s.walkFails := rfl
@[simp] theorem State.modFibOf_invs (f : Focus) (g : Fibre → Fibre) : (s.modFibOf f g).invs = s.invs := rfl
@[simp] theorem State.modFibOf_lines (f : Focus) (g : Fibre → Fibre) : (s.modFibOf f g).lines = s.lines := rfl
@[simp] theorem State.modFibOf_l1 (f : Focus) (g : Fibre → Fibre) : (s.modFibOf f g).l1 = s.l1 := rfl
@[simp] theorem State.modFibOf_homes (f : Focus) (g : Fibre → Fibre) : (s.modFibOf f g).homes = s.homes := rfl
@[simp] theorem State.modFibOf_orderQ (f : Focus) (g : Fibre → Fibre) : (s.modFibOf f g).orderQ = s.orderQ := rfl
@[simp] theorem State.modFibOf_mesh (f : Focus) (g : Fibre → Fibre) : (s.modFibOf f g).mesh = s.mesh := rfl
@[simp] theorem State.modFibOf_jobs (f : Focus) (g : Fibre → Fibre) : (s.modFibOf f g).jobs = s.jobs := rfl
@[simp] theorem State.modFibOf_accs (f : Focus) (g : Fibre → Fibre) : (s.modFibOf f g).accs = s.accs := rfl
@[simp] theorem State.modFibOf_sums (f : Focus) (g : Fibre → Fibre) : (s.modFibOf f g).sums = s.sums := rfl
@[simp] theorem State.modFibOf_fresh (f : Focus) (g : Fibre → Fibre) : (s.modFibOf f g).fresh = s.fresh := rfl
@[simp] theorem State.modFibOf_landed (f : Focus) (g : Fibre → Fibre) : (s.modFibOf f g).landed = s.landed := rfl
@[simp] theorem State.modFibOf_bwins (f : Focus) (g : Fibre → Fibre) : (s.modFibOf f g).bwins = s.bwins := rfl
@[simp] theorem State.modFibOf_writers (f : Focus) (g : Fibre → Fibre) : (s.modFibOf f g).writers = s.writers := rfl
@[simp] theorem State.modFibOf_counters (f : Focus) (g : Fibre → Fibre) : (s.modFibOf f g).counters = s.counters := rfl
@[simp] theorem State.modFibOf_ctrBlocks (f : Focus) (g : Fibre → Fibre) : (s.modFibOf f g).ctrBlocks = s.ctrBlocks := rfl
@[simp] theorem State.modFibOf_entries (f : Focus) (g : Fibre → Fibre) : (s.modFibOf f g).entries = s.entries := rfl
@[simp] theorem State.modFibOf_netQ (f : Focus) (g : Fibre → Fibre) : (s.modFibOf f g).netQ = s.netQ := rfl
@[simp] theorem State.modFibOf_netReqs (f : Focus) (g : Fibre → Fibre) : (s.modFibOf f g).netReqs = s.netReqs := rfl
@[simp] theorem State.modFibOf_releases (f : Focus) (g : Fibre → Fibre) : (s.modFibOf f g).releases = s.releases := rfl
@[simp] theorem State.modFibOf_trees (f : Focus) (g : Fibre → Fibre) : (s.modFibOf f g).trees = s.trees := rfl
@[simp] theorem State.modFibOf_ttags (f : Focus) (g : Fibre → Fibre) : (s.modFibOf f g).ttags = s.ttags := rfl
@[simp] theorem State.modFibOf_podDir (f : Focus) (g : Fibre → Fibre) : (s.modFibOf f g).podDir = s.podDir := rfl
@[simp] theorem State.modFibOf_podLines (f : Focus) (g : Fibre → Fibre) : (s.modFibOf f g).podLines = s.podLines := rfl
@[simp] theorem State.modFibOf_podReqs (f : Focus) (g : Fibre → Fibre) : (s.modFibOf f g).podReqs = s.podReqs := rfl
@[simp] theorem State.modFibOf_podAwait (f : Focus) (g : Fibre → Fibre) : (s.modFibOf f g).podAwait = s.podAwait := rfl
@[simp] theorem State.modFibOf_podExcl (f : Focus) (g : Fibre → Fibre) : (s.modFibOf f g).podExcl = s.podExcl := rfl
@[simp] theorem State.modFibOf_podHeld (f : Focus) (g : Fibre → Fibre) : (s.modFibOf f g).podHeld = s.podHeld := rfl
@[simp] theorem State.modFibOf_podShut (f : Focus) (g : Fibre → Fibre) : (s.modFibOf f g).podShut = s.podShut := rfl
@[simp] theorem State.modFibOf_ports (f : Focus) (g : Fibre → Fibre) : (s.modFibOf f g).ports = s.ports := rfl
@[simp] theorem State.modFibOf_funcs (f : Focus) (g : Fibre → Fibre) : (s.modFibOf f g).funcs = s.funcs := rfl
@[simp] theorem State.modFibOf_hostOps (f : Focus) (g : Fibre → Fibre) : (s.modFibOf f g).hostOps = s.hostOps := rfl
@[simp] theorem State.modFibOf_rdmaHeld (f : Focus) (g : Fibre → Fibre) : (s.modFibOf f g).rdmaHeld = s.rdmaHeld := rfl
@[simp] theorem State.modFibOf_errWords (f : Focus) (g : Fibre → Fibre) : (s.modFibOf f g).errWords = s.errWords := rfl
@[simp] theorem State.modFibOf_ethWait (f : Focus) (g : Fibre → Fibre) : (s.modFibOf f g).ethWait = s.ethWait := rfl
@[simp] theorem State.modFibOf_ethOut (f : Focus) (g : Fibre → Fibre) : (s.modFibOf f g).ethOut = s.ethOut := rfl

/-! ### setCore -/

@[simp] theorem State.setCore_agenda (c : Nat) (x : Core) : (s.setCore c x).agenda = s.agenda := rfl
@[simp] theorem State.setCore_rx (c : Nat) (x : Core) : (s.setCore c x).rx = s.rx := rfl
@[simp] theorem State.setCore_inbox (c : Nat) (x : Core) : (s.setCore c x).inbox = s.inbox := rfl
@[simp] theorem State.setCore_tick (c : Nat) (x : Core) : (s.setCore c x).tick = s.tick := rfl
@[simp] theorem State.setCore_focus (c : Nat) (x : Core) : (s.setCore c x).focus = s.focus := rfl
@[simp] theorem State.setCore_held (c : Nat) (x : Core) : (s.setCore c x).held = s.held := rfl
@[simp] theorem State.setCore_free (c : Nat) (x : Core) : (s.setCore c x).free = s.free := rfl
@[simp] theorem State.setCore_nextId (c : Nat) (x : Core) : (s.setCore c x).nextId = s.nextId := rfl
@[simp] theorem State.setCore_nextWg (c : Nat) (x : Core) : (s.setCore c x).nextWg = s.nextWg := rfl
@[simp] theorem State.setCore_base (c : Nat) (x : Core) : (s.setCore c x).base = s.base := rfl
@[simp] theorem State.setCore_cairn (c : Nat) (x : Core) : (s.setCore c x).cairn = s.cairn := rfl
@[simp] theorem State.setCore_parts (c : Nat) (x : Core) : (s.setCore c x).parts = s.parts := rfl
@[simp] theorem State.setCore_graphs (c : Nat) (x : Core) : (s.setCore c x).graphs = s.graphs := rfl
@[simp] theorem State.setCore_nextHandle (c : Nat) (x : Core) : (s.setCore c x).nextHandle = s.nextHandle := rfl
@[simp] theorem State.setCore_roundNext (c : Nat) (x : Core) : (s.setCore c x).roundNext = s.roundNext := rfl
@[simp] theorem State.setCore_wgs (c : Nat) (x : Core) : (s.setCore c x).wgs = s.wgs := rfl
@[simp] theorem State.setCore_pipe (c : Nat) (x : Core) : (s.setCore c x).pipe = s.pipe := rfl
@[simp] theorem State.setCore_mem (c : Nat) (x : Core) : (s.setCore c x).mem = s.mem := rfl
@[simp] theorem State.setCore_owner (c : Nat) (x : Core) : (s.setCore c x).owner = s.owner := rfl
@[simp] theorem State.setCore_failing (c : Nat) (x : Core) : (s.setCore c x).failing = s.failing := rfl
@[simp] theorem State.setCore_reported (c : Nat) (x : Core) : (s.setCore c x).reported = s.reported := rfl
@[simp] theorem State.setCore_tlb (c : Nat) (x : Core) : (s.setCore c x).tlb = s.tlb := rfl
@[simp] theorem State.setCore_l1tlb (c : Nat) (x : Core) : (s.setCore c x).l1tlb = s.l1tlb := rfl
@[simp] theorem State.setCore_walks (c : Nat) (x : Core) : (s.setCore c x).walks = s.walks := rfl
@[simp] theorem State.setCore_walkFails (c : Nat) (x : Core) : (s.setCore c x).walkFails = s.walkFails := rfl
@[simp] theorem State.setCore_invs (c : Nat) (x : Core) : (s.setCore c x).invs = s.invs := rfl
@[simp] theorem State.setCore_lines (c : Nat) (x : Core) : (s.setCore c x).lines = s.lines := rfl
@[simp] theorem State.setCore_l1 (c : Nat) (x : Core) : (s.setCore c x).l1 = s.l1 := rfl
@[simp] theorem State.setCore_homes (c : Nat) (x : Core) : (s.setCore c x).homes = s.homes := rfl
@[simp] theorem State.setCore_orderQ (c : Nat) (x : Core) : (s.setCore c x).orderQ = s.orderQ := rfl
@[simp] theorem State.setCore_mesh (c : Nat) (x : Core) : (s.setCore c x).mesh = s.mesh := rfl
@[simp] theorem State.setCore_jobs (c : Nat) (x : Core) : (s.setCore c x).jobs = s.jobs := rfl
@[simp] theorem State.setCore_accs (c : Nat) (x : Core) : (s.setCore c x).accs = s.accs := rfl
@[simp] theorem State.setCore_sums (c : Nat) (x : Core) : (s.setCore c x).sums = s.sums := rfl
@[simp] theorem State.setCore_fresh (c : Nat) (x : Core) : (s.setCore c x).fresh = s.fresh := rfl
@[simp] theorem State.setCore_landed (c : Nat) (x : Core) : (s.setCore c x).landed = s.landed := rfl
@[simp] theorem State.setCore_bwins (c : Nat) (x : Core) : (s.setCore c x).bwins = s.bwins := rfl
@[simp] theorem State.setCore_writers (c : Nat) (x : Core) : (s.setCore c x).writers = s.writers := rfl
@[simp] theorem State.setCore_counters (c : Nat) (x : Core) : (s.setCore c x).counters = s.counters := rfl
@[simp] theorem State.setCore_ctrBlocks (c : Nat) (x : Core) : (s.setCore c x).ctrBlocks = s.ctrBlocks := rfl
@[simp] theorem State.setCore_entries (c : Nat) (x : Core) : (s.setCore c x).entries = s.entries := rfl
@[simp] theorem State.setCore_netQ (c : Nat) (x : Core) : (s.setCore c x).netQ = s.netQ := rfl
@[simp] theorem State.setCore_netReqs (c : Nat) (x : Core) : (s.setCore c x).netReqs = s.netReqs := rfl
@[simp] theorem State.setCore_releases (c : Nat) (x : Core) : (s.setCore c x).releases = s.releases := rfl
@[simp] theorem State.setCore_trees (c : Nat) (x : Core) : (s.setCore c x).trees = s.trees := rfl
@[simp] theorem State.setCore_ttags (c : Nat) (x : Core) : (s.setCore c x).ttags = s.ttags := rfl
@[simp] theorem State.setCore_podDir (c : Nat) (x : Core) : (s.setCore c x).podDir = s.podDir := rfl
@[simp] theorem State.setCore_podLines (c : Nat) (x : Core) : (s.setCore c x).podLines = s.podLines := rfl
@[simp] theorem State.setCore_podReqs (c : Nat) (x : Core) : (s.setCore c x).podReqs = s.podReqs := rfl
@[simp] theorem State.setCore_podAwait (c : Nat) (x : Core) : (s.setCore c x).podAwait = s.podAwait := rfl
@[simp] theorem State.setCore_podExcl (c : Nat) (x : Core) : (s.setCore c x).podExcl = s.podExcl := rfl
@[simp] theorem State.setCore_podHeld (c : Nat) (x : Core) : (s.setCore c x).podHeld = s.podHeld := rfl
@[simp] theorem State.setCore_podShut (c : Nat) (x : Core) : (s.setCore c x).podShut = s.podShut := rfl
@[simp] theorem State.setCore_ports (c : Nat) (x : Core) : (s.setCore c x).ports = s.ports := rfl
@[simp] theorem State.setCore_funcs (c : Nat) (x : Core) : (s.setCore c x).funcs = s.funcs := rfl
@[simp] theorem State.setCore_hostOps (c : Nat) (x : Core) : (s.setCore c x).hostOps = s.hostOps := rfl
@[simp] theorem State.setCore_rdmaHeld (c : Nat) (x : Core) : (s.setCore c x).rdmaHeld = s.rdmaHeld := rfl
@[simp] theorem State.setCore_errWords (c : Nat) (x : Core) : (s.setCore c x).errWords = s.errWords := rfl
@[simp] theorem State.setCore_ethWait (c : Nat) (x : Core) : (s.setCore c x).ethWait = s.ethWait := rfl
@[simp] theorem State.setCore_ethOut (c : Nat) (x : Core) : (s.setCore c x).ethOut = s.ethOut := rfl

/-! ### modCore -/

@[simp] theorem State.modCore_agenda (c : Nat) (g : Core → Core) : (s.modCore c g).agenda = s.agenda := rfl
@[simp] theorem State.modCore_rx (c : Nat) (g : Core → Core) : (s.modCore c g).rx = s.rx := rfl
@[simp] theorem State.modCore_inbox (c : Nat) (g : Core → Core) : (s.modCore c g).inbox = s.inbox := rfl
@[simp] theorem State.modCore_tick (c : Nat) (g : Core → Core) : (s.modCore c g).tick = s.tick := rfl
@[simp] theorem State.modCore_focus (c : Nat) (g : Core → Core) : (s.modCore c g).focus = s.focus := rfl
@[simp] theorem State.modCore_held (c : Nat) (g : Core → Core) : (s.modCore c g).held = s.held := rfl
@[simp] theorem State.modCore_free (c : Nat) (g : Core → Core) : (s.modCore c g).free = s.free := rfl
@[simp] theorem State.modCore_nextId (c : Nat) (g : Core → Core) : (s.modCore c g).nextId = s.nextId := rfl
@[simp] theorem State.modCore_nextWg (c : Nat) (g : Core → Core) : (s.modCore c g).nextWg = s.nextWg := rfl
@[simp] theorem State.modCore_base (c : Nat) (g : Core → Core) : (s.modCore c g).base = s.base := rfl
@[simp] theorem State.modCore_cairn (c : Nat) (g : Core → Core) : (s.modCore c g).cairn = s.cairn := rfl
@[simp] theorem State.modCore_parts (c : Nat) (g : Core → Core) : (s.modCore c g).parts = s.parts := rfl
@[simp] theorem State.modCore_graphs (c : Nat) (g : Core → Core) : (s.modCore c g).graphs = s.graphs := rfl
@[simp] theorem State.modCore_nextHandle (c : Nat) (g : Core → Core) : (s.modCore c g).nextHandle = s.nextHandle := rfl
@[simp] theorem State.modCore_roundNext (c : Nat) (g : Core → Core) : (s.modCore c g).roundNext = s.roundNext := rfl
@[simp] theorem State.modCore_wgs (c : Nat) (g : Core → Core) : (s.modCore c g).wgs = s.wgs := rfl
@[simp] theorem State.modCore_pipe (c : Nat) (g : Core → Core) : (s.modCore c g).pipe = s.pipe := rfl
@[simp] theorem State.modCore_mem (c : Nat) (g : Core → Core) : (s.modCore c g).mem = s.mem := rfl
@[simp] theorem State.modCore_owner (c : Nat) (g : Core → Core) : (s.modCore c g).owner = s.owner := rfl
@[simp] theorem State.modCore_failing (c : Nat) (g : Core → Core) : (s.modCore c g).failing = s.failing := rfl
@[simp] theorem State.modCore_reported (c : Nat) (g : Core → Core) : (s.modCore c g).reported = s.reported := rfl
@[simp] theorem State.modCore_tlb (c : Nat) (g : Core → Core) : (s.modCore c g).tlb = s.tlb := rfl
@[simp] theorem State.modCore_l1tlb (c : Nat) (g : Core → Core) : (s.modCore c g).l1tlb = s.l1tlb := rfl
@[simp] theorem State.modCore_walks (c : Nat) (g : Core → Core) : (s.modCore c g).walks = s.walks := rfl
@[simp] theorem State.modCore_walkFails (c : Nat) (g : Core → Core) : (s.modCore c g).walkFails = s.walkFails := rfl
@[simp] theorem State.modCore_invs (c : Nat) (g : Core → Core) : (s.modCore c g).invs = s.invs := rfl
@[simp] theorem State.modCore_lines (c : Nat) (g : Core → Core) : (s.modCore c g).lines = s.lines := rfl
@[simp] theorem State.modCore_l1 (c : Nat) (g : Core → Core) : (s.modCore c g).l1 = s.l1 := rfl
@[simp] theorem State.modCore_homes (c : Nat) (g : Core → Core) : (s.modCore c g).homes = s.homes := rfl
@[simp] theorem State.modCore_orderQ (c : Nat) (g : Core → Core) : (s.modCore c g).orderQ = s.orderQ := rfl
@[simp] theorem State.modCore_mesh (c : Nat) (g : Core → Core) : (s.modCore c g).mesh = s.mesh := rfl
@[simp] theorem State.modCore_jobs (c : Nat) (g : Core → Core) : (s.modCore c g).jobs = s.jobs := rfl
@[simp] theorem State.modCore_accs (c : Nat) (g : Core → Core) : (s.modCore c g).accs = s.accs := rfl
@[simp] theorem State.modCore_sums (c : Nat) (g : Core → Core) : (s.modCore c g).sums = s.sums := rfl
@[simp] theorem State.modCore_fresh (c : Nat) (g : Core → Core) : (s.modCore c g).fresh = s.fresh := rfl
@[simp] theorem State.modCore_landed (c : Nat) (g : Core → Core) : (s.modCore c g).landed = s.landed := rfl
@[simp] theorem State.modCore_bwins (c : Nat) (g : Core → Core) : (s.modCore c g).bwins = s.bwins := rfl
@[simp] theorem State.modCore_writers (c : Nat) (g : Core → Core) : (s.modCore c g).writers = s.writers := rfl
@[simp] theorem State.modCore_counters (c : Nat) (g : Core → Core) : (s.modCore c g).counters = s.counters := rfl
@[simp] theorem State.modCore_ctrBlocks (c : Nat) (g : Core → Core) : (s.modCore c g).ctrBlocks = s.ctrBlocks := rfl
@[simp] theorem State.modCore_entries (c : Nat) (g : Core → Core) : (s.modCore c g).entries = s.entries := rfl
@[simp] theorem State.modCore_netQ (c : Nat) (g : Core → Core) : (s.modCore c g).netQ = s.netQ := rfl
@[simp] theorem State.modCore_netReqs (c : Nat) (g : Core → Core) : (s.modCore c g).netReqs = s.netReqs := rfl
@[simp] theorem State.modCore_releases (c : Nat) (g : Core → Core) : (s.modCore c g).releases = s.releases := rfl
@[simp] theorem State.modCore_trees (c : Nat) (g : Core → Core) : (s.modCore c g).trees = s.trees := rfl
@[simp] theorem State.modCore_ttags (c : Nat) (g : Core → Core) : (s.modCore c g).ttags = s.ttags := rfl
@[simp] theorem State.modCore_podDir (c : Nat) (g : Core → Core) : (s.modCore c g).podDir = s.podDir := rfl
@[simp] theorem State.modCore_podLines (c : Nat) (g : Core → Core) : (s.modCore c g).podLines = s.podLines := rfl
@[simp] theorem State.modCore_podReqs (c : Nat) (g : Core → Core) : (s.modCore c g).podReqs = s.podReqs := rfl
@[simp] theorem State.modCore_podAwait (c : Nat) (g : Core → Core) : (s.modCore c g).podAwait = s.podAwait := rfl
@[simp] theorem State.modCore_podExcl (c : Nat) (g : Core → Core) : (s.modCore c g).podExcl = s.podExcl := rfl
@[simp] theorem State.modCore_podHeld (c : Nat) (g : Core → Core) : (s.modCore c g).podHeld = s.podHeld := rfl
@[simp] theorem State.modCore_podShut (c : Nat) (g : Core → Core) : (s.modCore c g).podShut = s.podShut := rfl
@[simp] theorem State.modCore_ports (c : Nat) (g : Core → Core) : (s.modCore c g).ports = s.ports := rfl
@[simp] theorem State.modCore_funcs (c : Nat) (g : Core → Core) : (s.modCore c g).funcs = s.funcs := rfl
@[simp] theorem State.modCore_hostOps (c : Nat) (g : Core → Core) : (s.modCore c g).hostOps = s.hostOps := rfl
@[simp] theorem State.modCore_rdmaHeld (c : Nat) (g : Core → Core) : (s.modCore c g).rdmaHeld = s.rdmaHeld := rfl
@[simp] theorem State.modCore_errWords (c : Nat) (g : Core → Core) : (s.modCore c g).errWords = s.errWords := rfl
@[simp] theorem State.modCore_ethWait (c : Nat) (g : Core → Core) : (s.modCore c g).ethWait = s.ethWait := rfl
@[simp] theorem State.modCore_ethOut (c : Nat) (g : Core → Core) : (s.modCore c g).ethOut = s.ethOut := rfl

/-! ### setPart -/

@[simp] theorem State.setPart_agenda (p : Nat) (x : Partition) : (s.setPart p x).agenda = s.agenda := rfl
@[simp] theorem State.setPart_rx (p : Nat) (x : Partition) : (s.setPart p x).rx = s.rx := rfl
@[simp] theorem State.setPart_inbox (p : Nat) (x : Partition) : (s.setPart p x).inbox = s.inbox := rfl
@[simp] theorem State.setPart_tick (p : Nat) (x : Partition) : (s.setPart p x).tick = s.tick := rfl
@[simp] theorem State.setPart_focus (p : Nat) (x : Partition) : (s.setPart p x).focus = s.focus := rfl
@[simp] theorem State.setPart_held (p : Nat) (x : Partition) : (s.setPart p x).held = s.held := rfl
@[simp] theorem State.setPart_free (p : Nat) (x : Partition) : (s.setPart p x).free = s.free := rfl
@[simp] theorem State.setPart_nextId (p : Nat) (x : Partition) : (s.setPart p x).nextId = s.nextId := rfl
@[simp] theorem State.setPart_nextWg (p : Nat) (x : Partition) : (s.setPart p x).nextWg = s.nextWg := rfl
@[simp] theorem State.setPart_base (p : Nat) (x : Partition) : (s.setPart p x).base = s.base := rfl
@[simp] theorem State.setPart_cairn (p : Nat) (x : Partition) : (s.setPart p x).cairn = s.cairn := rfl
@[simp] theorem State.setPart_graphs (p : Nat) (x : Partition) : (s.setPart p x).graphs = s.graphs := rfl
@[simp] theorem State.setPart_nextHandle (p : Nat) (x : Partition) : (s.setPart p x).nextHandle = s.nextHandle := rfl
@[simp] theorem State.setPart_roundNext (p : Nat) (x : Partition) : (s.setPart p x).roundNext = s.roundNext := rfl
@[simp] theorem State.setPart_wgs (p : Nat) (x : Partition) : (s.setPart p x).wgs = s.wgs := rfl
@[simp] theorem State.setPart_cores (p : Nat) (x : Partition) : (s.setPart p x).cores = s.cores := rfl
@[simp] theorem State.setPart_pipe (p : Nat) (x : Partition) : (s.setPart p x).pipe = s.pipe := rfl
@[simp] theorem State.setPart_mem (p : Nat) (x : Partition) : (s.setPart p x).mem = s.mem := rfl
@[simp] theorem State.setPart_owner (p : Nat) (x : Partition) : (s.setPart p x).owner = s.owner := rfl
@[simp] theorem State.setPart_failing (p : Nat) (x : Partition) : (s.setPart p x).failing = s.failing := rfl
@[simp] theorem State.setPart_reported (p : Nat) (x : Partition) : (s.setPart p x).reported = s.reported := rfl
@[simp] theorem State.setPart_tlb (p : Nat) (x : Partition) : (s.setPart p x).tlb = s.tlb := rfl
@[simp] theorem State.setPart_l1tlb (p : Nat) (x : Partition) : (s.setPart p x).l1tlb = s.l1tlb := rfl
@[simp] theorem State.setPart_walks (p : Nat) (x : Partition) : (s.setPart p x).walks = s.walks := rfl
@[simp] theorem State.setPart_walkFails (p : Nat) (x : Partition) : (s.setPart p x).walkFails = s.walkFails := rfl
@[simp] theorem State.setPart_invs (p : Nat) (x : Partition) : (s.setPart p x).invs = s.invs := rfl
@[simp] theorem State.setPart_lines (p : Nat) (x : Partition) : (s.setPart p x).lines = s.lines := rfl
@[simp] theorem State.setPart_l1 (p : Nat) (x : Partition) : (s.setPart p x).l1 = s.l1 := rfl
@[simp] theorem State.setPart_homes (p : Nat) (x : Partition) : (s.setPart p x).homes = s.homes := rfl
@[simp] theorem State.setPart_orderQ (p : Nat) (x : Partition) : (s.setPart p x).orderQ = s.orderQ := rfl
@[simp] theorem State.setPart_mesh (p : Nat) (x : Partition) : (s.setPart p x).mesh = s.mesh := rfl
@[simp] theorem State.setPart_jobs (p : Nat) (x : Partition) : (s.setPart p x).jobs = s.jobs := rfl
@[simp] theorem State.setPart_accs (p : Nat) (x : Partition) : (s.setPart p x).accs = s.accs := rfl
@[simp] theorem State.setPart_sums (p : Nat) (x : Partition) : (s.setPart p x).sums = s.sums := rfl
@[simp] theorem State.setPart_fresh (p : Nat) (x : Partition) : (s.setPart p x).fresh = s.fresh := rfl
@[simp] theorem State.setPart_landed (p : Nat) (x : Partition) : (s.setPart p x).landed = s.landed := rfl
@[simp] theorem State.setPart_bwins (p : Nat) (x : Partition) : (s.setPart p x).bwins = s.bwins := rfl
@[simp] theorem State.setPart_writers (p : Nat) (x : Partition) : (s.setPart p x).writers = s.writers := rfl
@[simp] theorem State.setPart_counters (p : Nat) (x : Partition) : (s.setPart p x).counters = s.counters := rfl
@[simp] theorem State.setPart_ctrBlocks (p : Nat) (x : Partition) : (s.setPart p x).ctrBlocks = s.ctrBlocks := rfl
@[simp] theorem State.setPart_entries (p : Nat) (x : Partition) : (s.setPart p x).entries = s.entries := rfl
@[simp] theorem State.setPart_netQ (p : Nat) (x : Partition) : (s.setPart p x).netQ = s.netQ := rfl
@[simp] theorem State.setPart_netReqs (p : Nat) (x : Partition) : (s.setPart p x).netReqs = s.netReqs := rfl
@[simp] theorem State.setPart_releases (p : Nat) (x : Partition) : (s.setPart p x).releases = s.releases := rfl
@[simp] theorem State.setPart_trees (p : Nat) (x : Partition) : (s.setPart p x).trees = s.trees := rfl
@[simp] theorem State.setPart_ttags (p : Nat) (x : Partition) : (s.setPart p x).ttags = s.ttags := rfl
@[simp] theorem State.setPart_podDir (p : Nat) (x : Partition) : (s.setPart p x).podDir = s.podDir := rfl
@[simp] theorem State.setPart_podLines (p : Nat) (x : Partition) : (s.setPart p x).podLines = s.podLines := rfl
@[simp] theorem State.setPart_podReqs (p : Nat) (x : Partition) : (s.setPart p x).podReqs = s.podReqs := rfl
@[simp] theorem State.setPart_podAwait (p : Nat) (x : Partition) : (s.setPart p x).podAwait = s.podAwait := rfl
@[simp] theorem State.setPart_podExcl (p : Nat) (x : Partition) : (s.setPart p x).podExcl = s.podExcl := rfl
@[simp] theorem State.setPart_podHeld (p : Nat) (x : Partition) : (s.setPart p x).podHeld = s.podHeld := rfl
@[simp] theorem State.setPart_podShut (p : Nat) (x : Partition) : (s.setPart p x).podShut = s.podShut := rfl
@[simp] theorem State.setPart_ports (p : Nat) (x : Partition) : (s.setPart p x).ports = s.ports := rfl
@[simp] theorem State.setPart_funcs (p : Nat) (x : Partition) : (s.setPart p x).funcs = s.funcs := rfl
@[simp] theorem State.setPart_hostOps (p : Nat) (x : Partition) : (s.setPart p x).hostOps = s.hostOps := rfl
@[simp] theorem State.setPart_rdmaHeld (p : Nat) (x : Partition) : (s.setPart p x).rdmaHeld = s.rdmaHeld := rfl
@[simp] theorem State.setPart_errWords (p : Nat) (x : Partition) : (s.setPart p x).errWords = s.errWords := rfl
@[simp] theorem State.setPart_ethWait (p : Nat) (x : Partition) : (s.setPart p x).ethWait = s.ethWait := rfl
@[simp] theorem State.setPart_ethOut (p : Nat) (x : Partition) : (s.setPart p x).ethOut = s.ethOut := rfl

/-! ### modPart -/

@[simp] theorem State.modPart_agenda (p : Nat) (g : Partition → Partition) : (s.modPart p g).agenda = s.agenda := rfl
@[simp] theorem State.modPart_rx (p : Nat) (g : Partition → Partition) : (s.modPart p g).rx = s.rx := rfl
@[simp] theorem State.modPart_inbox (p : Nat) (g : Partition → Partition) : (s.modPart p g).inbox = s.inbox := rfl
@[simp] theorem State.modPart_tick (p : Nat) (g : Partition → Partition) : (s.modPart p g).tick = s.tick := rfl
@[simp] theorem State.modPart_focus (p : Nat) (g : Partition → Partition) : (s.modPart p g).focus = s.focus := rfl
@[simp] theorem State.modPart_held (p : Nat) (g : Partition → Partition) : (s.modPart p g).held = s.held := rfl
@[simp] theorem State.modPart_free (p : Nat) (g : Partition → Partition) : (s.modPart p g).free = s.free := rfl
@[simp] theorem State.modPart_nextId (p : Nat) (g : Partition → Partition) : (s.modPart p g).nextId = s.nextId := rfl
@[simp] theorem State.modPart_nextWg (p : Nat) (g : Partition → Partition) : (s.modPart p g).nextWg = s.nextWg := rfl
@[simp] theorem State.modPart_base (p : Nat) (g : Partition → Partition) : (s.modPart p g).base = s.base := rfl
@[simp] theorem State.modPart_cairn (p : Nat) (g : Partition → Partition) : (s.modPart p g).cairn = s.cairn := rfl
@[simp] theorem State.modPart_graphs (p : Nat) (g : Partition → Partition) : (s.modPart p g).graphs = s.graphs := rfl
@[simp] theorem State.modPart_nextHandle (p : Nat) (g : Partition → Partition) : (s.modPart p g).nextHandle = s.nextHandle := rfl
@[simp] theorem State.modPart_roundNext (p : Nat) (g : Partition → Partition) : (s.modPart p g).roundNext = s.roundNext := rfl
@[simp] theorem State.modPart_wgs (p : Nat) (g : Partition → Partition) : (s.modPart p g).wgs = s.wgs := rfl
@[simp] theorem State.modPart_cores (p : Nat) (g : Partition → Partition) : (s.modPart p g).cores = s.cores := rfl
@[simp] theorem State.modPart_pipe (p : Nat) (g : Partition → Partition) : (s.modPart p g).pipe = s.pipe := rfl
@[simp] theorem State.modPart_mem (p : Nat) (g : Partition → Partition) : (s.modPart p g).mem = s.mem := rfl
@[simp] theorem State.modPart_owner (p : Nat) (g : Partition → Partition) : (s.modPart p g).owner = s.owner := rfl
@[simp] theorem State.modPart_failing (p : Nat) (g : Partition → Partition) : (s.modPart p g).failing = s.failing := rfl
@[simp] theorem State.modPart_reported (p : Nat) (g : Partition → Partition) : (s.modPart p g).reported = s.reported := rfl
@[simp] theorem State.modPart_tlb (p : Nat) (g : Partition → Partition) : (s.modPart p g).tlb = s.tlb := rfl
@[simp] theorem State.modPart_l1tlb (p : Nat) (g : Partition → Partition) : (s.modPart p g).l1tlb = s.l1tlb := rfl
@[simp] theorem State.modPart_walks (p : Nat) (g : Partition → Partition) : (s.modPart p g).walks = s.walks := rfl
@[simp] theorem State.modPart_walkFails (p : Nat) (g : Partition → Partition) : (s.modPart p g).walkFails = s.walkFails := rfl
@[simp] theorem State.modPart_invs (p : Nat) (g : Partition → Partition) : (s.modPart p g).invs = s.invs := rfl
@[simp] theorem State.modPart_lines (p : Nat) (g : Partition → Partition) : (s.modPart p g).lines = s.lines := rfl
@[simp] theorem State.modPart_l1 (p : Nat) (g : Partition → Partition) : (s.modPart p g).l1 = s.l1 := rfl
@[simp] theorem State.modPart_homes (p : Nat) (g : Partition → Partition) : (s.modPart p g).homes = s.homes := rfl
@[simp] theorem State.modPart_orderQ (p : Nat) (g : Partition → Partition) : (s.modPart p g).orderQ = s.orderQ := rfl
@[simp] theorem State.modPart_mesh (p : Nat) (g : Partition → Partition) : (s.modPart p g).mesh = s.mesh := rfl
@[simp] theorem State.modPart_jobs (p : Nat) (g : Partition → Partition) : (s.modPart p g).jobs = s.jobs := rfl
@[simp] theorem State.modPart_accs (p : Nat) (g : Partition → Partition) : (s.modPart p g).accs = s.accs := rfl
@[simp] theorem State.modPart_sums (p : Nat) (g : Partition → Partition) : (s.modPart p g).sums = s.sums := rfl
@[simp] theorem State.modPart_fresh (p : Nat) (g : Partition → Partition) : (s.modPart p g).fresh = s.fresh := rfl
@[simp] theorem State.modPart_landed (p : Nat) (g : Partition → Partition) : (s.modPart p g).landed = s.landed := rfl
@[simp] theorem State.modPart_bwins (p : Nat) (g : Partition → Partition) : (s.modPart p g).bwins = s.bwins := rfl
@[simp] theorem State.modPart_writers (p : Nat) (g : Partition → Partition) : (s.modPart p g).writers = s.writers := rfl
@[simp] theorem State.modPart_counters (p : Nat) (g : Partition → Partition) : (s.modPart p g).counters = s.counters := rfl
@[simp] theorem State.modPart_ctrBlocks (p : Nat) (g : Partition → Partition) : (s.modPart p g).ctrBlocks = s.ctrBlocks := rfl
@[simp] theorem State.modPart_entries (p : Nat) (g : Partition → Partition) : (s.modPart p g).entries = s.entries := rfl
@[simp] theorem State.modPart_netQ (p : Nat) (g : Partition → Partition) : (s.modPart p g).netQ = s.netQ := rfl
@[simp] theorem State.modPart_netReqs (p : Nat) (g : Partition → Partition) : (s.modPart p g).netReqs = s.netReqs := rfl
@[simp] theorem State.modPart_releases (p : Nat) (g : Partition → Partition) : (s.modPart p g).releases = s.releases := rfl
@[simp] theorem State.modPart_trees (p : Nat) (g : Partition → Partition) : (s.modPart p g).trees = s.trees := rfl
@[simp] theorem State.modPart_ttags (p : Nat) (g : Partition → Partition) : (s.modPart p g).ttags = s.ttags := rfl
@[simp] theorem State.modPart_podDir (p : Nat) (g : Partition → Partition) : (s.modPart p g).podDir = s.podDir := rfl
@[simp] theorem State.modPart_podLines (p : Nat) (g : Partition → Partition) : (s.modPart p g).podLines = s.podLines := rfl
@[simp] theorem State.modPart_podReqs (p : Nat) (g : Partition → Partition) : (s.modPart p g).podReqs = s.podReqs := rfl
@[simp] theorem State.modPart_podAwait (p : Nat) (g : Partition → Partition) : (s.modPart p g).podAwait = s.podAwait := rfl
@[simp] theorem State.modPart_podExcl (p : Nat) (g : Partition → Partition) : (s.modPart p g).podExcl = s.podExcl := rfl
@[simp] theorem State.modPart_podHeld (p : Nat) (g : Partition → Partition) : (s.modPart p g).podHeld = s.podHeld := rfl
@[simp] theorem State.modPart_podShut (p : Nat) (g : Partition → Partition) : (s.modPart p g).podShut = s.podShut := rfl
@[simp] theorem State.modPart_ports (p : Nat) (g : Partition → Partition) : (s.modPart p g).ports = s.ports := rfl
@[simp] theorem State.modPart_funcs (p : Nat) (g : Partition → Partition) : (s.modPart p g).funcs = s.funcs := rfl
@[simp] theorem State.modPart_hostOps (p : Nat) (g : Partition → Partition) : (s.modPart p g).hostOps = s.hostOps := rfl
@[simp] theorem State.modPart_rdmaHeld (p : Nat) (g : Partition → Partition) : (s.modPart p g).rdmaHeld = s.rdmaHeld := rfl
@[simp] theorem State.modPart_errWords (p : Nat) (g : Partition → Partition) : (s.modPart p g).errWords = s.errWords := rfl
@[simp] theorem State.modPart_ethWait (p : Nat) (g : Partition → Partition) : (s.modPart p g).ethWait = s.ethWait := rfl
@[simp] theorem State.modPart_ethOut (p : Nat) (g : Partition → Partition) : (s.modPart p g).ethOut = s.ethOut := rfl

/-! ### setFunc -/

@[simp] theorem State.setFunc_agenda (n : Nat) (x : Func) : (s.setFunc n x).agenda = s.agenda := rfl
@[simp] theorem State.setFunc_rx (n : Nat) (x : Func) : (s.setFunc n x).rx = s.rx := rfl
@[simp] theorem State.setFunc_inbox (n : Nat) (x : Func) : (s.setFunc n x).inbox = s.inbox := rfl
@[simp] theorem State.setFunc_tick (n : Nat) (x : Func) : (s.setFunc n x).tick = s.tick := rfl
@[simp] theorem State.setFunc_focus (n : Nat) (x : Func) : (s.setFunc n x).focus = s.focus := rfl
@[simp] theorem State.setFunc_held (n : Nat) (x : Func) : (s.setFunc n x).held = s.held := rfl
@[simp] theorem State.setFunc_free (n : Nat) (x : Func) : (s.setFunc n x).free = s.free := rfl
@[simp] theorem State.setFunc_nextId (n : Nat) (x : Func) : (s.setFunc n x).nextId = s.nextId := rfl
@[simp] theorem State.setFunc_nextWg (n : Nat) (x : Func) : (s.setFunc n x).nextWg = s.nextWg := rfl
@[simp] theorem State.setFunc_base (n : Nat) (x : Func) : (s.setFunc n x).base = s.base := rfl
@[simp] theorem State.setFunc_cairn (n : Nat) (x : Func) : (s.setFunc n x).cairn = s.cairn := rfl
@[simp] theorem State.setFunc_parts (n : Nat) (x : Func) : (s.setFunc n x).parts = s.parts := rfl
@[simp] theorem State.setFunc_graphs (n : Nat) (x : Func) : (s.setFunc n x).graphs = s.graphs := rfl
@[simp] theorem State.setFunc_nextHandle (n : Nat) (x : Func) : (s.setFunc n x).nextHandle = s.nextHandle := rfl
@[simp] theorem State.setFunc_roundNext (n : Nat) (x : Func) : (s.setFunc n x).roundNext = s.roundNext := rfl
@[simp] theorem State.setFunc_wgs (n : Nat) (x : Func) : (s.setFunc n x).wgs = s.wgs := rfl
@[simp] theorem State.setFunc_cores (n : Nat) (x : Func) : (s.setFunc n x).cores = s.cores := rfl
@[simp] theorem State.setFunc_pipe (n : Nat) (x : Func) : (s.setFunc n x).pipe = s.pipe := rfl
@[simp] theorem State.setFunc_mem (n : Nat) (x : Func) : (s.setFunc n x).mem = s.mem := rfl
@[simp] theorem State.setFunc_owner (n : Nat) (x : Func) : (s.setFunc n x).owner = s.owner := rfl
@[simp] theorem State.setFunc_failing (n : Nat) (x : Func) : (s.setFunc n x).failing = s.failing := rfl
@[simp] theorem State.setFunc_reported (n : Nat) (x : Func) : (s.setFunc n x).reported = s.reported := rfl
@[simp] theorem State.setFunc_tlb (n : Nat) (x : Func) : (s.setFunc n x).tlb = s.tlb := rfl
@[simp] theorem State.setFunc_l1tlb (n : Nat) (x : Func) : (s.setFunc n x).l1tlb = s.l1tlb := rfl
@[simp] theorem State.setFunc_walks (n : Nat) (x : Func) : (s.setFunc n x).walks = s.walks := rfl
@[simp] theorem State.setFunc_walkFails (n : Nat) (x : Func) : (s.setFunc n x).walkFails = s.walkFails := rfl
@[simp] theorem State.setFunc_invs (n : Nat) (x : Func) : (s.setFunc n x).invs = s.invs := rfl
@[simp] theorem State.setFunc_lines (n : Nat) (x : Func) : (s.setFunc n x).lines = s.lines := rfl
@[simp] theorem State.setFunc_l1 (n : Nat) (x : Func) : (s.setFunc n x).l1 = s.l1 := rfl
@[simp] theorem State.setFunc_homes (n : Nat) (x : Func) : (s.setFunc n x).homes = s.homes := rfl
@[simp] theorem State.setFunc_orderQ (n : Nat) (x : Func) : (s.setFunc n x).orderQ = s.orderQ := rfl
@[simp] theorem State.setFunc_mesh (n : Nat) (x : Func) : (s.setFunc n x).mesh = s.mesh := rfl
@[simp] theorem State.setFunc_jobs (n : Nat) (x : Func) : (s.setFunc n x).jobs = s.jobs := rfl
@[simp] theorem State.setFunc_accs (n : Nat) (x : Func) : (s.setFunc n x).accs = s.accs := rfl
@[simp] theorem State.setFunc_sums (n : Nat) (x : Func) : (s.setFunc n x).sums = s.sums := rfl
@[simp] theorem State.setFunc_fresh (n : Nat) (x : Func) : (s.setFunc n x).fresh = s.fresh := rfl
@[simp] theorem State.setFunc_landed (n : Nat) (x : Func) : (s.setFunc n x).landed = s.landed := rfl
@[simp] theorem State.setFunc_bwins (n : Nat) (x : Func) : (s.setFunc n x).bwins = s.bwins := rfl
@[simp] theorem State.setFunc_writers (n : Nat) (x : Func) : (s.setFunc n x).writers = s.writers := rfl
@[simp] theorem State.setFunc_counters (n : Nat) (x : Func) : (s.setFunc n x).counters = s.counters := rfl
@[simp] theorem State.setFunc_ctrBlocks (n : Nat) (x : Func) : (s.setFunc n x).ctrBlocks = s.ctrBlocks := rfl
@[simp] theorem State.setFunc_entries (n : Nat) (x : Func) : (s.setFunc n x).entries = s.entries := rfl
@[simp] theorem State.setFunc_netQ (n : Nat) (x : Func) : (s.setFunc n x).netQ = s.netQ := rfl
@[simp] theorem State.setFunc_netReqs (n : Nat) (x : Func) : (s.setFunc n x).netReqs = s.netReqs := rfl
@[simp] theorem State.setFunc_releases (n : Nat) (x : Func) : (s.setFunc n x).releases = s.releases := rfl
@[simp] theorem State.setFunc_trees (n : Nat) (x : Func) : (s.setFunc n x).trees = s.trees := rfl
@[simp] theorem State.setFunc_ttags (n : Nat) (x : Func) : (s.setFunc n x).ttags = s.ttags := rfl
@[simp] theorem State.setFunc_podDir (n : Nat) (x : Func) : (s.setFunc n x).podDir = s.podDir := rfl
@[simp] theorem State.setFunc_podLines (n : Nat) (x : Func) : (s.setFunc n x).podLines = s.podLines := rfl
@[simp] theorem State.setFunc_podReqs (n : Nat) (x : Func) : (s.setFunc n x).podReqs = s.podReqs := rfl
@[simp] theorem State.setFunc_podAwait (n : Nat) (x : Func) : (s.setFunc n x).podAwait = s.podAwait := rfl
@[simp] theorem State.setFunc_podExcl (n : Nat) (x : Func) : (s.setFunc n x).podExcl = s.podExcl := rfl
@[simp] theorem State.setFunc_podHeld (n : Nat) (x : Func) : (s.setFunc n x).podHeld = s.podHeld := rfl
@[simp] theorem State.setFunc_podShut (n : Nat) (x : Func) : (s.setFunc n x).podShut = s.podShut := rfl
@[simp] theorem State.setFunc_ports (n : Nat) (x : Func) : (s.setFunc n x).ports = s.ports := rfl
@[simp] theorem State.setFunc_hostOps (n : Nat) (x : Func) : (s.setFunc n x).hostOps = s.hostOps := rfl
@[simp] theorem State.setFunc_rdmaHeld (n : Nat) (x : Func) : (s.setFunc n x).rdmaHeld = s.rdmaHeld := rfl
@[simp] theorem State.setFunc_errWords (n : Nat) (x : Func) : (s.setFunc n x).errWords = s.errWords := rfl
@[simp] theorem State.setFunc_ethWait (n : Nat) (x : Func) : (s.setFunc n x).ethWait = s.ethWait := rfl
@[simp] theorem State.setFunc_ethOut (n : Nat) (x : Func) : (s.setFunc n x).ethOut = s.ethOut := rfl

/-! ### setCounter -/

@[simp] theorem State.setCounter_agenda (d c : Nat) (x : Counter) : (s.setCounter d c x).agenda = s.agenda := rfl
@[simp] theorem State.setCounter_rx (d c : Nat) (x : Counter) : (s.setCounter d c x).rx = s.rx := rfl
@[simp] theorem State.setCounter_inbox (d c : Nat) (x : Counter) : (s.setCounter d c x).inbox = s.inbox := rfl
@[simp] theorem State.setCounter_tick (d c : Nat) (x : Counter) : (s.setCounter d c x).tick = s.tick := rfl
@[simp] theorem State.setCounter_focus (d c : Nat) (x : Counter) : (s.setCounter d c x).focus = s.focus := rfl
@[simp] theorem State.setCounter_held (d c : Nat) (x : Counter) : (s.setCounter d c x).held = s.held := rfl
@[simp] theorem State.setCounter_free (d c : Nat) (x : Counter) : (s.setCounter d c x).free = s.free := rfl
@[simp] theorem State.setCounter_nextId (d c : Nat) (x : Counter) : (s.setCounter d c x).nextId = s.nextId := rfl
@[simp] theorem State.setCounter_nextWg (d c : Nat) (x : Counter) : (s.setCounter d c x).nextWg = s.nextWg := rfl
@[simp] theorem State.setCounter_base (d c : Nat) (x : Counter) : (s.setCounter d c x).base = s.base := rfl
@[simp] theorem State.setCounter_cairn (d c : Nat) (x : Counter) : (s.setCounter d c x).cairn = s.cairn := rfl
@[simp] theorem State.setCounter_parts (d c : Nat) (x : Counter) : (s.setCounter d c x).parts = s.parts := rfl
@[simp] theorem State.setCounter_graphs (d c : Nat) (x : Counter) : (s.setCounter d c x).graphs = s.graphs := rfl
@[simp] theorem State.setCounter_nextHandle (d c : Nat) (x : Counter) : (s.setCounter d c x).nextHandle = s.nextHandle := rfl
@[simp] theorem State.setCounter_roundNext (d c : Nat) (x : Counter) : (s.setCounter d c x).roundNext = s.roundNext := rfl
@[simp] theorem State.setCounter_wgs (d c : Nat) (x : Counter) : (s.setCounter d c x).wgs = s.wgs := rfl
@[simp] theorem State.setCounter_cores (d c : Nat) (x : Counter) : (s.setCounter d c x).cores = s.cores := rfl
@[simp] theorem State.setCounter_pipe (d c : Nat) (x : Counter) : (s.setCounter d c x).pipe = s.pipe := rfl
@[simp] theorem State.setCounter_mem (d c : Nat) (x : Counter) : (s.setCounter d c x).mem = s.mem := rfl
@[simp] theorem State.setCounter_owner (d c : Nat) (x : Counter) : (s.setCounter d c x).owner = s.owner := rfl
@[simp] theorem State.setCounter_failing (d c : Nat) (x : Counter) : (s.setCounter d c x).failing = s.failing := rfl
@[simp] theorem State.setCounter_reported (d c : Nat) (x : Counter) : (s.setCounter d c x).reported = s.reported := rfl
@[simp] theorem State.setCounter_tlb (d c : Nat) (x : Counter) : (s.setCounter d c x).tlb = s.tlb := rfl
@[simp] theorem State.setCounter_l1tlb (d c : Nat) (x : Counter) : (s.setCounter d c x).l1tlb = s.l1tlb := rfl
@[simp] theorem State.setCounter_walks (d c : Nat) (x : Counter) : (s.setCounter d c x).walks = s.walks := rfl
@[simp] theorem State.setCounter_walkFails (d c : Nat) (x : Counter) : (s.setCounter d c x).walkFails = s.walkFails := rfl
@[simp] theorem State.setCounter_invs (d c : Nat) (x : Counter) : (s.setCounter d c x).invs = s.invs := rfl
@[simp] theorem State.setCounter_lines (d c : Nat) (x : Counter) : (s.setCounter d c x).lines = s.lines := rfl
@[simp] theorem State.setCounter_l1 (d c : Nat) (x : Counter) : (s.setCounter d c x).l1 = s.l1 := rfl
@[simp] theorem State.setCounter_homes (d c : Nat) (x : Counter) : (s.setCounter d c x).homes = s.homes := rfl
@[simp] theorem State.setCounter_orderQ (d c : Nat) (x : Counter) : (s.setCounter d c x).orderQ = s.orderQ := rfl
@[simp] theorem State.setCounter_mesh (d c : Nat) (x : Counter) : (s.setCounter d c x).mesh = s.mesh := rfl
@[simp] theorem State.setCounter_jobs (d c : Nat) (x : Counter) : (s.setCounter d c x).jobs = s.jobs := rfl
@[simp] theorem State.setCounter_accs (d c : Nat) (x : Counter) : (s.setCounter d c x).accs = s.accs := rfl
@[simp] theorem State.setCounter_sums (d c : Nat) (x : Counter) : (s.setCounter d c x).sums = s.sums := rfl
@[simp] theorem State.setCounter_fresh (d c : Nat) (x : Counter) : (s.setCounter d c x).fresh = s.fresh := rfl
@[simp] theorem State.setCounter_landed (d c : Nat) (x : Counter) : (s.setCounter d c x).landed = s.landed := rfl
@[simp] theorem State.setCounter_bwins (d c : Nat) (x : Counter) : (s.setCounter d c x).bwins = s.bwins := rfl
@[simp] theorem State.setCounter_writers (d c : Nat) (x : Counter) : (s.setCounter d c x).writers = s.writers := rfl
@[simp] theorem State.setCounter_ctrBlocks (d c : Nat) (x : Counter) : (s.setCounter d c x).ctrBlocks = s.ctrBlocks := rfl
@[simp] theorem State.setCounter_entries (d c : Nat) (x : Counter) : (s.setCounter d c x).entries = s.entries := rfl
@[simp] theorem State.setCounter_netQ (d c : Nat) (x : Counter) : (s.setCounter d c x).netQ = s.netQ := rfl
@[simp] theorem State.setCounter_netReqs (d c : Nat) (x : Counter) : (s.setCounter d c x).netReqs = s.netReqs := rfl
@[simp] theorem State.setCounter_releases (d c : Nat) (x : Counter) : (s.setCounter d c x).releases = s.releases := rfl
@[simp] theorem State.setCounter_trees (d c : Nat) (x : Counter) : (s.setCounter d c x).trees = s.trees := rfl
@[simp] theorem State.setCounter_ttags (d c : Nat) (x : Counter) : (s.setCounter d c x).ttags = s.ttags := rfl
@[simp] theorem State.setCounter_podDir (d c : Nat) (x : Counter) : (s.setCounter d c x).podDir = s.podDir := rfl
@[simp] theorem State.setCounter_podLines (d c : Nat) (x : Counter) : (s.setCounter d c x).podLines = s.podLines := rfl
@[simp] theorem State.setCounter_podReqs (d c : Nat) (x : Counter) : (s.setCounter d c x).podReqs = s.podReqs := rfl
@[simp] theorem State.setCounter_podAwait (d c : Nat) (x : Counter) : (s.setCounter d c x).podAwait = s.podAwait := rfl
@[simp] theorem State.setCounter_podExcl (d c : Nat) (x : Counter) : (s.setCounter d c x).podExcl = s.podExcl := rfl
@[simp] theorem State.setCounter_podHeld (d c : Nat) (x : Counter) : (s.setCounter d c x).podHeld = s.podHeld := rfl
@[simp] theorem State.setCounter_podShut (d c : Nat) (x : Counter) : (s.setCounter d c x).podShut = s.podShut := rfl
@[simp] theorem State.setCounter_ports (d c : Nat) (x : Counter) : (s.setCounter d c x).ports = s.ports := rfl
@[simp] theorem State.setCounter_funcs (d c : Nat) (x : Counter) : (s.setCounter d c x).funcs = s.funcs := rfl
@[simp] theorem State.setCounter_hostOps (d c : Nat) (x : Counter) : (s.setCounter d c x).hostOps = s.hostOps := rfl
@[simp] theorem State.setCounter_rdmaHeld (d c : Nat) (x : Counter) : (s.setCounter d c x).rdmaHeld = s.rdmaHeld := rfl
@[simp] theorem State.setCounter_errWords (d c : Nat) (x : Counter) : (s.setCounter d c x).errWords = s.errWords := rfl
@[simp] theorem State.setCounter_ethWait (d c : Nat) (x : Counter) : (s.setCounter d c x).ethWait = s.ethWait := rfl
@[simp] theorem State.setCounter_ethOut (d c : Nat) (x : Counter) : (s.setCounter d c x).ethOut = s.ethOut := rfl

/-! ### setEntry -/

@[simp] theorem State.setEntry_agenda (d e : Nat) (x : Entry) : (s.setEntry d e x).agenda = s.agenda := rfl
@[simp] theorem State.setEntry_rx (d e : Nat) (x : Entry) : (s.setEntry d e x).rx = s.rx := rfl
@[simp] theorem State.setEntry_inbox (d e : Nat) (x : Entry) : (s.setEntry d e x).inbox = s.inbox := rfl
@[simp] theorem State.setEntry_tick (d e : Nat) (x : Entry) : (s.setEntry d e x).tick = s.tick := rfl
@[simp] theorem State.setEntry_focus (d e : Nat) (x : Entry) : (s.setEntry d e x).focus = s.focus := rfl
@[simp] theorem State.setEntry_held (d e : Nat) (x : Entry) : (s.setEntry d e x).held = s.held := rfl
@[simp] theorem State.setEntry_free (d e : Nat) (x : Entry) : (s.setEntry d e x).free = s.free := rfl
@[simp] theorem State.setEntry_nextId (d e : Nat) (x : Entry) : (s.setEntry d e x).nextId = s.nextId := rfl
@[simp] theorem State.setEntry_nextWg (d e : Nat) (x : Entry) : (s.setEntry d e x).nextWg = s.nextWg := rfl
@[simp] theorem State.setEntry_base (d e : Nat) (x : Entry) : (s.setEntry d e x).base = s.base := rfl
@[simp] theorem State.setEntry_cairn (d e : Nat) (x : Entry) : (s.setEntry d e x).cairn = s.cairn := rfl
@[simp] theorem State.setEntry_parts (d e : Nat) (x : Entry) : (s.setEntry d e x).parts = s.parts := rfl
@[simp] theorem State.setEntry_graphs (d e : Nat) (x : Entry) : (s.setEntry d e x).graphs = s.graphs := rfl
@[simp] theorem State.setEntry_nextHandle (d e : Nat) (x : Entry) : (s.setEntry d e x).nextHandle = s.nextHandle := rfl
@[simp] theorem State.setEntry_roundNext (d e : Nat) (x : Entry) : (s.setEntry d e x).roundNext = s.roundNext := rfl
@[simp] theorem State.setEntry_wgs (d e : Nat) (x : Entry) : (s.setEntry d e x).wgs = s.wgs := rfl
@[simp] theorem State.setEntry_cores (d e : Nat) (x : Entry) : (s.setEntry d e x).cores = s.cores := rfl
@[simp] theorem State.setEntry_pipe (d e : Nat) (x : Entry) : (s.setEntry d e x).pipe = s.pipe := rfl
@[simp] theorem State.setEntry_mem (d e : Nat) (x : Entry) : (s.setEntry d e x).mem = s.mem := rfl
@[simp] theorem State.setEntry_owner (d e : Nat) (x : Entry) : (s.setEntry d e x).owner = s.owner := rfl
@[simp] theorem State.setEntry_failing (d e : Nat) (x : Entry) : (s.setEntry d e x).failing = s.failing := rfl
@[simp] theorem State.setEntry_reported (d e : Nat) (x : Entry) : (s.setEntry d e x).reported = s.reported := rfl
@[simp] theorem State.setEntry_tlb (d e : Nat) (x : Entry) : (s.setEntry d e x).tlb = s.tlb := rfl
@[simp] theorem State.setEntry_l1tlb (d e : Nat) (x : Entry) : (s.setEntry d e x).l1tlb = s.l1tlb := rfl
@[simp] theorem State.setEntry_walks (d e : Nat) (x : Entry) : (s.setEntry d e x).walks = s.walks := rfl
@[simp] theorem State.setEntry_walkFails (d e : Nat) (x : Entry) : (s.setEntry d e x).walkFails = s.walkFails := rfl
@[simp] theorem State.setEntry_invs (d e : Nat) (x : Entry) : (s.setEntry d e x).invs = s.invs := rfl
@[simp] theorem State.setEntry_lines (d e : Nat) (x : Entry) : (s.setEntry d e x).lines = s.lines := rfl
@[simp] theorem State.setEntry_l1 (d e : Nat) (x : Entry) : (s.setEntry d e x).l1 = s.l1 := rfl
@[simp] theorem State.setEntry_homes (d e : Nat) (x : Entry) : (s.setEntry d e x).homes = s.homes := rfl
@[simp] theorem State.setEntry_orderQ (d e : Nat) (x : Entry) : (s.setEntry d e x).orderQ = s.orderQ := rfl
@[simp] theorem State.setEntry_mesh (d e : Nat) (x : Entry) : (s.setEntry d e x).mesh = s.mesh := rfl
@[simp] theorem State.setEntry_jobs (d e : Nat) (x : Entry) : (s.setEntry d e x).jobs = s.jobs := rfl
@[simp] theorem State.setEntry_accs (d e : Nat) (x : Entry) : (s.setEntry d e x).accs = s.accs := rfl
@[simp] theorem State.setEntry_sums (d e : Nat) (x : Entry) : (s.setEntry d e x).sums = s.sums := rfl
@[simp] theorem State.setEntry_fresh (d e : Nat) (x : Entry) : (s.setEntry d e x).fresh = s.fresh := rfl
@[simp] theorem State.setEntry_landed (d e : Nat) (x : Entry) : (s.setEntry d e x).landed = s.landed := rfl
@[simp] theorem State.setEntry_bwins (d e : Nat) (x : Entry) : (s.setEntry d e x).bwins = s.bwins := rfl
@[simp] theorem State.setEntry_writers (d e : Nat) (x : Entry) : (s.setEntry d e x).writers = s.writers := rfl
@[simp] theorem State.setEntry_counters (d e : Nat) (x : Entry) : (s.setEntry d e x).counters = s.counters := rfl
@[simp] theorem State.setEntry_ctrBlocks (d e : Nat) (x : Entry) : (s.setEntry d e x).ctrBlocks = s.ctrBlocks := rfl
@[simp] theorem State.setEntry_netQ (d e : Nat) (x : Entry) : (s.setEntry d e x).netQ = s.netQ := rfl
@[simp] theorem State.setEntry_netReqs (d e : Nat) (x : Entry) : (s.setEntry d e x).netReqs = s.netReqs := rfl
@[simp] theorem State.setEntry_releases (d e : Nat) (x : Entry) : (s.setEntry d e x).releases = s.releases := rfl
@[simp] theorem State.setEntry_trees (d e : Nat) (x : Entry) : (s.setEntry d e x).trees = s.trees := rfl
@[simp] theorem State.setEntry_ttags (d e : Nat) (x : Entry) : (s.setEntry d e x).ttags = s.ttags := rfl
@[simp] theorem State.setEntry_podDir (d e : Nat) (x : Entry) : (s.setEntry d e x).podDir = s.podDir := rfl
@[simp] theorem State.setEntry_podLines (d e : Nat) (x : Entry) : (s.setEntry d e x).podLines = s.podLines := rfl
@[simp] theorem State.setEntry_podReqs (d e : Nat) (x : Entry) : (s.setEntry d e x).podReqs = s.podReqs := rfl
@[simp] theorem State.setEntry_podAwait (d e : Nat) (x : Entry) : (s.setEntry d e x).podAwait = s.podAwait := rfl
@[simp] theorem State.setEntry_podExcl (d e : Nat) (x : Entry) : (s.setEntry d e x).podExcl = s.podExcl := rfl
@[simp] theorem State.setEntry_podHeld (d e : Nat) (x : Entry) : (s.setEntry d e x).podHeld = s.podHeld := rfl
@[simp] theorem State.setEntry_podShut (d e : Nat) (x : Entry) : (s.setEntry d e x).podShut = s.podShut := rfl
@[simp] theorem State.setEntry_ports (d e : Nat) (x : Entry) : (s.setEntry d e x).ports = s.ports := rfl
@[simp] theorem State.setEntry_funcs (d e : Nat) (x : Entry) : (s.setEntry d e x).funcs = s.funcs := rfl
@[simp] theorem State.setEntry_hostOps (d e : Nat) (x : Entry) : (s.setEntry d e x).hostOps = s.hostOps := rfl
@[simp] theorem State.setEntry_rdmaHeld (d e : Nat) (x : Entry) : (s.setEntry d e x).rdmaHeld = s.rdmaHeld := rfl
@[simp] theorem State.setEntry_errWords (d e : Nat) (x : Entry) : (s.setEntry d e x).errWords = s.errWords := rfl
@[simp] theorem State.setEntry_ethWait (d e : Nat) (x : Entry) : (s.setEntry d e x).ethWait = s.ethWait := rfl
@[simp] theorem State.setEntry_ethOut (d e : Nat) (x : Entry) : (s.setEntry d e x).ethOut = s.ethOut := rfl

/-! ### setNet -/

@[simp] theorem State.setNet_agenda (d p : Nat) (q : List NetItem) : (s.setNet d p q).agenda = s.agenda := rfl
@[simp] theorem State.setNet_rx (d p : Nat) (q : List NetItem) : (s.setNet d p q).rx = s.rx := rfl
@[simp] theorem State.setNet_inbox (d p : Nat) (q : List NetItem) : (s.setNet d p q).inbox = s.inbox := rfl
@[simp] theorem State.setNet_tick (d p : Nat) (q : List NetItem) : (s.setNet d p q).tick = s.tick := rfl
@[simp] theorem State.setNet_focus (d p : Nat) (q : List NetItem) : (s.setNet d p q).focus = s.focus := rfl
@[simp] theorem State.setNet_held (d p : Nat) (q : List NetItem) : (s.setNet d p q).held = s.held := rfl
@[simp] theorem State.setNet_free (d p : Nat) (q : List NetItem) : (s.setNet d p q).free = s.free := rfl
@[simp] theorem State.setNet_nextId (d p : Nat) (q : List NetItem) : (s.setNet d p q).nextId = s.nextId := rfl
@[simp] theorem State.setNet_nextWg (d p : Nat) (q : List NetItem) : (s.setNet d p q).nextWg = s.nextWg := rfl
@[simp] theorem State.setNet_base (d p : Nat) (q : List NetItem) : (s.setNet d p q).base = s.base := rfl
@[simp] theorem State.setNet_cairn (d p : Nat) (q : List NetItem) : (s.setNet d p q).cairn = s.cairn := rfl
@[simp] theorem State.setNet_parts (d p : Nat) (q : List NetItem) : (s.setNet d p q).parts = s.parts := rfl
@[simp] theorem State.setNet_graphs (d p : Nat) (q : List NetItem) : (s.setNet d p q).graphs = s.graphs := rfl
@[simp] theorem State.setNet_nextHandle (d p : Nat) (q : List NetItem) : (s.setNet d p q).nextHandle = s.nextHandle := rfl
@[simp] theorem State.setNet_roundNext (d p : Nat) (q : List NetItem) : (s.setNet d p q).roundNext = s.roundNext := rfl
@[simp] theorem State.setNet_wgs (d p : Nat) (q : List NetItem) : (s.setNet d p q).wgs = s.wgs := rfl
@[simp] theorem State.setNet_cores (d p : Nat) (q : List NetItem) : (s.setNet d p q).cores = s.cores := rfl
@[simp] theorem State.setNet_pipe (d p : Nat) (q : List NetItem) : (s.setNet d p q).pipe = s.pipe := rfl
@[simp] theorem State.setNet_mem (d p : Nat) (q : List NetItem) : (s.setNet d p q).mem = s.mem := rfl
@[simp] theorem State.setNet_owner (d p : Nat) (q : List NetItem) : (s.setNet d p q).owner = s.owner := rfl
@[simp] theorem State.setNet_failing (d p : Nat) (q : List NetItem) : (s.setNet d p q).failing = s.failing := rfl
@[simp] theorem State.setNet_reported (d p : Nat) (q : List NetItem) : (s.setNet d p q).reported = s.reported := rfl
@[simp] theorem State.setNet_tlb (d p : Nat) (q : List NetItem) : (s.setNet d p q).tlb = s.tlb := rfl
@[simp] theorem State.setNet_l1tlb (d p : Nat) (q : List NetItem) : (s.setNet d p q).l1tlb = s.l1tlb := rfl
@[simp] theorem State.setNet_walks (d p : Nat) (q : List NetItem) : (s.setNet d p q).walks = s.walks := rfl
@[simp] theorem State.setNet_walkFails (d p : Nat) (q : List NetItem) : (s.setNet d p q).walkFails = s.walkFails := rfl
@[simp] theorem State.setNet_invs (d p : Nat) (q : List NetItem) : (s.setNet d p q).invs = s.invs := rfl
@[simp] theorem State.setNet_lines (d p : Nat) (q : List NetItem) : (s.setNet d p q).lines = s.lines := rfl
@[simp] theorem State.setNet_l1 (d p : Nat) (q : List NetItem) : (s.setNet d p q).l1 = s.l1 := rfl
@[simp] theorem State.setNet_homes (d p : Nat) (q : List NetItem) : (s.setNet d p q).homes = s.homes := rfl
@[simp] theorem State.setNet_orderQ (d p : Nat) (q : List NetItem) : (s.setNet d p q).orderQ = s.orderQ := rfl
@[simp] theorem State.setNet_mesh (d p : Nat) (q : List NetItem) : (s.setNet d p q).mesh = s.mesh := rfl
@[simp] theorem State.setNet_jobs (d p : Nat) (q : List NetItem) : (s.setNet d p q).jobs = s.jobs := rfl
@[simp] theorem State.setNet_accs (d p : Nat) (q : List NetItem) : (s.setNet d p q).accs = s.accs := rfl
@[simp] theorem State.setNet_sums (d p : Nat) (q : List NetItem) : (s.setNet d p q).sums = s.sums := rfl
@[simp] theorem State.setNet_fresh (d p : Nat) (q : List NetItem) : (s.setNet d p q).fresh = s.fresh := rfl
@[simp] theorem State.setNet_landed (d p : Nat) (q : List NetItem) : (s.setNet d p q).landed = s.landed := rfl
@[simp] theorem State.setNet_bwins (d p : Nat) (q : List NetItem) : (s.setNet d p q).bwins = s.bwins := rfl
@[simp] theorem State.setNet_writers (d p : Nat) (q : List NetItem) : (s.setNet d p q).writers = s.writers := rfl
@[simp] theorem State.setNet_counters (d p : Nat) (q : List NetItem) : (s.setNet d p q).counters = s.counters := rfl
@[simp] theorem State.setNet_ctrBlocks (d p : Nat) (q : List NetItem) : (s.setNet d p q).ctrBlocks = s.ctrBlocks := rfl
@[simp] theorem State.setNet_entries (d p : Nat) (q : List NetItem) : (s.setNet d p q).entries = s.entries := rfl
@[simp] theorem State.setNet_netReqs (d p : Nat) (q : List NetItem) : (s.setNet d p q).netReqs = s.netReqs := rfl
@[simp] theorem State.setNet_releases (d p : Nat) (q : List NetItem) : (s.setNet d p q).releases = s.releases := rfl
@[simp] theorem State.setNet_trees (d p : Nat) (q : List NetItem) : (s.setNet d p q).trees = s.trees := rfl
@[simp] theorem State.setNet_ttags (d p : Nat) (q : List NetItem) : (s.setNet d p q).ttags = s.ttags := rfl
@[simp] theorem State.setNet_podDir (d p : Nat) (q : List NetItem) : (s.setNet d p q).podDir = s.podDir := rfl
@[simp] theorem State.setNet_podLines (d p : Nat) (q : List NetItem) : (s.setNet d p q).podLines = s.podLines := rfl
@[simp] theorem State.setNet_podReqs (d p : Nat) (q : List NetItem) : (s.setNet d p q).podReqs = s.podReqs := rfl
@[simp] theorem State.setNet_podAwait (d p : Nat) (q : List NetItem) : (s.setNet d p q).podAwait = s.podAwait := rfl
@[simp] theorem State.setNet_podExcl (d p : Nat) (q : List NetItem) : (s.setNet d p q).podExcl = s.podExcl := rfl
@[simp] theorem State.setNet_podHeld (d p : Nat) (q : List NetItem) : (s.setNet d p q).podHeld = s.podHeld := rfl
@[simp] theorem State.setNet_podShut (d p : Nat) (q : List NetItem) : (s.setNet d p q).podShut = s.podShut := rfl
@[simp] theorem State.setNet_ports (d p : Nat) (q : List NetItem) : (s.setNet d p q).ports = s.ports := rfl
@[simp] theorem State.setNet_funcs (d p : Nat) (q : List NetItem) : (s.setNet d p q).funcs = s.funcs := rfl
@[simp] theorem State.setNet_hostOps (d p : Nat) (q : List NetItem) : (s.setNet d p q).hostOps = s.hostOps := rfl
@[simp] theorem State.setNet_rdmaHeld (d p : Nat) (q : List NetItem) : (s.setNet d p q).rdmaHeld = s.rdmaHeld := rfl
@[simp] theorem State.setNet_errWords (d p : Nat) (q : List NetItem) : (s.setNet d p q).errWords = s.errWords := rfl
@[simp] theorem State.setNet_ethWait (d p : Nat) (q : List NetItem) : (s.setNet d p q).ethWait = s.ethWait := rfl
@[simp] theorem State.setNet_ethOut (d p : Nat) (q : List NetItem) : (s.setNet d p q).ethOut = s.ethOut := rfl

/-! ### setGraph -/

@[simp] theorem State.setGraph_agenda (h : Nat) (g : Option Graph) : (s.setGraph h g).agenda = s.agenda := rfl
@[simp] theorem State.setGraph_rx (h : Nat) (g : Option Graph) : (s.setGraph h g).rx = s.rx := rfl
@[simp] theorem State.setGraph_inbox (h : Nat) (g : Option Graph) : (s.setGraph h g).inbox = s.inbox := rfl
@[simp] theorem State.setGraph_tick (h : Nat) (g : Option Graph) : (s.setGraph h g).tick = s.tick := rfl
@[simp] theorem State.setGraph_focus (h : Nat) (g : Option Graph) : (s.setGraph h g).focus = s.focus := rfl
@[simp] theorem State.setGraph_held (h : Nat) (g : Option Graph) : (s.setGraph h g).held = s.held := rfl
@[simp] theorem State.setGraph_free (h : Nat) (g : Option Graph) : (s.setGraph h g).free = s.free := rfl
@[simp] theorem State.setGraph_nextId (h : Nat) (g : Option Graph) : (s.setGraph h g).nextId = s.nextId := rfl
@[simp] theorem State.setGraph_nextWg (h : Nat) (g : Option Graph) : (s.setGraph h g).nextWg = s.nextWg := rfl
@[simp] theorem State.setGraph_base (h : Nat) (g : Option Graph) : (s.setGraph h g).base = s.base := rfl
@[simp] theorem State.setGraph_cairn (h : Nat) (g : Option Graph) : (s.setGraph h g).cairn = s.cairn := rfl
@[simp] theorem State.setGraph_parts (h : Nat) (g : Option Graph) : (s.setGraph h g).parts = s.parts := rfl
@[simp] theorem State.setGraph_nextHandle (h : Nat) (g : Option Graph) : (s.setGraph h g).nextHandle = s.nextHandle := rfl
@[simp] theorem State.setGraph_roundNext (h : Nat) (g : Option Graph) : (s.setGraph h g).roundNext = s.roundNext := rfl
@[simp] theorem State.setGraph_wgs (h : Nat) (g : Option Graph) : (s.setGraph h g).wgs = s.wgs := rfl
@[simp] theorem State.setGraph_cores (h : Nat) (g : Option Graph) : (s.setGraph h g).cores = s.cores := rfl
@[simp] theorem State.setGraph_pipe (h : Nat) (g : Option Graph) : (s.setGraph h g).pipe = s.pipe := rfl
@[simp] theorem State.setGraph_mem (h : Nat) (g : Option Graph) : (s.setGraph h g).mem = s.mem := rfl
@[simp] theorem State.setGraph_owner (h : Nat) (g : Option Graph) : (s.setGraph h g).owner = s.owner := rfl
@[simp] theorem State.setGraph_failing (h : Nat) (g : Option Graph) : (s.setGraph h g).failing = s.failing := rfl
@[simp] theorem State.setGraph_reported (h : Nat) (g : Option Graph) : (s.setGraph h g).reported = s.reported := rfl
@[simp] theorem State.setGraph_tlb (h : Nat) (g : Option Graph) : (s.setGraph h g).tlb = s.tlb := rfl
@[simp] theorem State.setGraph_l1tlb (h : Nat) (g : Option Graph) : (s.setGraph h g).l1tlb = s.l1tlb := rfl
@[simp] theorem State.setGraph_walks (h : Nat) (g : Option Graph) : (s.setGraph h g).walks = s.walks := rfl
@[simp] theorem State.setGraph_walkFails (h : Nat) (g : Option Graph) : (s.setGraph h g).walkFails = s.walkFails := rfl
@[simp] theorem State.setGraph_invs (h : Nat) (g : Option Graph) : (s.setGraph h g).invs = s.invs := rfl
@[simp] theorem State.setGraph_lines (h : Nat) (g : Option Graph) : (s.setGraph h g).lines = s.lines := rfl
@[simp] theorem State.setGraph_l1 (h : Nat) (g : Option Graph) : (s.setGraph h g).l1 = s.l1 := rfl
@[simp] theorem State.setGraph_homes (h : Nat) (g : Option Graph) : (s.setGraph h g).homes = s.homes := rfl
@[simp] theorem State.setGraph_orderQ (h : Nat) (g : Option Graph) : (s.setGraph h g).orderQ = s.orderQ := rfl
@[simp] theorem State.setGraph_mesh (h : Nat) (g : Option Graph) : (s.setGraph h g).mesh = s.mesh := rfl
@[simp] theorem State.setGraph_jobs (h : Nat) (g : Option Graph) : (s.setGraph h g).jobs = s.jobs := rfl
@[simp] theorem State.setGraph_accs (h : Nat) (g : Option Graph) : (s.setGraph h g).accs = s.accs := rfl
@[simp] theorem State.setGraph_sums (h : Nat) (g : Option Graph) : (s.setGraph h g).sums = s.sums := rfl
@[simp] theorem State.setGraph_fresh (h : Nat) (g : Option Graph) : (s.setGraph h g).fresh = s.fresh := rfl
@[simp] theorem State.setGraph_landed (h : Nat) (g : Option Graph) : (s.setGraph h g).landed = s.landed := rfl
@[simp] theorem State.setGraph_bwins (h : Nat) (g : Option Graph) : (s.setGraph h g).bwins = s.bwins := rfl
@[simp] theorem State.setGraph_writers (h : Nat) (g : Option Graph) : (s.setGraph h g).writers = s.writers := rfl
@[simp] theorem State.setGraph_counters (h : Nat) (g : Option Graph) : (s.setGraph h g).counters = s.counters := rfl
@[simp] theorem State.setGraph_ctrBlocks (h : Nat) (g : Option Graph) : (s.setGraph h g).ctrBlocks = s.ctrBlocks := rfl
@[simp] theorem State.setGraph_entries (h : Nat) (g : Option Graph) : (s.setGraph h g).entries = s.entries := rfl
@[simp] theorem State.setGraph_netQ (h : Nat) (g : Option Graph) : (s.setGraph h g).netQ = s.netQ := rfl
@[simp] theorem State.setGraph_netReqs (h : Nat) (g : Option Graph) : (s.setGraph h g).netReqs = s.netReqs := rfl
@[simp] theorem State.setGraph_releases (h : Nat) (g : Option Graph) : (s.setGraph h g).releases = s.releases := rfl
@[simp] theorem State.setGraph_trees (h : Nat) (g : Option Graph) : (s.setGraph h g).trees = s.trees := rfl
@[simp] theorem State.setGraph_ttags (h : Nat) (g : Option Graph) : (s.setGraph h g).ttags = s.ttags := rfl
@[simp] theorem State.setGraph_podDir (h : Nat) (g : Option Graph) : (s.setGraph h g).podDir = s.podDir := rfl
@[simp] theorem State.setGraph_podLines (h : Nat) (g : Option Graph) : (s.setGraph h g).podLines = s.podLines := rfl
@[simp] theorem State.setGraph_podReqs (h : Nat) (g : Option Graph) : (s.setGraph h g).podReqs = s.podReqs := rfl
@[simp] theorem State.setGraph_podAwait (h : Nat) (g : Option Graph) : (s.setGraph h g).podAwait = s.podAwait := rfl
@[simp] theorem State.setGraph_podExcl (h : Nat) (g : Option Graph) : (s.setGraph h g).podExcl = s.podExcl := rfl
@[simp] theorem State.setGraph_podHeld (h : Nat) (g : Option Graph) : (s.setGraph h g).podHeld = s.podHeld := rfl
@[simp] theorem State.setGraph_podShut (h : Nat) (g : Option Graph) : (s.setGraph h g).podShut = s.podShut := rfl
@[simp] theorem State.setGraph_ports (h : Nat) (g : Option Graph) : (s.setGraph h g).ports = s.ports := rfl
@[simp] theorem State.setGraph_funcs (h : Nat) (g : Option Graph) : (s.setGraph h g).funcs = s.funcs := rfl
@[simp] theorem State.setGraph_hostOps (h : Nat) (g : Option Graph) : (s.setGraph h g).hostOps = s.hostOps := rfl
@[simp] theorem State.setGraph_rdmaHeld (h : Nat) (g : Option Graph) : (s.setGraph h g).rdmaHeld = s.rdmaHeld := rfl
@[simp] theorem State.setGraph_errWords (h : Nat) (g : Option Graph) : (s.setGraph h g).errWords = s.errWords := rfl
@[simp] theorem State.setGraph_ethWait (h : Nat) (g : Option Graph) : (s.setGraph h g).ethWait = s.ethWait := rfl
@[simp] theorem State.setGraph_ethOut (h : Nat) (g : Option Graph) : (s.setGraph h g).ethOut = s.ethOut := rfl

/-! ### setPort -/

@[simp] theorem State.setPort_agenda (p : Nat) (x : Port) : (s.setPort p x).agenda = s.agenda := rfl
@[simp] theorem State.setPort_rx (p : Nat) (x : Port) : (s.setPort p x).rx = s.rx := rfl
@[simp] theorem State.setPort_inbox (p : Nat) (x : Port) : (s.setPort p x).inbox = s.inbox := rfl
@[simp] theorem State.setPort_tick (p : Nat) (x : Port) : (s.setPort p x).tick = s.tick := rfl
@[simp] theorem State.setPort_focus (p : Nat) (x : Port) : (s.setPort p x).focus = s.focus := rfl
@[simp] theorem State.setPort_held (p : Nat) (x : Port) : (s.setPort p x).held = s.held := rfl
@[simp] theorem State.setPort_free (p : Nat) (x : Port) : (s.setPort p x).free = s.free := rfl
@[simp] theorem State.setPort_nextId (p : Nat) (x : Port) : (s.setPort p x).nextId = s.nextId := rfl
@[simp] theorem State.setPort_nextWg (p : Nat) (x : Port) : (s.setPort p x).nextWg = s.nextWg := rfl
@[simp] theorem State.setPort_base (p : Nat) (x : Port) : (s.setPort p x).base = s.base := rfl
@[simp] theorem State.setPort_cairn (p : Nat) (x : Port) : (s.setPort p x).cairn = s.cairn := rfl
@[simp] theorem State.setPort_parts (p : Nat) (x : Port) : (s.setPort p x).parts = s.parts := rfl
@[simp] theorem State.setPort_graphs (p : Nat) (x : Port) : (s.setPort p x).graphs = s.graphs := rfl
@[simp] theorem State.setPort_nextHandle (p : Nat) (x : Port) : (s.setPort p x).nextHandle = s.nextHandle := rfl
@[simp] theorem State.setPort_roundNext (p : Nat) (x : Port) : (s.setPort p x).roundNext = s.roundNext := rfl
@[simp] theorem State.setPort_wgs (p : Nat) (x : Port) : (s.setPort p x).wgs = s.wgs := rfl
@[simp] theorem State.setPort_cores (p : Nat) (x : Port) : (s.setPort p x).cores = s.cores := rfl
@[simp] theorem State.setPort_pipe (p : Nat) (x : Port) : (s.setPort p x).pipe = s.pipe := rfl
@[simp] theorem State.setPort_mem (p : Nat) (x : Port) : (s.setPort p x).mem = s.mem := rfl
@[simp] theorem State.setPort_owner (p : Nat) (x : Port) : (s.setPort p x).owner = s.owner := rfl
@[simp] theorem State.setPort_failing (p : Nat) (x : Port) : (s.setPort p x).failing = s.failing := rfl
@[simp] theorem State.setPort_reported (p : Nat) (x : Port) : (s.setPort p x).reported = s.reported := rfl
@[simp] theorem State.setPort_tlb (p : Nat) (x : Port) : (s.setPort p x).tlb = s.tlb := rfl
@[simp] theorem State.setPort_l1tlb (p : Nat) (x : Port) : (s.setPort p x).l1tlb = s.l1tlb := rfl
@[simp] theorem State.setPort_walks (p : Nat) (x : Port) : (s.setPort p x).walks = s.walks := rfl
@[simp] theorem State.setPort_walkFails (p : Nat) (x : Port) : (s.setPort p x).walkFails = s.walkFails := rfl
@[simp] theorem State.setPort_invs (p : Nat) (x : Port) : (s.setPort p x).invs = s.invs := rfl
@[simp] theorem State.setPort_lines (p : Nat) (x : Port) : (s.setPort p x).lines = s.lines := rfl
@[simp] theorem State.setPort_l1 (p : Nat) (x : Port) : (s.setPort p x).l1 = s.l1 := rfl
@[simp] theorem State.setPort_homes (p : Nat) (x : Port) : (s.setPort p x).homes = s.homes := rfl
@[simp] theorem State.setPort_orderQ (p : Nat) (x : Port) : (s.setPort p x).orderQ = s.orderQ := rfl
@[simp] theorem State.setPort_mesh (p : Nat) (x : Port) : (s.setPort p x).mesh = s.mesh := rfl
@[simp] theorem State.setPort_jobs (p : Nat) (x : Port) : (s.setPort p x).jobs = s.jobs := rfl
@[simp] theorem State.setPort_accs (p : Nat) (x : Port) : (s.setPort p x).accs = s.accs := rfl
@[simp] theorem State.setPort_sums (p : Nat) (x : Port) : (s.setPort p x).sums = s.sums := rfl
@[simp] theorem State.setPort_fresh (p : Nat) (x : Port) : (s.setPort p x).fresh = s.fresh := rfl
@[simp] theorem State.setPort_landed (p : Nat) (x : Port) : (s.setPort p x).landed = s.landed := rfl
@[simp] theorem State.setPort_bwins (p : Nat) (x : Port) : (s.setPort p x).bwins = s.bwins := rfl
@[simp] theorem State.setPort_writers (p : Nat) (x : Port) : (s.setPort p x).writers = s.writers := rfl
@[simp] theorem State.setPort_counters (p : Nat) (x : Port) : (s.setPort p x).counters = s.counters := rfl
@[simp] theorem State.setPort_ctrBlocks (p : Nat) (x : Port) : (s.setPort p x).ctrBlocks = s.ctrBlocks := rfl
@[simp] theorem State.setPort_entries (p : Nat) (x : Port) : (s.setPort p x).entries = s.entries := rfl
@[simp] theorem State.setPort_netQ (p : Nat) (x : Port) : (s.setPort p x).netQ = s.netQ := rfl
@[simp] theorem State.setPort_netReqs (p : Nat) (x : Port) : (s.setPort p x).netReqs = s.netReqs := rfl
@[simp] theorem State.setPort_releases (p : Nat) (x : Port) : (s.setPort p x).releases = s.releases := rfl
@[simp] theorem State.setPort_trees (p : Nat) (x : Port) : (s.setPort p x).trees = s.trees := rfl
@[simp] theorem State.setPort_ttags (p : Nat) (x : Port) : (s.setPort p x).ttags = s.ttags := rfl
@[simp] theorem State.setPort_podDir (p : Nat) (x : Port) : (s.setPort p x).podDir = s.podDir := rfl
@[simp] theorem State.setPort_podLines (p : Nat) (x : Port) : (s.setPort p x).podLines = s.podLines := rfl
@[simp] theorem State.setPort_podReqs (p : Nat) (x : Port) : (s.setPort p x).podReqs = s.podReqs := rfl
@[simp] theorem State.setPort_podAwait (p : Nat) (x : Port) : (s.setPort p x).podAwait = s.podAwait := rfl
@[simp] theorem State.setPort_podExcl (p : Nat) (x : Port) : (s.setPort p x).podExcl = s.podExcl := rfl
@[simp] theorem State.setPort_podHeld (p : Nat) (x : Port) : (s.setPort p x).podHeld = s.podHeld := rfl
@[simp] theorem State.setPort_podShut (p : Nat) (x : Port) : (s.setPort p x).podShut = s.podShut := rfl
@[simp] theorem State.setPort_funcs (p : Nat) (x : Port) : (s.setPort p x).funcs = s.funcs := rfl
@[simp] theorem State.setPort_hostOps (p : Nat) (x : Port) : (s.setPort p x).hostOps = s.hostOps := rfl
@[simp] theorem State.setPort_rdmaHeld (p : Nat) (x : Port) : (s.setPort p x).rdmaHeld = s.rdmaHeld := rfl
@[simp] theorem State.setPort_errWords (p : Nat) (x : Port) : (s.setPort p x).errWords = s.errWords := rfl
@[simp] theorem State.setPort_ethWait (p : Nat) (x : Port) : (s.setPort p x).ethWait = s.ethWait := rfl
@[simp] theorem State.setPort_ethOut (p : Nat) (x : Port) : (s.setPort p x).ethOut = s.ethOut := rfl

/-! ### setCairn -/

@[simp] theorem State.setCairn_agenda (c : Nat) (x : CairnEnt) : (s.setCairn c x).agenda = s.agenda := rfl
@[simp] theorem State.setCairn_rx (c : Nat) (x : CairnEnt) : (s.setCairn c x).rx = s.rx := rfl
@[simp] theorem State.setCairn_inbox (c : Nat) (x : CairnEnt) : (s.setCairn c x).inbox = s.inbox := rfl
@[simp] theorem State.setCairn_tick (c : Nat) (x : CairnEnt) : (s.setCairn c x).tick = s.tick := rfl
@[simp] theorem State.setCairn_focus (c : Nat) (x : CairnEnt) : (s.setCairn c x).focus = s.focus := rfl
@[simp] theorem State.setCairn_held (c : Nat) (x : CairnEnt) : (s.setCairn c x).held = s.held := rfl
@[simp] theorem State.setCairn_free (c : Nat) (x : CairnEnt) : (s.setCairn c x).free = s.free := rfl
@[simp] theorem State.setCairn_nextId (c : Nat) (x : CairnEnt) : (s.setCairn c x).nextId = s.nextId := rfl
@[simp] theorem State.setCairn_nextWg (c : Nat) (x : CairnEnt) : (s.setCairn c x).nextWg = s.nextWg := rfl
@[simp] theorem State.setCairn_base (c : Nat) (x : CairnEnt) : (s.setCairn c x).base = s.base := rfl
@[simp] theorem State.setCairn_parts (c : Nat) (x : CairnEnt) : (s.setCairn c x).parts = s.parts := rfl
@[simp] theorem State.setCairn_graphs (c : Nat) (x : CairnEnt) : (s.setCairn c x).graphs = s.graphs := rfl
@[simp] theorem State.setCairn_nextHandle (c : Nat) (x : CairnEnt) : (s.setCairn c x).nextHandle = s.nextHandle := rfl
@[simp] theorem State.setCairn_roundNext (c : Nat) (x : CairnEnt) : (s.setCairn c x).roundNext = s.roundNext := rfl
@[simp] theorem State.setCairn_wgs (c : Nat) (x : CairnEnt) : (s.setCairn c x).wgs = s.wgs := rfl
@[simp] theorem State.setCairn_cores (c : Nat) (x : CairnEnt) : (s.setCairn c x).cores = s.cores := rfl
@[simp] theorem State.setCairn_pipe (c : Nat) (x : CairnEnt) : (s.setCairn c x).pipe = s.pipe := rfl
@[simp] theorem State.setCairn_mem (c : Nat) (x : CairnEnt) : (s.setCairn c x).mem = s.mem := rfl
@[simp] theorem State.setCairn_owner (c : Nat) (x : CairnEnt) : (s.setCairn c x).owner = s.owner := rfl
@[simp] theorem State.setCairn_failing (c : Nat) (x : CairnEnt) : (s.setCairn c x).failing = s.failing := rfl
@[simp] theorem State.setCairn_reported (c : Nat) (x : CairnEnt) : (s.setCairn c x).reported = s.reported := rfl
@[simp] theorem State.setCairn_tlb (c : Nat) (x : CairnEnt) : (s.setCairn c x).tlb = s.tlb := rfl
@[simp] theorem State.setCairn_l1tlb (c : Nat) (x : CairnEnt) : (s.setCairn c x).l1tlb = s.l1tlb := rfl
@[simp] theorem State.setCairn_walks (c : Nat) (x : CairnEnt) : (s.setCairn c x).walks = s.walks := rfl
@[simp] theorem State.setCairn_walkFails (c : Nat) (x : CairnEnt) : (s.setCairn c x).walkFails = s.walkFails := rfl
@[simp] theorem State.setCairn_invs (c : Nat) (x : CairnEnt) : (s.setCairn c x).invs = s.invs := rfl
@[simp] theorem State.setCairn_lines (c : Nat) (x : CairnEnt) : (s.setCairn c x).lines = s.lines := rfl
@[simp] theorem State.setCairn_l1 (c : Nat) (x : CairnEnt) : (s.setCairn c x).l1 = s.l1 := rfl
@[simp] theorem State.setCairn_homes (c : Nat) (x : CairnEnt) : (s.setCairn c x).homes = s.homes := rfl
@[simp] theorem State.setCairn_orderQ (c : Nat) (x : CairnEnt) : (s.setCairn c x).orderQ = s.orderQ := rfl
@[simp] theorem State.setCairn_mesh (c : Nat) (x : CairnEnt) : (s.setCairn c x).mesh = s.mesh := rfl
@[simp] theorem State.setCairn_jobs (c : Nat) (x : CairnEnt) : (s.setCairn c x).jobs = s.jobs := rfl
@[simp] theorem State.setCairn_accs (c : Nat) (x : CairnEnt) : (s.setCairn c x).accs = s.accs := rfl
@[simp] theorem State.setCairn_sums (c : Nat) (x : CairnEnt) : (s.setCairn c x).sums = s.sums := rfl
@[simp] theorem State.setCairn_fresh (c : Nat) (x : CairnEnt) : (s.setCairn c x).fresh = s.fresh := rfl
@[simp] theorem State.setCairn_landed (c : Nat) (x : CairnEnt) : (s.setCairn c x).landed = s.landed := rfl
@[simp] theorem State.setCairn_bwins (c : Nat) (x : CairnEnt) : (s.setCairn c x).bwins = s.bwins := rfl
@[simp] theorem State.setCairn_writers (c : Nat) (x : CairnEnt) : (s.setCairn c x).writers = s.writers := rfl
@[simp] theorem State.setCairn_counters (c : Nat) (x : CairnEnt) : (s.setCairn c x).counters = s.counters := rfl
@[simp] theorem State.setCairn_ctrBlocks (c : Nat) (x : CairnEnt) : (s.setCairn c x).ctrBlocks = s.ctrBlocks := rfl
@[simp] theorem State.setCairn_entries (c : Nat) (x : CairnEnt) : (s.setCairn c x).entries = s.entries := rfl
@[simp] theorem State.setCairn_netQ (c : Nat) (x : CairnEnt) : (s.setCairn c x).netQ = s.netQ := rfl
@[simp] theorem State.setCairn_netReqs (c : Nat) (x : CairnEnt) : (s.setCairn c x).netReqs = s.netReqs := rfl
@[simp] theorem State.setCairn_releases (c : Nat) (x : CairnEnt) : (s.setCairn c x).releases = s.releases := rfl
@[simp] theorem State.setCairn_trees (c : Nat) (x : CairnEnt) : (s.setCairn c x).trees = s.trees := rfl
@[simp] theorem State.setCairn_ttags (c : Nat) (x : CairnEnt) : (s.setCairn c x).ttags = s.ttags := rfl
@[simp] theorem State.setCairn_podDir (c : Nat) (x : CairnEnt) : (s.setCairn c x).podDir = s.podDir := rfl
@[simp] theorem State.setCairn_podLines (c : Nat) (x : CairnEnt) : (s.setCairn c x).podLines = s.podLines := rfl
@[simp] theorem State.setCairn_podReqs (c : Nat) (x : CairnEnt) : (s.setCairn c x).podReqs = s.podReqs := rfl
@[simp] theorem State.setCairn_podAwait (c : Nat) (x : CairnEnt) : (s.setCairn c x).podAwait = s.podAwait := rfl
@[simp] theorem State.setCairn_podExcl (c : Nat) (x : CairnEnt) : (s.setCairn c x).podExcl = s.podExcl := rfl
@[simp] theorem State.setCairn_podHeld (c : Nat) (x : CairnEnt) : (s.setCairn c x).podHeld = s.podHeld := rfl
@[simp] theorem State.setCairn_podShut (c : Nat) (x : CairnEnt) : (s.setCairn c x).podShut = s.podShut := rfl
@[simp] theorem State.setCairn_ports (c : Nat) (x : CairnEnt) : (s.setCairn c x).ports = s.ports := rfl
@[simp] theorem State.setCairn_funcs (c : Nat) (x : CairnEnt) : (s.setCairn c x).funcs = s.funcs := rfl
@[simp] theorem State.setCairn_hostOps (c : Nat) (x : CairnEnt) : (s.setCairn c x).hostOps = s.hostOps := rfl
@[simp] theorem State.setCairn_rdmaHeld (c : Nat) (x : CairnEnt) : (s.setCairn c x).rdmaHeld = s.rdmaHeld := rfl
@[simp] theorem State.setCairn_errWords (c : Nat) (x : CairnEnt) : (s.setCairn c x).errWords = s.errWords := rfl
@[simp] theorem State.setCairn_ethWait (c : Nat) (x : CairnEnt) : (s.setCairn c x).ethWait = s.ethWait := rfl
@[simp] theorem State.setCairn_ethOut (c : Nat) (x : CairnEnt) : (s.setCairn c x).ethOut = s.ethOut := rfl

/-! ### setDie -/

@[simp] theorem State.setDie_agenda (d : Nat) (x : Die) : (s.setDie d x).agenda = s.agenda := rfl
@[simp] theorem State.setDie_rx (d : Nat) (x : Die) : (s.setDie d x).rx = s.rx := rfl
@[simp] theorem State.setDie_inbox (d : Nat) (x : Die) : (s.setDie d x).inbox = s.inbox := rfl
@[simp] theorem State.setDie_tick (d : Nat) (x : Die) : (s.setDie d x).tick = s.tick := rfl
@[simp] theorem State.setDie_focus (d : Nat) (x : Die) : (s.setDie d x).focus = s.focus := rfl
@[simp] theorem State.setDie_held (d : Nat) (x : Die) : (s.setDie d x).held = s.held := rfl
@[simp] theorem State.setDie_free (d : Nat) (x : Die) : (s.setDie d x).free = s.free := rfl
@[simp] theorem State.setDie_nextId (d : Nat) (x : Die) : (s.setDie d x).nextId = s.nextId := rfl
@[simp] theorem State.setDie_nextWg (d : Nat) (x : Die) : (s.setDie d x).nextWg = s.nextWg := rfl
@[simp] theorem State.setDie_cairn (d : Nat) (x : Die) : (s.setDie d x).cairn = s.cairn := rfl
@[simp] theorem State.setDie_parts (d : Nat) (x : Die) : (s.setDie d x).parts = s.parts := rfl
@[simp] theorem State.setDie_graphs (d : Nat) (x : Die) : (s.setDie d x).graphs = s.graphs := rfl
@[simp] theorem State.setDie_nextHandle (d : Nat) (x : Die) : (s.setDie d x).nextHandle = s.nextHandle := rfl
@[simp] theorem State.setDie_roundNext (d : Nat) (x : Die) : (s.setDie d x).roundNext = s.roundNext := rfl
@[simp] theorem State.setDie_wgs (d : Nat) (x : Die) : (s.setDie d x).wgs = s.wgs := rfl
@[simp] theorem State.setDie_cores (d : Nat) (x : Die) : (s.setDie d x).cores = s.cores := rfl
@[simp] theorem State.setDie_pipe (d : Nat) (x : Die) : (s.setDie d x).pipe = s.pipe := rfl
@[simp] theorem State.setDie_mem (d : Nat) (x : Die) : (s.setDie d x).mem = s.mem := rfl
@[simp] theorem State.setDie_owner (d : Nat) (x : Die) : (s.setDie d x).owner = s.owner := rfl
@[simp] theorem State.setDie_failing (d : Nat) (x : Die) : (s.setDie d x).failing = s.failing := rfl
@[simp] theorem State.setDie_reported (d : Nat) (x : Die) : (s.setDie d x).reported = s.reported := rfl
@[simp] theorem State.setDie_tlb (d : Nat) (x : Die) : (s.setDie d x).tlb = s.tlb := rfl
@[simp] theorem State.setDie_l1tlb (d : Nat) (x : Die) : (s.setDie d x).l1tlb = s.l1tlb := rfl
@[simp] theorem State.setDie_walks (d : Nat) (x : Die) : (s.setDie d x).walks = s.walks := rfl
@[simp] theorem State.setDie_walkFails (d : Nat) (x : Die) : (s.setDie d x).walkFails = s.walkFails := rfl
@[simp] theorem State.setDie_invs (d : Nat) (x : Die) : (s.setDie d x).invs = s.invs := rfl
@[simp] theorem State.setDie_lines (d : Nat) (x : Die) : (s.setDie d x).lines = s.lines := rfl
@[simp] theorem State.setDie_l1 (d : Nat) (x : Die) : (s.setDie d x).l1 = s.l1 := rfl
@[simp] theorem State.setDie_homes (d : Nat) (x : Die) : (s.setDie d x).homes = s.homes := rfl
@[simp] theorem State.setDie_orderQ (d : Nat) (x : Die) : (s.setDie d x).orderQ = s.orderQ := rfl
@[simp] theorem State.setDie_mesh (d : Nat) (x : Die) : (s.setDie d x).mesh = s.mesh := rfl
@[simp] theorem State.setDie_jobs (d : Nat) (x : Die) : (s.setDie d x).jobs = s.jobs := rfl
@[simp] theorem State.setDie_accs (d : Nat) (x : Die) : (s.setDie d x).accs = s.accs := rfl
@[simp] theorem State.setDie_sums (d : Nat) (x : Die) : (s.setDie d x).sums = s.sums := rfl
@[simp] theorem State.setDie_fresh (d : Nat) (x : Die) : (s.setDie d x).fresh = s.fresh := rfl
@[simp] theorem State.setDie_landed (d : Nat) (x : Die) : (s.setDie d x).landed = s.landed := rfl
@[simp] theorem State.setDie_bwins (d : Nat) (x : Die) : (s.setDie d x).bwins = s.bwins := rfl
@[simp] theorem State.setDie_writers (d : Nat) (x : Die) : (s.setDie d x).writers = s.writers := rfl
@[simp] theorem State.setDie_counters (d : Nat) (x : Die) : (s.setDie d x).counters = s.counters := rfl
@[simp] theorem State.setDie_ctrBlocks (d : Nat) (x : Die) : (s.setDie d x).ctrBlocks = s.ctrBlocks := rfl
@[simp] theorem State.setDie_entries (d : Nat) (x : Die) : (s.setDie d x).entries = s.entries := rfl
@[simp] theorem State.setDie_netQ (d : Nat) (x : Die) : (s.setDie d x).netQ = s.netQ := rfl
@[simp] theorem State.setDie_netReqs (d : Nat) (x : Die) : (s.setDie d x).netReqs = s.netReqs := rfl
@[simp] theorem State.setDie_releases (d : Nat) (x : Die) : (s.setDie d x).releases = s.releases := rfl
@[simp] theorem State.setDie_trees (d : Nat) (x : Die) : (s.setDie d x).trees = s.trees := rfl
@[simp] theorem State.setDie_ttags (d : Nat) (x : Die) : (s.setDie d x).ttags = s.ttags := rfl
@[simp] theorem State.setDie_podDir (d : Nat) (x : Die) : (s.setDie d x).podDir = s.podDir := rfl
@[simp] theorem State.setDie_podLines (d : Nat) (x : Die) : (s.setDie d x).podLines = s.podLines := rfl
@[simp] theorem State.setDie_podReqs (d : Nat) (x : Die) : (s.setDie d x).podReqs = s.podReqs := rfl
@[simp] theorem State.setDie_podAwait (d : Nat) (x : Die) : (s.setDie d x).podAwait = s.podAwait := rfl
@[simp] theorem State.setDie_podExcl (d : Nat) (x : Die) : (s.setDie d x).podExcl = s.podExcl := rfl
@[simp] theorem State.setDie_podHeld (d : Nat) (x : Die) : (s.setDie d x).podHeld = s.podHeld := rfl
@[simp] theorem State.setDie_podShut (d : Nat) (x : Die) : (s.setDie d x).podShut = s.podShut := rfl
@[simp] theorem State.setDie_ports (d : Nat) (x : Die) : (s.setDie d x).ports = s.ports := rfl
@[simp] theorem State.setDie_funcs (d : Nat) (x : Die) : (s.setDie d x).funcs = s.funcs := rfl
@[simp] theorem State.setDie_hostOps (d : Nat) (x : Die) : (s.setDie d x).hostOps = s.hostOps := rfl
@[simp] theorem State.setDie_rdmaHeld (d : Nat) (x : Die) : (s.setDie d x).rdmaHeld = s.rdmaHeld := rfl
@[simp] theorem State.setDie_errWords (d : Nat) (x : Die) : (s.setDie d x).errWords = s.errWords := rfl
@[simp] theorem State.setDie_ethWait (d : Nat) (x : Die) : (s.setDie d x).ethWait = s.ethWait := rfl
@[simp] theorem State.setDie_ethOut (d : Nat) (x : Die) : (s.setDie d x).ethOut = s.ethOut := rfl

/-! ### leaveCurrent -/

@[simp] theorem State.leaveCurrent_agenda (w k j : Nat) : (s.leaveCurrent w k j).agenda = s.agenda := rfl
@[simp] theorem State.leaveCurrent_rx (w k j : Nat) : (s.leaveCurrent w k j).rx = s.rx := rfl
@[simp] theorem State.leaveCurrent_inbox (w k j : Nat) : (s.leaveCurrent w k j).inbox = s.inbox := rfl
@[simp] theorem State.leaveCurrent_tick (w k j : Nat) : (s.leaveCurrent w k j).tick = s.tick := rfl
@[simp] theorem State.leaveCurrent_focus (w k j : Nat) : (s.leaveCurrent w k j).focus = s.focus := rfl
@[simp] theorem State.leaveCurrent_held (w k j : Nat) : (s.leaveCurrent w k j).held = s.held := rfl
@[simp] theorem State.leaveCurrent_free (w k j : Nat) : (s.leaveCurrent w k j).free = s.free := rfl
@[simp] theorem State.leaveCurrent_nextId (w k j : Nat) : (s.leaveCurrent w k j).nextId = s.nextId := rfl
@[simp] theorem State.leaveCurrent_nextWg (w k j : Nat) : (s.leaveCurrent w k j).nextWg = s.nextWg := rfl
@[simp] theorem State.leaveCurrent_base (w k j : Nat) : (s.leaveCurrent w k j).base = s.base := rfl
@[simp] theorem State.leaveCurrent_cairn (w k j : Nat) : (s.leaveCurrent w k j).cairn = s.cairn := rfl
@[simp] theorem State.leaveCurrent_parts (w k j : Nat) : (s.leaveCurrent w k j).parts = s.parts := rfl
@[simp] theorem State.leaveCurrent_graphs (w k j : Nat) : (s.leaveCurrent w k j).graphs = s.graphs := rfl
@[simp] theorem State.leaveCurrent_nextHandle (w k j : Nat) : (s.leaveCurrent w k j).nextHandle = s.nextHandle := rfl
@[simp] theorem State.leaveCurrent_roundNext (w k j : Nat) : (s.leaveCurrent w k j).roundNext = s.roundNext := rfl
@[simp] theorem State.leaveCurrent_cores (w k j : Nat) : (s.leaveCurrent w k j).cores = s.cores := rfl
@[simp] theorem State.leaveCurrent_pipe (w k j : Nat) : (s.leaveCurrent w k j).pipe = s.pipe := rfl
@[simp] theorem State.leaveCurrent_mem (w k j : Nat) : (s.leaveCurrent w k j).mem = s.mem := rfl
@[simp] theorem State.leaveCurrent_owner (w k j : Nat) : (s.leaveCurrent w k j).owner = s.owner := rfl
@[simp] theorem State.leaveCurrent_failing (w k j : Nat) : (s.leaveCurrent w k j).failing = s.failing := rfl
@[simp] theorem State.leaveCurrent_reported (w k j : Nat) : (s.leaveCurrent w k j).reported = s.reported := rfl
@[simp] theorem State.leaveCurrent_tlb (w k j : Nat) : (s.leaveCurrent w k j).tlb = s.tlb := rfl
@[simp] theorem State.leaveCurrent_l1tlb (w k j : Nat) : (s.leaveCurrent w k j).l1tlb = s.l1tlb := rfl
@[simp] theorem State.leaveCurrent_walks (w k j : Nat) : (s.leaveCurrent w k j).walks = s.walks := rfl
@[simp] theorem State.leaveCurrent_walkFails (w k j : Nat) : (s.leaveCurrent w k j).walkFails = s.walkFails := rfl
@[simp] theorem State.leaveCurrent_invs (w k j : Nat) : (s.leaveCurrent w k j).invs = s.invs := rfl
@[simp] theorem State.leaveCurrent_lines (w k j : Nat) : (s.leaveCurrent w k j).lines = s.lines := rfl
@[simp] theorem State.leaveCurrent_l1 (w k j : Nat) : (s.leaveCurrent w k j).l1 = s.l1 := rfl
@[simp] theorem State.leaveCurrent_homes (w k j : Nat) : (s.leaveCurrent w k j).homes = s.homes := rfl
@[simp] theorem State.leaveCurrent_orderQ (w k j : Nat) : (s.leaveCurrent w k j).orderQ = s.orderQ := rfl
@[simp] theorem State.leaveCurrent_mesh (w k j : Nat) : (s.leaveCurrent w k j).mesh = s.mesh := rfl
@[simp] theorem State.leaveCurrent_jobs (w k j : Nat) : (s.leaveCurrent w k j).jobs = s.jobs := rfl
@[simp] theorem State.leaveCurrent_accs (w k j : Nat) : (s.leaveCurrent w k j).accs = s.accs := rfl
@[simp] theorem State.leaveCurrent_sums (w k j : Nat) : (s.leaveCurrent w k j).sums = s.sums := rfl
@[simp] theorem State.leaveCurrent_fresh (w k j : Nat) : (s.leaveCurrent w k j).fresh = s.fresh := rfl
@[simp] theorem State.leaveCurrent_landed (w k j : Nat) : (s.leaveCurrent w k j).landed = s.landed := rfl
@[simp] theorem State.leaveCurrent_bwins (w k j : Nat) : (s.leaveCurrent w k j).bwins = s.bwins := rfl
@[simp] theorem State.leaveCurrent_writers (w k j : Nat) : (s.leaveCurrent w k j).writers = s.writers := rfl
@[simp] theorem State.leaveCurrent_counters (w k j : Nat) : (s.leaveCurrent w k j).counters = s.counters := rfl
@[simp] theorem State.leaveCurrent_ctrBlocks (w k j : Nat) : (s.leaveCurrent w k j).ctrBlocks = s.ctrBlocks := rfl
@[simp] theorem State.leaveCurrent_entries (w k j : Nat) : (s.leaveCurrent w k j).entries = s.entries := rfl
@[simp] theorem State.leaveCurrent_netQ (w k j : Nat) : (s.leaveCurrent w k j).netQ = s.netQ := rfl
@[simp] theorem State.leaveCurrent_netReqs (w k j : Nat) : (s.leaveCurrent w k j).netReqs = s.netReqs := rfl
@[simp] theorem State.leaveCurrent_releases (w k j : Nat) : (s.leaveCurrent w k j).releases = s.releases := rfl
@[simp] theorem State.leaveCurrent_trees (w k j : Nat) : (s.leaveCurrent w k j).trees = s.trees := rfl
@[simp] theorem State.leaveCurrent_ttags (w k j : Nat) : (s.leaveCurrent w k j).ttags = s.ttags := rfl
@[simp] theorem State.leaveCurrent_podDir (w k j : Nat) : (s.leaveCurrent w k j).podDir = s.podDir := rfl
@[simp] theorem State.leaveCurrent_podLines (w k j : Nat) : (s.leaveCurrent w k j).podLines = s.podLines := rfl
@[simp] theorem State.leaveCurrent_podReqs (w k j : Nat) : (s.leaveCurrent w k j).podReqs = s.podReqs := rfl
@[simp] theorem State.leaveCurrent_podAwait (w k j : Nat) : (s.leaveCurrent w k j).podAwait = s.podAwait := rfl
@[simp] theorem State.leaveCurrent_podExcl (w k j : Nat) : (s.leaveCurrent w k j).podExcl = s.podExcl := rfl
@[simp] theorem State.leaveCurrent_podHeld (w k j : Nat) : (s.leaveCurrent w k j).podHeld = s.podHeld := rfl
@[simp] theorem State.leaveCurrent_podShut (w k j : Nat) : (s.leaveCurrent w k j).podShut = s.podShut := rfl
@[simp] theorem State.leaveCurrent_ports (w k j : Nat) : (s.leaveCurrent w k j).ports = s.ports := rfl
@[simp] theorem State.leaveCurrent_funcs (w k j : Nat) : (s.leaveCurrent w k j).funcs = s.funcs := rfl
@[simp] theorem State.leaveCurrent_hostOps (w k j : Nat) : (s.leaveCurrent w k j).hostOps = s.hostOps := rfl
@[simp] theorem State.leaveCurrent_rdmaHeld (w k j : Nat) : (s.leaveCurrent w k j).rdmaHeld = s.rdmaHeld := rfl
@[simp] theorem State.leaveCurrent_errWords (w k j : Nat) : (s.leaveCurrent w k j).errWords = s.errWords := rfl
@[simp] theorem State.leaveCurrent_ethWait (w k j : Nat) : (s.leaveCurrent w k j).ethWait = s.ethWait := rfl
@[simp] theorem State.leaveCurrent_ethOut (w k j : Nat) : (s.leaveCurrent w k j).ethOut = s.ethOut := rfl

/-! ### Reading after writing -/

theorem State.wg_setWg (i j : Nat) (w : Workgroup) : (s.setWg i w).wg j = if j = i then w else s.wg j := by
  by_cases h : j = i
  · subst h; simp [State.wg, State.setWg, Tab.get_set_same]
  · simp [State.wg, State.setWg, h, Tab.get_set_other]

@[simp] theorem State.wg_setWg_same (i : Nat) (w : Workgroup) : (s.setWg i w).wg i = w := by simp [State.wg_setWg]

theorem Workgroup.slot_setSlot (w : Workgroup) (k j : Nat) (x : SlotSt) :
    (w.setSlot k x).slot j = if j = k then x else w.slot j := by
  simp [Workgroup.slot, Workgroup.setSlot, Tab.get_set]

@[simp] theorem Workgroup.slot_setSlot_same (w : Workgroup) (k : Nat) (x : SlotSt) : (w.setSlot k x).slot k = x := by
  simp [Workgroup.slot_setSlot]

theorem SlotSt.fib_setFib (x : SlotSt) (k j : Nat) (fb : Fibre) :
    (x.setFib k fb).fib j = if j = k then fb else x.fib j := by
  simp [SlotSt.fib, SlotSt.setFib, Tab.get_set]

@[simp] theorem SlotSt.fib_setFib_same (x : SlotSt) (k : Nat) (fb : Fibre) : (x.setFib k fb).fib k = fb := by
  simp [SlotSt.fib_setFib]

@[simp] theorem State.wg_setSlot_same (w k : Nat) (x : SlotSt) : (s.setSlot w k x).wg w = (s.wg w).setSlot k x := by
  simp [State.setSlot]

theorem State.wg_setSlot_other (w k j : Nat) (x : SlotSt) (h : j ≠ w) : (s.setSlot w k x).wg j = s.wg j := by
  simp [State.setSlot, State.wg_setWg, h]

@[simp] theorem State.slot_setSlot_same (w k : Nat) (x : SlotSt) : (s.setSlot w k x).slot w k = x := by
  simp [State.slot]

theorem State.slot_setSlot_other (w k i j : Nat) (x : SlotSt) (h : i ≠ w ∨ j ≠ k) :
    (s.setSlot w k x).slot i j = s.slot i j := by
  by_cases hi : i = w
  · subst hi
    have hj : j ≠ k := by simpa using h
    simp [State.slot, Workgroup.slot_setSlot, hj]
  · simp [State.slot, State.wg_setSlot_other, hi]

@[simp] theorem State.fib_setFib_same (w k j : Nat) (x : Fibre) : (s.setFib w k j x).fib w k j = x := by
  simp [State.fib, State.setFib]

theorem State.fib_setFib_other (w k j a b c : Nat) (x : Fibre) (h : a ≠ w ∨ b ≠ k ∨ c ≠ j) :
    (s.setFib w k j x).fib a b c = s.fib a b c := by
  by_cases h1 : a ≠ w ∨ b ≠ k
  · simp [State.fib, State.setFib, State.slot_setSlot_other, h1]
  · have ha : a = w := by omega
    have hb : b = k := by omega
    have hc : c ≠ j := by omega
    subst ha hb
    simp [State.fib, State.setFib, SlotSt.fib_setFib, hc]

@[simp] theorem State.fibOf_modFibOf (f : Focus) (g : Fibre → Fibre) : (s.modFibOf f g).fibOf f = g (s.fibOf f) := by
  simp [State.fibOf, State.modFibOf, State.modFib]

@[simp] theorem State.slot_setCore (c : Nat) (x : Core) (w k : Nat) : (s.setCore c x).slot w k = s.slot w k := rfl
@[simp] theorem State.slot_modCore (c : Nat) (g : Core → Core) (w k : Nat) : (s.modCore c g).slot w k = s.slot w k := rfl
@[simp] theorem State.wg_modCore (c : Nat) (g : Core → Core) (w : Nat) : (s.modCore c g).wg w = s.wg w := rfl
@[simp] theorem State.fib_modCore (c : Nat) (g : Core → Core) (w k j : Nat) : (s.modCore c g).fib w k j = s.fib w k j := rfl

theorem State.core_setCore (c d : Nat) (x : Core) : (s.setCore c x).core d = if d = c then x else s.core d := by
  simp [State.core, State.setCore, Tab.get_set]

theorem State.part_setPart (p q : Nat) (x : Partition) : (s.setPart p x).part q = if q = p then x else s.part q := by
  simp [State.part, State.setPart, Tab.get_set]

@[simp] theorem State.part_setPart_same (p : Nat) (x : Partition) : (s.setPart p x).part p = x := by simp [State.part_setPart]

theorem State.func_setFunc (n k : Nat) (x : Func) : (s.setFunc n x).func k = if k = n then x else s.func k := by
  simp [State.func, State.setFunc, Tab.get_set]

@[simp] theorem State.func_setFunc_same (n : Nat) (x : Func) : (s.setFunc n x).func n = x := by simp [State.func_setFunc]

theorem State.graph_setGraph (h k : Nat) (g : Option Graph) : (s.setGraph h g).graph k = if k = h then g else s.graph k := by
  simp [State.graph, State.setGraph, Tab.get_set]

@[simp] theorem State.graph_setGraph_same (h : Nat) (g : Option Graph) : (s.setGraph h g).graph h = g := by
  simp [State.graph_setGraph]

theorem State.port_setPort (p q : Nat) (x : Port) : (s.setPort p x).port q = if q = p then x else s.port q := by
  simp [State.port, State.setPort, Tab.get_set]

@[simp] theorem State.port_setPort_same (p : Nat) (x : Port) : (s.setPort p x).port p = x := by simp [State.port_setPort]

theorem State.cairnOf_setCairn (c d : Nat) (x : CairnEnt) :
    (s.setCairn c x).cairnOf d = if d = c then x else s.cairnOf d := by
  simp [State.cairnOf, State.setCairn, Tab.get_set]

theorem State.die_setDie (c d : Nat) (x : Die) : (s.setDie c x).die d = if d = c then x else s.die d := by
  simp [State.die, State.setDie, Tab.get_set]

@[simp] theorem State.die_setDie_same (c : Nat) (x : Die) : (s.setDie c x).die c = x := by simp [State.die_setDie]

theorem State.counter_setCounter_same (d c : Nat) (x : Counter) : (s.setCounter d c x).counter d c = x := by
  simp [State.counter, State.setCounter, Tab.get_set]

theorem State.entry_setEntry_same (d e : Nat) (x : Entry) : (s.setEntry d e x).entry d e = x := by
  simp [State.entry, State.setEntry, Tab.get_set]

theorem State.net_setNet_same (d p : Nat) (q : List NetItem) : (s.setNet d p q).net d p = q := by
  simp [State.net, State.setNet, Tab.get_set]

end Sys2Proof.Machine
end

