-- ==== Sys2Proof/Laws/Registers.lean ====
section
/-! SUPPORT. What a fibre's registers hold after a fixed-latency write, and what the issue of a word leaves alone. -/

namespace Sys2Proof.Machine

/-! ### Lanes -/

theorem mem_allLanes (l : Nat) : l ∈ allLanes ↔ l < 16 := by
  simp [allLanes]; omega

theorem mem_lanesOf (m : Lanes) (l : Nat) : l ∈ lanesOf m ↔ l < 16 ∧ laneIn m l = true := by
  simp [lanesOf, List.mem_filter, mem_allLanes]

theorem laneIn_lt (m : Lanes) (l : Nat) (h : laneIn m l = true) : l < 16 := by
  apply Nat.lt_of_not_le
  intro hl
  simp [laneIn, BitVec.getLsbD_of_ge m l hl] at h

theorem allLanes_map_getD {α : Type} (g : Nat → α) (d : α) (l : Nat) (h : l < 16) : (allLanes.map g).getD l d = g l := by
  have : l = 0 ∨ l = 1 ∨ l = 2 ∨ l = 3 ∨ l = 4 ∨ l = 5 ∨ l = 6 ∨ l = 7 ∨ l = 8 ∨ l = 9 ∨ l = 10 ∨ l = 11 ∨ l = 12 ∨
      l = 13 ∨ l = 14 ∨ l = 15 := by omega
  rcases this with h | h | h | h | h | h | h | h | h | h | h | h | h | h | h | h <;> subst h <;> rfl

/-! ### V registers -/

/-- Writing lanes of one V register into a table, read at any register and lane. -/
theorem get_foldl_lanes (ls : List Nat) (hn : ls.Nodup) (n : Nat) (val : Nat → Nat) (k l : Nat) (hl : l < 16)
    (hs : ∀ x ∈ ls, x < 16) (t : Tab Word) :
    Tab.get 0 (ls.foldl (fun t l => Tab.set 0 t (16 * n + l) (BitVec.ofNat 32 (val l))) t) (16 * k + l) =
      if k = n ∧ l ∈ ls then BitVec.ofNat 32 (val l) else Tab.get 0 t (16 * k + l) := by
  induction ls generalizing t with
  | nil => simp
  | cons x r ih =>
    have hx : x < 16 := hs x (by simp)
    rw [List.foldl_cons, ih (List.nodup_cons.1 hn).2 (fun y hy => hs y (by simp [hy])), Tab.get_set]
    by_cases h1 : k = n
    · subst h1
      by_cases h2 : l ∈ r
      · simp [h2]
      · by_cases h3 : l = x
        · subst h3; simp [h2]
        · have : ¬ 16 * k + l = 16 * k + x := by omega
          simp [h2, h3]
    · have : ¬ 16 * k + l = 16 * n + x := by omega
      simp [h1, this]

theorem lanesOf_nodup (m : Lanes) : (lanesOf m).Nodup := by
  exact List.Pairwise.filter _ (by decide)

theorem Fibre.vAt_putV (fb : Fibre) (n : Nat) (mask : Lanes) (val : Nat → Nat) (k l : Nat) (hl : l < 16) :
    (fb.putV n mask val).vAt k l =
      if k = n ∧ laneIn mask l = true then BitVec.ofNat 32 (val l) else fb.vAt k l := by
  unfold Fibre.putV Fibre.vAt
  simp only
  rw [get_foldl_lanes _ (lanesOf_nodup mask) n val k l hl (fun x hx => ((mem_lanesOf mask x).1 hx).1)]
  simp [mem_lanesOf, hl]

/-- What a write of registers may change of a fibre: V and kept values. -/
theorem Fibre.writeV_one (fb : Fibre) (n lat : Nat) (set mask : Lanes) (val : Nat → Nat) :
    fb.writeV n 1 lat set mask val =
      { fb with v := (fb.writeV n 1 lat set mask val).v, hist := (fb.writeV n 1 lat set mask val).hist } := rfl

theorem Fibre.writeV_two (fb : Fibre) (n lat : Nat) (set mask : Lanes) (val : Nat → Nat) :
    fb.writeV n 2 lat set mask val =
      { fb with v := (fb.writeV n 2 lat set mask val).v, hist := (fb.writeV n 2 lat set mask val).hist } := rfl

theorem Fibre.vAt_writeV (fb : Fibre) (n regs lat : Nat) (set mask : Lanes) (val : Nat → Nat) (k l : Nat)
    (hr : regs = 1 ∨ regs = 2) (hl : l < 16) :
    (fb.writeV n regs lat set mask val).vAt k l =
      if n ≤ k ∧ k < n + regs ∧ laneIn mask l = true then BitVec.ofNat 32 (val l / 2 ^ (32 * (k - n)))
      else fb.vAt k l := by
  have keepV : ∀ (fb : Fibre) a b c d e g, (fb.keep a b c d e g).vAt k l = fb.vAt k l := fun _ _ _ _ _ _ _ => rfl
  rcases hr with h | h
  · subst h
    have : fb.writeV n 1 lat set mask val =
      ((fb.keep (n + 0) lat set mask (allLanes.map fun l => (Tab.get (0 : Word) fb.v (16 * (n + 0) + l)).zeroExtend 64) 0).putV
        (n + 0) mask fun l => val l / 2 ^ (32 * 0)) := rfl
    rw [this, Fibre.vAt_putV _ _ _ _ _ _ hl, keepV]
    by_cases hk : k = n
    · subst hk; simp
    · have : ¬ (n ≤ k ∧ k < n + 1 ∧ laneIn mask l = true) := by omega
      simp only [this, if_false]
      simp [hk]
  · subst h
    have : fb.writeV n 2 lat set mask val =
      (((fb.writeV n 1 lat set mask val).keep (n + 1) lat set mask
        (allLanes.map fun l => (Tab.get (0 : Word) (fb.writeV n 1 lat set mask val).v (16 * (n + 1) + l)).zeroExtend 64) 0).putV
        (n + 1) mask fun l => val l / 2 ^ (32 * 1)) := rfl
    have one : (fb.writeV n 1 lat set mask val).vAt k l =
        if k = n ∧ laneIn mask l = true then BitVec.ofNat 32 (val l / 2 ^ (32 * 0)) else fb.vAt k l := by
      have : fb.writeV n 1 lat set mask val =
        ((fb.keep (n + 0) lat set mask (allLanes.map fun l => (Tab.get (0 : Word) fb.v (16 * (n + 0) + l)).zeroExtend 64) 0).putV
          (n + 0) mask fun l => val l / 2 ^ (32 * 0)) := rfl
      rw [this, Fibre.vAt_putV _ _ _ _ _ _ hl, keepV]; simp
    rw [this, Fibre.vAt_putV _ _ _ _ _ _ hl, keepV, one]
    by_cases h1 : k = n + 1
    · subst h1
      by_cases hm : laneIn mask l = true <;> simp [hm]
    · by_cases h2 : k = n
      · subst h2
        by_cases hm : laneIn mask l = true <;> simp [hm]
      · have : ¬ (n ≤ k ∧ k < n + 2 ∧ laneIn mask l = true) := by omega
        simp only [this, if_false]
        simp [h1, h2]

theorem Fibre.sAt_writeS (fb : Fibre) (n lat : Nat) (set : Lanes) (x : Dword) (k : Nat) :
    (fb.writeS n lat set x).sAt k = if k = n then x else fb.sAt k := by
  simp [Fibre.writeS, Fibre.sAt, Fibre.keep, Tab.get_set]

theorem Fibre.aAt_writeA (fb : Fibre) (n lat : Nat) (set : Lanes) (x : Affine) (k : Nat) :
    (fb.writeA n lat set x).aAt k = if k = n then x else fb.aAt k := by
  simp [Fibre.writeA, Fibre.aAt, Fibre.keep, Tab.get_set]

theorem Fibre.pAt_writeP (fb : Fibre) (n lat : Nat) (set mask x : Lanes) (k l : Nat) :
    (fb.writeP n lat set mask x).pAt k l =
      if k = n ∧ laneIn mask l = true then laneIn x l else fb.pAt k l := by
  by_cases h : k = n
  · subst h
    by_cases hl : l < 16
    · by_cases hm : mask[l] = true <;> simp [Fibre.writeP, Fibre.pAt, Fibre.keep, Tab.get_set, laneIn, hm, hl]
    · have h1 := BitVec.getLsbD_of_ge mask l (by omega)
      simp [Fibre.writeP, Fibre.pAt, Fibre.keep, Tab.get_set, laneIn, BitVec.getLsbD_of_ge _ l (show 16 ≤ l by omega)]
  · simp [Fibre.writeP, Fibre.pAt, Fibre.keep, Tab.get_set, h]

theorem laneIn_foldl (ls : List Nat) (m : Lanes) (l : Nat) (hl : l < 16) :
    laneIn (ls.foldl (fun m l => m ||| (1#16 <<< l)) m) l = (laneIn m l || ls.contains l) := by
  induction ls generalizing m with
  | nil => simp
  | cons x r ih =>
    rw [List.foldl_cons, ih]
    by_cases hx : l = x
    · subst hx; simp [laneIn, hl]
    · have : (1#16 <<< x).getLsbD l = false := by
        simp only [BitVec.getLsbD_shiftLeft, BitVec.getLsbD_one]
        simp; omega
      simp [laneIn, BitVec.getLsbD_or, this, hx]

theorem laneIn_maskOf (ls : List Nat) (l : Nat) (hl : l < 16) : laneIn (maskOf ls) l = ls.contains l := by
  rw [maskOf, laneIn_foldl _ _ _ hl]; simp [laneIn]

end Sys2Proof.Machine
end

