-- ==== Sys2Proof/Laws/Issue.lean ====
section
/-! SUPPORT. What the issue of a word does: the answer of `issue` by the result of its body, and the frame and results of a
fixed-latency instruction. -/

namespace Sys2Proof.Machine

/-- The context of an issue has the fibre of the state, with only its distance sums advanced. -/
theorem issueCtx_fb (s : State) (f : Focus) (h : Sched) :
    (issueCtx s f h).fb = { s.fibOf f with clk := (issueCtx s f h).fb.clk } := rfl

@[simp] theorem issueCtx_s (s : State) (f : Focus) (h : Sched) : (issueCtx s f h).s = s := rfl
@[simp] theorem issueCtx_f (s : State) (f : Focus) (h : Sched) : (issueCtx s f h).f = f := rfl
@[simp] theorem issueCtx_wg (s : State) (f : Focus) (h : Sched) : (issueCtx s f h).wg = s.wg f.wg := rfl
@[simp] theorem issueCtx_sl (s : State) (f : Focus) (h : Sched) : (issueCtx s f h).sl = s.slot f.wg f.slot := rfl
@[simp] theorem issueCtx_nwb (s : State) (f : Focus) (h : Sched) : (issueCtx s f h).nwb = h.nwb := rfl

/-- The live lanes stand together at this issue. -/
def Focus.together (s : State) (f : Focus) : Bool := f.lanes == (s.fibOf f).live

section
variable {s s1 : State} {f : Focus} {h : Sched} {sh : Shape} {body : Ctx → Res}

theorem issue_done {latch : Option (List Dword)} (hi : s.issues f h) (hb : body (issueCtx s f h) = .done s1 latch) :
    issue h sh body s = .next (s1.afterIssue f h sh (issueCtx s f h).act (f.together s) latch) := by
  have hf := hi.1
  have ha : ((issueCtx s f h).act == 0) = false := by simpa using hi.2
  unfold issue
  simp only [hf, ha, hb]
  rfl

theorem issue_trap {t : Trap} (hi : s.issues f h) (hb : body (issueCtx s f h) = .trap t) :
    issue h sh body s = .next (s.faultAt f (issueCtx s f h).act t) := by
  have hf := hi.1
  have ha : ((issueCtx s f h).act == 0) = false := by simpa using hi.2
  unfold issue
  simp only [hf, ha, hb]
  rfl

theorem issue_hold (hi : s.issues f h) (hb : body (issueCtx s f h) = .hold s1) :
    issue h sh body s = .next { s1 with held := (f.wg, f.slot, f.fib, f.pc) :: s1.held, focus := none } := by
  have hf := hi.1
  have ha : ((issueCtx s f h).act == 0) = false := by simpa using hi.2
  unfold issue
  simp only [hf, ha, hb]
  rfl

theorem issue_block {b : Block} (hi : s.issues f h) (hb : body (issueCtx s f h) = .block b) :
    issue h sh body s = .next (s.blockFibre f b) := by
  have hf := hi.1
  have ha : ((issueCtx s f h).act == 0) = false := by simpa using hi.2
  unfold issue
  simp only [hf, ha, hb]
  rfl

theorem issue_park {b : Block} (hi : s.issues f h) (hb : body (issueCtx s f h) = .park s1 b) :
    issue h sh body s = .next (s1.blockFibre f b) := by
  have hf := hi.1
  have ha : ((issueCtx s f h).act == 0) = false := by simpa using hi.2
  unfold issue
  simp only [hf, ha, hb]
  rfl

/-- With no active lane the word issues and does nothing else (R14, R324). -/
theorem issue_idle (hf : s.focus = some f) (ha : (issueCtx s f h).act = 0) :
    issue h sh body s =
      .next (((issueCtx s f h).put (issueCtx s f h).fb).afterIssue f h sh 0 (f.together s)
        (if sh.lat == 0 then none else some (latchVals 0 fun _ => 0))) := by
  unfold issue
  simp only [hf, ha]
  rfl

end

/-- An issue always has an answer once a fibre is in focus. -/
theorem issue_answers (h : Sched) (sh : Shape) (body : Ctx → Res) (s : State) (f : Focus) (hf : s.focus = some f) :
    ∃ t, issue h sh body s = .next t := by
  unfold issue
  simp only [hf]
  split
  · exact ⟨_, rfl⟩
  · split <;> exact ⟨_, rfl⟩

theorem guarded_ok (c : Ctx) (u : Uses) (body : Res) (h : c.check u = .ok) : c.guarded u body = body := by
  simp [Ctx.guarded, h, Guard.run]

/-! ### The fibre after the issue -/

theorem Fibre.moveTo_pcAt (fb : Fibre) (m : Lanes) (pc : Nat → Nat) (l : Nat) (hl : l < 16) :
    (fb.moveTo m pc).pcAt l = if laneIn m l = true then pc l else fb.pcAt l := by
  unfold Fibre.moveTo Fibre.pcAt
  simp only
  rw [allLanes_map_getD _ _ _ hl]

theorem Fibre.flagAt_countUp (fb : Fibre) (n : Fin 12) (k : Nat) :
    (fb.countUp n).flagAt k = if n.val = k then min 15 (fb.flagAt k + 1) else fb.flagAt k := by
  unfold Fibre.countUp Fibre.flagAt Tab.modify
  simp only [Tab.get_set]
  by_cases h : k = n.val
  · subst h; simp
  · have : ¬ n.val = k := fun e => h e.symm
    simp [h, this]

/-- The fibre after an issue keeps everything but the counts of the issue, and its registers stay as the body left them. -/
theorem Fibre.afterIssue_same (fb : Fibre) (f : Focus) (h : Sched) (sh : Shape) (act : Lanes) (conv : Bool) (tick : Nat)
    (latch : Option (List Dword)) :
    fb.afterIssue f h sh act conv tick latch =
      { fb with
        pc := (fb.afterIssue f h sh act conv tick latch).pc
        f := (fb.afterIssue f h sh act conv tick latch).f
        latches := (fb.afterIssue f h sh act conv tick latch).latches
        issueIx := fb.issueIx + 1, lastIssue := tick, writeAt := max fb.writeAt (tick + sh.lat), issued := fb.issued + 1
        pairOpen := false, second := [], atEntry := sh.enters && act != 0, streak := (fb.afterIssue f h sh act conv tick latch).streak
        timers := (fb.afterIssue f h sh act conv tick latch).timers } := by
  unfold Fibre.afterIssue
  cases h.setf with
  | none => rfl
  | some n =>
    simp only
    split
    · rfl
    · split <;> rfl

theorem Fibre.afterIssue_pcAt (fb : Fibre) (f : Focus) (h : Sched) (sh : Shape) (act : Lanes) (conv : Bool) (tick : Nat)
    (latch : Option (List Dword)) (hj : sh.jumps = false) (he : sh.enters = false) (hp : sh.pair = false) (l : Nat)
    (hl : l < 16) :
    (fb.afterIssue f h sh act conv tick latch).pcAt l =
      if laneIn (f.lanes &&& fb.live) l = true then nextPc f.pc else fb.pcAt l := by
  have key : (fb.afterIssue f h sh act conv tick latch).pcAt l =
      (fb.moveTo (f.lanes &&& fb.live) (fun _ => nextPc f.pc)).pcAt l := by
    unfold Fibre.afterIssue Fibre.pcAt
    simp only [hj, he, hp]
    cases h.setf with
    | none => rfl
    | some n =>
      simp only
      split
      · rfl
      · split <;> rfl
  rw [key, Fibre.moveTo_pcAt _ _ _ _ hl]

theorem Fibre.afterIssue_flagAt (fb : Fibre) (f : Focus) (h : Sched) (sh : Shape) (act : Lanes) (conv : Bool) (tick : Nat)
    (latch : Option (List Dword)) (ha : act ≠ 0) (n : Nat) :
    (fb.afterIssue f h sh act conv tick latch).flagAt n =
      if (h.setf.map Fin.val) = some n then min 15 (fb.flagAt n + 1) else fb.flagAt n := by
  have ha' : (act == 0) = false := by simpa using ha
  unfold Fibre.afterIssue
  simp only
  cases h.setf with
  | none => simp [Fibre.flagAt, Fibre.moveTo]
  | some k =>
    simp only [ha']
    have : ∀ fb' : Fibre, fb'.f = fb.f → (fb'.countUp k).flagAt n =
        if (Option.map Fin.val (some k)) = some n then min 15 (fb.flagAt n + 1) else fb.flagAt n := by
      intro fb' hf
      rw [Fibre.flagAt_countUp]
      simp [Fibre.flagAt, hf]
    split
    · rename_i h0; cases h0
    · split
      · exact this _ rfl
      · exact this _ rfl

theorem Fibre.afterIssue_latch (fb : Fibre) (f : Focus) (h : Sched) (sh : Shape) (act : Lanes) (tick : Nat)
    (vs : List Dword) :
    Tab.get {} (fb.afterIssue f h sh act true tick (some vs)).latches (fb.issueIx.toNat % 4) =
      { valid := true, ready := tick + sh.lat, vals := vs } := by
  have key : (fb.afterIssue f h sh act true tick (some vs)).latches =
      Tab.set {} fb.latches (fb.issueIx.toNat % 4) { valid := true, ready := tick + sh.lat, vals := vs } := by
    unfold Fibre.afterIssue
    cases h.setf with
    | none => rfl
    | some n =>
      simp only
      split
      · rfl
      · split <;> rfl
  rw [key, Tab.get_set_same]

/-! ### The state after the issue -/

@[simp] theorem State.afterIssue_fibOf (s : State) (f : Focus) (h : Sched) (sh : Shape) (act : Lanes) (conv : Bool)
    (latch : Option (List Dword)) :
    (s.afterIssue f h sh act conv latch).fibOf f = (s.fibOf f).afterIssue f h sh act conv (s.wgNow f.wg) latch := by
  show (((s.afterIssue f h sh act conv latch).wg f.wg).slot f.slot).fib f.fib = _
  unfold State.afterIssue
  show (((s.setSlot f.wg f.slot _).wg f.wg).slot f.slot).fib f.fib = _
  rw [State.wg_setSlot_same, Workgroup.slot_setSlot_same]
  show ((s.slot f.wg f.slot).setFib f.fib _).fib f.fib = _
  rw [SlotSt.fib_setFib_same]
  rfl

/-- The machine after the issue: only the workgroups, the core's issue count, the pickers' positions, the draw and the focus differ. -/
theorem State.afterIssue_machine (s : State) (f : Focus) (h : Sched) (sh : Shape) (act : Lanes) (conv : Bool)
    (latch : Option (List Dword)) : SameMachine s (s.afterIssue f h sh act conv latch) := by
  refine ⟨rfl, fun c => ?_⟩
  show (State.core { (((s.setSlot f.wg f.slot _).modCore (s.wg f.wg).lcore _)) with free := _, focus := _ } c) = _
  unfold State.core State.afterIssue State.modCore State.setCore
  simp only [Tab.get_set, State.core]
  by_cases hc : c = (s.wg f.wg).lcore
  · subst hc; simp
  · simp [hc]

theorem State.afterIssue_fibres (s : State) (f : Focus) (h : Sched) (sh : Shape) (act : Lanes) (conv : Bool)
    (latch : Option (List Dword)) : SameButFibre s (s.afterIssue f h sh act conv latch) f := by
  have hw : ∀ w, (s.afterIssue f h sh act conv latch).wg w =
      (s.setSlot f.wg f.slot
        { (s.slot f.wg f.slot).setFib f.fib (((s.slot f.wg f.slot).fib f.fib).afterIssue f h sh act conv (s.wgNow f.wg) latch) with
          lastIssue := s.wgNow f.wg + 1 }).wg w := fun _ => rfl
  refine ⟨fun w hne => ?_, ?_, fun k hk => ?_, ?_, fun j hj => ?_⟩
  · rw [hw, State.wg_setSlot_other _ _ _ _ _ hne]
  · rw [hw, State.wg_setSlot_same]; rfl
  · show ((s.afterIssue f h sh act conv latch).wg f.wg).slot k = _
    rw [hw, State.wg_setSlot_same, Workgroup.slot_setSlot]; simp [hk, State.slot]
  · show ((s.afterIssue f h sh act conv latch).wg f.wg).slot f.slot = _
    have e : (s.afterIssue f h sh act conv latch).slot f.wg f.slot =
      { (s.slot f.wg f.slot).setFib f.fib (((s.slot f.wg f.slot).fib f.fib).afterIssue f h sh act conv (s.wgNow f.wg) latch) with
          lastIssue := s.wgNow f.wg + 1 } := by
      show ((s.afterIssue f h sh act conv latch).wg f.wg).slot f.slot = _
      rw [hw, State.wg_setSlot_same, Workgroup.slot_setSlot_same]
    show (s.afterIssue f h sh act conv latch).slot f.wg f.slot = _
    rw [e]; rfl
  · show (((s.afterIssue f h sh act conv latch).wg f.wg).slot f.slot).fib j = _
    rw [hw, State.wg_setSlot_same, Workgroup.slot_setSlot_same]
    show ((s.slot f.wg f.slot).setFib f.fib _).fib j = _
    rw [SlotSt.fib_setFib]; simp [hj]; rfl

/-! ### Frames put together -/

theorem SameMachine.trans {s t u : State} (a : SameMachine s t) (b : SameMachine t u) : SameMachine s u := by
  refine ⟨?_, fun c => ?_⟩
  · rw [b.1, a.1]
  · rw [b.2 c, a.2 c]

theorem SameMachine.setFib (s : State) (w k j : Nat) (x : Fibre) : SameMachine s (s.setFib w k j x) := ⟨rfl, fun _ => rfl⟩

/-- The core cycle does not depend on what a slot holds. -/
@[simp] theorem State.wgNow_setSlot (s : State) (w k v : Nat) (x : SlotSt) : (s.setSlot w k x).wgNow v = s.wgNow v := by
  have h : ((s.setSlot w k x).wg v).die = (s.wg v).die := by
    by_cases e : v = w
    · subst e; rw [State.wg_setSlot_same]; rfl
    · rw [State.wg_setSlot_other _ _ _ _ _ e]
  show (s.setSlot w k x).now ((s.setSlot w k x).wg v).die = _
  rw [h]; rfl

/-- Writing the focus fibre before the issue's own changes leaves the frame as the issue leaves it. -/
theorem SameButFibre.of_setFib (s : State) (f : Focus) (x : Fibre) (t : State)
    (h : SameButFibre (s.setFib f.wg f.slot f.fib x) t f) : SameButFibre s t f := by
  obtain ⟨h1, h2, h3, h4, h5⟩ := h
  refine ⟨fun w hw => ?_, ?_, fun k hk => ?_, ?_, fun j hj => ?_⟩
  · rw [h1 w hw]; exact State.wg_setSlot_other _ _ _ _ _ hw
  · rw [h2]; simp only [State.setFib, State.wg_setSlot_same]; rfl
  · rw [h3 k hk]; exact State.slot_setSlot_other _ _ _ _ _ _ (Or.inr hk)
  · rw [h4]; simp only [State.setFib, State.slot_setSlot_same, State.wgNow_setSlot]; rfl
  · rw [h5 j hj]; exact State.fib_setFib_other _ _ _ _ _ _ _ _ (Or.inr (Or.inr hj))

/-- A body that only rewrites registers and kept values of the focus fibre: the frame of its issue. -/
theorem issuedOnly_put (s : State) (f : Focus) (h : Sched) (sh : Shape) (fb : Fibre) (latch : Option (List Dword))
    (hi : s.issues f h) (hj : sh.jumps = false) (he : sh.enters = false) (hp : sh.pair = false)
    (hfb : fb = { s.fibOf f with v := fb.v, s := fb.s, a := fb.a, p := fb.p, hist := fb.hist, clk := fb.clk, status := fb.status }) :
    IssuedOnly s (((issueCtx s f h).put fb).afterIssue f h sh (issueCtx s f h).act (f.together s) latch) f h := by
  have hfib : ((issueCtx s f h).put fb).fibOf f = fb := State.fib_setFib_same _ _ _ _ _
  refine ⟨(SameMachine.setFib s _ _ _ fb).trans (State.afterIssue_machine _ _ _ _ _ _ _),
    SameButFibre.of_setFib s f fb _ (State.afterIssue_fibres _ _ _ _ _ _ _), ?_, fun l hl => ?_, fun n => ?_⟩
  · rw [State.afterIssue_fibOf, hfib]
    unfold Fibre.sameButRegs
    rw [Fibre.afterIssue_same, hfb]
  · rw [State.afterIssue_fibOf, hfib, Fibre.afterIssue_pcAt _ _ _ _ _ _ _ _ hj he hp l hl]
    rw [hfb]; rfl
  · rw [State.afterIssue_fibOf, hfib, Fibre.afterIssue_flagAt _ _ _ _ _ _ _ _ hi.2]
    rw [hfb]; rfl

/-! ### Results -/

/-- The fibre that a result leaves before the rest of the issue. -/
def Ctx.resultFibre (c : Ctx) (h : Sched) (lat : Nat) (d : Operand) (bits : Nat) (signed : Bool) (val : Nat → Nat) : Fibre :=
  if h.nwb then c.fb
  else
    match d with
    | .v n => c.fb.writeV n.val (if bits == 64 then 2 else 1) lat c.f.lanes c.act val
    | .s n => c.fb.writeS n.val lat c.f.lanes (extendS signed bits (val c.lane0))
    | .p n => c.fb.writeP n.val lat c.f.lanes c.act (maskOf (allLanes.filter fun l => val l % 2 == 1))
    | _ => c.fb

theorem Ctx.result_eq (c : Ctx) (h : Sched) (lat : Nat) (d : Operand) (bits : Nat) (signed : Bool) (val : Nat → Nat) :
    c.result h lat d bits signed val =
      .done (c.put (c.resultFibre h lat d bits signed val))
        (some (latchVals c.act fun l => (if Operand.isS d then fun _ => val c.lane0 else val) l % 2 ^ 64)) := by
  cases d <;> rfl

theorem Ctx.resultFibre_same (c : Ctx) (h : Sched) (lat : Nat) (d : Operand) (bits : Nat) (signed : Bool) (val : Nat → Nat) :
    c.resultFibre h lat d bits signed val =
      { c.fb with
        v := (c.resultFibre h lat d bits signed val).v, s := (c.resultFibre h lat d bits signed val).s
        p := (c.resultFibre h lat d bits signed val).p, hist := (c.resultFibre h lat d bits signed val).hist } := by
  unfold Ctx.resultFibre
  split
  · rfl
  · split
    · split <;> rfl
    · rfl
    · rfl
    · rfl

/-- The registers that the result leaves are those that `ResultIn` names. -/
theorem Ctx.resultFibre_in (c : Ctx) (h : Sched) (lat : Nat) (d : Operand) (bits : Nat) (signed : Bool) (val : Nat → Nat) :
    ResultIn h c.act d (if bits = 64 then 2 else 1) (extendS signed bits (val c.lane0)) val c.fb
      (c.resultFibre h lat d bits signed val) := by
  unfold Ctx.resultFibre ResultIn
  split
  · exact ⟨rfl, rfl, rfl, rfl⟩
  · cases d with
    | v n =>
      by_cases hb : bits = 64
      · subst hb
        simp only [beq_self_eq_true, if_true]
        exact ⟨fun k l hl => Fibre.vAt_writeV _ _ _ _ _ _ _ _ _ (Or.inr rfl) hl, rfl, rfl, rfl⟩
      · have : (bits == 64) = false := by simpa using hb
        simp only [this, hb, if_false, Bool.false_eq_true]
        exact ⟨fun k l hl => Fibre.vAt_writeV _ _ _ _ _ _ _ _ _ (Or.inl rfl) hl, rfl, rfl, rfl⟩
    | s n => exact ⟨fun k => Fibre.sAt_writeS _ _ _ _ _ _, rfl, rfl, rfl⟩
    | p n =>
      refine ⟨fun k l hl => ?_, rfl, rfl, rfl⟩
      rw [Fibre.pAt_writeP]
      have : laneIn (maskOf (allLanes.filter fun l => val l % 2 == 1)) l = (val l % 2 == 1) := by
        rw [laneIn_maskOf _ _ hl]
        by_cases hv : val l % 2 == 1
        · rw [hv]; simp only [List.contains_eq_mem, List.mem_filter, mem_allLanes, hl, hv]; simp
        · simp only [List.contains_eq_mem, List.mem_filter, hv]; simp
      rw [this]
    | _ => exact ⟨rfl, rfl, rfl, rfl⟩

/-- A fixed-latency instruction whose body ends in a result, with status bits `fl`, answers a next state that holds it. -/
theorem issue_resultF {s : State} {f : Focus} {h : Sched} {body : Ctx → Res} {lat : Nat} {d : Operand} {bits : Nat}
    {signed : Bool} {val : Nat → Nat} {fl : Word} (hi : s.issues f h)
    (hb : body (issueCtx s f h) =
      ({ issueCtx s f h with fb := (issueCtx s f h).fb.statusAt (s.wgNow f.wg + lat) fl }).result h lat d bits signed val) :
    ∃ t, issue h { lat := lat } body s = .next t ∧ Results s t f h lat d bits signed val fl := by
  have hs : ∀ x : Fibre, x.statusAt (s.wgNow f.wg + lat) fl =
      { x with status := if fl = 0 then x.status else x.status ++ [(s.wgNow f.wg + lat, fl)] } := by
    intro x
    unfold Fibre.statusAt
    by_cases h0 : fl = 0
    · subst h0; rfl
    · have : (fl == 0) = false := by simpa using h0
      rw [if_neg h0]; simp only [this]; rfl
  rw [Ctx.result_eq] at hb
  refine ⟨_, issue_done hi hb, ?_⟩
  generalize hc : ({ issueCtx s f h with fb := (issueCtx s f h).fb.statusAt (s.wgNow f.wg + lat) fl } : Ctx) = c
  have hcs : c.s = s := by rw [← hc]; rfl
  have hcf : c.f = f := by rw [← hc]; rfl
  have hca : c.act = (issueCtx s f h).act := by rw [← hc]
  have hl0 : c.lane0 = (issueCtx s f h).lane0 := by unfold Ctx.lane0; rw [hca]
  have hcb : c.fb = { s.fibOf f with
      clk := (issueCtx s f h).fb.clk
      status := if fl = 0 then (s.fibOf f).status else (s.fibOf f).status ++ [(s.wgNow f.wg + lat, fl)] } := by
    rw [← hc]; simp only; rw [hs, issueCtx_fb]
  have hput : c.put (c.resultFibre h lat d bits signed val) =
      (issueCtx s f h).put (c.resultFibre h lat d bits signed val) := by
    unfold Ctx.put; rw [hcs, hcf]; rfl
  have hsame := Ctx.resultFibre_same c h lat d bits signed val
  have hin := Ctx.resultFibre_in c h lat d bits signed val
  rw [hput]
  generalize hfb : c.resultFibre h lat d bits signed val = fb at *
  have hfib : ((issueCtx s f h).put fb).fibOf f = fb := State.fib_setFib_same _ _ _ _ _
  have hst : fb.status = if fl = 0 then (s.fibOf f).status else (s.fibOf f).status ++ [(s.wgNow f.wg + lat, fl)] := by
    rw [hsame, hcb]
  refine ⟨issuedOnly_put s f h _ fb _ hi rfl rfl rfl (by rw [hsame, hcb]), ?_, ?_, ?_⟩
  · rw [State.afterIssue_fibOf, hfib, Fibre.afterIssue_same]
    rw [← hca, ← hl0]
    rw [hcb] at hin
    exact hin
  · intro ht
    have hto : f.together s = true := by unfold Focus.together; rw [ht]; simp
    rw [State.afterIssue_fibOf, hfib, hto]
    have hix : (s.fibOf f).issueIx = fb.issueIx := by rw [hsame, hcb]
    rw [hix, Fibre.afterIssue_latch]
    have hnow : ((issueCtx s f h).put fb).wgNow f.wg = s.wgNow f.wg := State.wgNow_setSlot _ _ _ _ _
    simp only [hca, hl0, hnow]
  · rw [State.afterIssue_fibOf, hfib, Fibre.afterIssue_same]
    exact hst

/-- The same for an instruction that sets no status bit. -/
theorem issue_result {s : State} {f : Focus} {h : Sched} {body : Ctx → Res} {lat : Nat} {d : Operand} {bits : Nat}
    {signed : Bool} {val : Nat → Nat} (hi : s.issues f h)
    (hb : body (issueCtx s f h) = (issueCtx s f h).result h lat d bits signed val) :
    ∃ t, issue h { lat := lat } body s = .next t ∧ Results s t f h lat d bits signed val :=
  issue_resultF (fl := 0) hi hb

/-- A checked instruction with a fixed-latency result: what it answers where its checks pass. -/
theorem issue_guarded {s : State} {f : Focus} {h : Sched} {u : Uses} {lat : Nat} {d : Operand} {bits : Nat} {signed : Bool}
    (val : Ctx → Nat → Nat) (hr : s.wordReady f h u) :
    ∃ t, issue h { lat := lat } (fun c => c.guarded u (c.result h lat d bits signed (val c))) s = .next t ∧
      Results s t f h lat d bits signed (val (issueCtx s f h)) :=
  issue_result hr.1 (guarded_ok _ _ _ hr.2)

/-- The same with status bits. -/
theorem issue_guardedF {s : State} {f : Focus} {h : Sched} {u : Uses} {lat : Nat} {d : Operand} {bits : Nat}
    (val : Ctx → Nat → Nat × FpFlags) (hr : s.wordReady f h u) :
    ∃ t, issue h { lat := lat } (fun c => c.guarded u (c.resultF h lat d bits (val c))) s = .next t ∧
      Results s t f h lat d bits false (fun l => (val (issueCtx s f h) l).1) (resultFlags s f h d (val (issueCtx s f h))) := by
  refine issue_resultF hr.1 ((guarded_ok _ _ _ hr.2).trans ?_)
  cases d <;> rfl

end Sys2Proof.Machine
end

