-- ==== Sys2Proof/Laws/Memory.lean ====
section
/-! SUPPORT. Laws of memory: reading after writing, and the operations that keep the canonical form of memory, of the failing
marks and of the dies' line copies (`State.memWf`). -/

namespace Sys2Proof.Machine

/-! ### Tables -/

theorem Tab.head_filter {α : Type} (j : Nat) (p : Nat × α → Bool) (t : Tab α) (ht : ∀ x ∈ t, j < x.1) :
    ∀ x ∈ (t.filter p).head?, j < x.1 := by
  intro x hx
  exact ht x (List.mem_filter.1 (List.mem_of_mem_head? hx)).1

/-- The keys of a canonical table rise along the whole of it. -/
theorem Tab.wf_lt {α : Type} [DecidableEq α] (d : α) (j : Nat) (a : α) (t : Tab α) (h : Tab.wf d ((j, a) :: t) = true) :
    ∀ x ∈ t, j < x.1 := by
  induction t generalizing j a with
  | nil => simp
  | cons y r ih =>
    obtain ⟨k, b⟩ := y
    have h1 := (Tab.wf_cons d j a _).1 h
    intro x hx
    rcases List.mem_cons.1 hx with rfl | hx
    · simpa using h1.2.1
    · have h2 := h1.2.1 (k, b) (by simp)
      have := ih k b h1.2.2 x hx
      simp at h2; omega

/-- Leaving entries out keeps the canonical form. -/
theorem Tab.filter_wf {α : Type} [DecidableEq α] (d : α) (p : Nat × α → Bool) (t : Tab α) (h : Tab.wf d t = true) :
    Tab.wf d (t.filter p) = true := by
  induction t with
  | nil => simp [Tab.wf]
  | cons y r ih =>
    obtain ⟨k, b⟩ := y
    have h1 := (Tab.wf_cons d k b r).1 h
    cases hp : p (k, b)
    · simpa [List.filter, hp] using ih h1.2.2
    · simp only [List.filter, hp, Tab.wf_cons]
      exact ⟨h1.1, Tab.head_filter k p r (Tab.wf_lt d k b r h), ih h1.2.2⟩

theorem Tab.clearRange_wf {α : Type} [DecidableEq α] (d : α) (t : Tab α) (lo n : Nat) (h : Tab.wf d t = true) :
    Tab.wf d (Tab.clearRange t lo n) = true := Tab.filter_wf d _ t h

/-- Reading a canonical table from which entries were left out. -/
theorem Tab.get_filter {α : Type} [DecidableEq α] (d : α) (q : Nat → Bool) (t : Tab α) (h : Tab.wf d t = true) (k : Nat) :
    Tab.get d (t.filter fun x => q x.1) k = if q k then Tab.get d t k else d := by
  induction t with
  | nil => simp [Tab.get]
  | cons y r ih =>
    obtain ⟨j, a⟩ := y
    have h1 := (Tab.wf_cons d j a r).1 h
    have hlt := Tab.wf_lt d j a r h
    have key : ∀ t : Tab α, (∀ x ∈ t, j < x.1) → k ≤ j → Tab.get d t k = d := by
      intro t ht hk
      cases t with
      | nil => rfl
      | cons z w =>
        obtain ⟨i, c⟩ := z
        have := ht (i, c) (by simp)
        simp [Tab.get]; omega
    by_cases hj : q j
    · simp only [List.filter, hj, Tab.get]
      by_cases h2 : k < j
      · simp [h2]
      · by_cases h3 : k = j
        · subst h3; simp [hj]
        · simp [h2, h3, ih h1.2.2]
    · simp only [List.filter, hj]
      rw [ih h1.2.2]
      by_cases h3 : k = j
      · subst h3; simp [hj]
      · by_cases h2 : k < j
        · simp [Tab.get, h2, key r hlt (by omega)]
        · simp [Tab.get, h2, h3]

/-- Every key of a cleared range of a canonical table reads as the default, every other as before. -/
theorem Tab.get_clearRange {α : Type} [DecidableEq α] (d : α) (t : Tab α) (lo n k : Nat) (h : Tab.wf d t = true) :
    Tab.get d (Tab.clearRange t lo n) k = if k < lo ∨ lo + n ≤ k then Tab.get d t k else d := by
  have := Tab.get_filter d (fun j => decide (j < lo ∨ lo + n ≤ j)) t h k
  simpa [Tab.clearRange] using this

/-! ### Bytes of memory -/

/-- Reading a byte after one byte is written. -/
theorem Memory.byte_setByte (m : List Host.Cell) (a k : Nat) (b : Byte) :
    Memory.byte (Memory.setByte m a b) k = if k = a then b else Memory.byte m k := Tab.get_set 0 m a k b

theorem Memory.wf_setByte (m : List Host.Cell) (a : Nat) (b : Byte) (h : Memory.wf m = true) :
    Memory.wf (Memory.setByte m a b) = true := Tab.set_wf 0 m a b h

/-- Every store keeps the canonical form. -/
theorem Memory.wf_write (m : List Host.Cell) (a : Nat) (bs : List Byte) (h : Memory.wf m = true) :
    Memory.wf (Memory.write m a bs) = true := by
  induction bs generalizing m a with
  | nil => exact h
  | cons b r ih => exact ih _ _ (Memory.wf_setByte m a b h)

/-- Reading a byte after a store: the stored byte inside it, the byte of before outside. -/
theorem Memory.byte_write (m : List Host.Cell) (a : Nat) (bs : List Byte) (k : Nat) :
    Memory.byte (Memory.write m a bs) k = if a ≤ k ∧ k < a + bs.length then bs.getD (k - a) 0 else Memory.byte m k := by
  induction bs generalizing m a with
  | nil => simp [Memory.write] <;> omega
  | cons b r ih =>
    simp only [Memory.write, ih, Memory.byte_setByte, List.length_cons]
    by_cases h1 : k = a
    · subst h1; simp <;> omega
    · by_cases h2 : a + 1 ≤ k ∧ k < a + 1 + r.length
      · have h3 : a ≤ k ∧ k < a + (r.length + 1) := by omega
        have h4 : k - a = (k - (a + 1)) + 1 := by omega
        simp [h2, h3, h4]
      · have h3 : ¬ (a ≤ k ∧ k < a + (r.length + 1)) := by omega
        simp only [h1, h2, h3, if_false]

/-- A byte outside a store is as before. -/
theorem Memory.byte_write_out (m : List Host.Cell) (a : Nat) (bs : List Byte) (k : Nat) (h : k < a ∨ a + bs.length ≤ k) :
    Memory.byte (Memory.write m a bs) k = Memory.byte m k := by
  rw [Memory.byte_write, if_neg (by omega)]

theorem Memory.length_bytes (m : List Host.Cell) (a n : Nat) : (Memory.bytes m a n).length = n := by
  induction n generalizing a with
  | zero => rfl
  | succ n ih => simp [Memory.bytes, ih]

/-- A stored list reads back. -/
theorem Memory.bytes_write (m : List Host.Cell) (a : Nat) (bs : List Byte) :
    Memory.bytes (Memory.write m a bs) a bs.length = bs := by
  have key : ∀ (n c : Nat), c + n = bs.length →
      Memory.bytes (Memory.write m a bs) (a + c) n = bs.drop c := by
    intro n
    induction n with
    | zero => intro c hc; simp [Memory.bytes]; omega
    | succ n ih =>
      intro c hc
      have h1 := ih (c + 1) (by omega)
      have h2 : c < bs.length := by omega
      have h3 : a + c + 1 = a + (c + 1) := by omega
      simp only [Memory.bytes, Memory.byte_write, h3, h1]
      rw [if_pos (by omega), List.drop_eq_getElem_cons h2]
      simp [List.getD, h2]
  simpa using key bs.length 0 (by omega)

end Sys2Proof.Machine
end

