-- ==== Sys2Proof/Laws/PerInstr.lean ====
section
/-! SUPPORT. One lemma per instruction about its encoding: an Aelax instruction's word is an assigned opcode, its own scheduling
fields and a body (R343); a hardware event has neither word nor scheduling fields. -/

/-- What the encoder gives an instruction value. -/
def Sys2Proof.Laws.Encoding.Statement (i : Sys2Proof.Instr) : Prop :=
  match Sys2Proof.encode i with
  | some w => ∃ (opc : Nat) (h : Sys2Proof.Sched) (body : Nat),
      w = Sys2Proof.Enc.word opc h body ∧ 0 < opc ∧ opc < 2 ^ 10 ∧ i.sched = some h
  | none => i.sched = none

theorem Sys2Proof.Laws.Encoding.moduleReset (u : BringUp) : Sys2Proof.Laws.Encoding.Statement (.moduleReset u) := rfl
theorem Sys2Proof.Laws.Encoding.trayKeyInstall (key : BitVec 256) : Sys2Proof.Laws.Encoding.Statement (.trayKeyInstall key) := rfl
theorem Sys2Proof.Laws.Encoding.lantern (mask : BitVec 8) : Sys2Proof.Laws.Encoding.Statement (.lantern mask) := rfl
theorem Sys2Proof.Laws.Encoding.orderSlotError (die : Nat) : Sys2Proof.Laws.Encoding.Statement (.orderSlotError die) := rfl
theorem Sys2Proof.Laws.Encoding.warning (die : Nat) (sensor : Nat) (reading : Half) : Sys2Proof.Laws.Encoding.Statement (.warning die sensor reading) := rfl
theorem Sys2Proof.Laws.Encoding.thermalThrottle (die : Nat) (readings : List Half) : Sys2Proof.Laws.Encoding.Statement (.thermalThrottle die readings) := rfl
theorem Sys2Proof.Laws.Encoding.thermalRelease (die : Nat) (readings : List Half) : Sys2Proof.Laws.Encoding.Statement (.thermalRelease die readings) := rfl
theorem Sys2Proof.Laws.Encoding.sustainedPower (watts1s : Nat) : Sys2Proof.Laws.Encoding.Statement (.sustainedPower watts1s) := rfl
theorem Sys2Proof.Laws.Encoding.peakPower (watts100us : Nat) : Sys2Proof.Laws.Encoding.Statement (.peakPower watts100us) := rfl
theorem Sys2Proof.Laws.Encoding.powerRelease (watts1s : Nat) (watts100us : Nat) : Sys2Proof.Laws.Encoding.Statement (.powerRelease watts1s watts100us) := rfl
theorem Sys2Proof.Laws.Encoding.trip (die : Nat) (sensor : Nat) (reading : Half) : Sys2Proof.Laws.Encoding.Statement (.trip die sensor reading) := rfl
theorem Sys2Proof.Laws.Encoding.remap (die : Nat) (x : RemapOrder) : Sys2Proof.Laws.Encoding.Statement (.remap die x) := rfl
theorem Sys2Proof.Laws.Encoding.remapFrame (die : Nat) : Sys2Proof.Laws.Encoding.Statement (.remapFrame die) := rfl
theorem Sys2Proof.Laws.Encoding.fieldFence (die : Nat) (x : FenceOrder) : Sys2Proof.Laws.Encoding.Statement (.fieldFence die x) := rfl
theorem Sys2Proof.Laws.Encoding.quarantine (lcore : Nat) (cause : Nat) : Sys2Proof.Laws.Encoding.Statement (.quarantine lcore cause) := rfl
theorem Sys2Proof.Laws.Encoding.dramScrub (die : Nat) (found : Scrubbed) (soft : Nat) : Sys2Proof.Laws.Encoding.Statement (.dramScrub die found soft) := rfl
theorem Sys2Proof.Laws.Encoding.sramScrub (die : Nat) (found : Scrubbed) (soft : Nat) : Sys2Proof.Laws.Encoding.Statement (.sramScrub die found soft) := rfl
theorem Sys2Proof.Laws.Encoding.routingTable (r : RouteCheck) : Sys2Proof.Laws.Encoding.Statement (.routingTable r) := rfl
theorem Sys2Proof.Laws.Encoding.routingRetry (r : RouteCheck) : Sys2Proof.Laws.Encoding.Statement (.routingRetry r) := rfl
theorem Sys2Proof.Laws.Encoding.ethernetFrameDiscard (malformed : Bool) (length : Nat) (mac : BitVec 48) : Sys2Proof.Laws.Encoding.Statement (.ethernetFrameDiscard malformed length mac) := rfl
theorem Sys2Proof.Laws.Encoding.arp (func : Nat) (ip : Nat) : Sys2Proof.Laws.Encoding.Statement (.arp func ip) := rfl
theorem Sys2Proof.Laws.Encoding.neighbourDiscovery (func : Nat) (ip : Nat) : Sys2Proof.Laws.Encoding.Statement (.neighbourDiscovery func ip) := rfl
theorem Sys2Proof.Laws.Encoding.rdmaWrite (q : RdmaReq) : Sys2Proof.Laws.Encoding.Statement (.rdmaWrite q) := rfl
theorem Sys2Proof.Laws.Encoding.rdmaRead (q : RdmaReq) : Sys2Proof.Laws.Encoding.Statement (.rdmaRead q) := rfl
theorem Sys2Proof.Laws.Encoding.compareSwap (q : RdmaReq) : Sys2Proof.Laws.Encoding.Statement (.compareSwap q) := rfl
theorem Sys2Proof.Laws.Encoding.fetchAdd (q : RdmaReq) : Sys2Proof.Laws.Encoding.Statement (.fetchAdd q) := rfl
theorem Sys2Proof.Laws.Encoding.unsupportedOpcode (func : Nat) (pair : MarkedQp) (opcode : Nat) : Sys2Proof.Laws.Encoding.Statement (.unsupportedOpcode func pair opcode) := rfl
theorem Sys2Proof.Laws.Encoding.cnp (func : Nat) (qp : Nat) : Sys2Proof.Laws.Encoding.Statement (.cnp func qp) := rfl
theorem Sys2Proof.Laws.Encoding.rateRestore (func : Nat) (qp : Nat) : Sys2Proof.Laws.Encoding.Statement (.rateRestore func qp) := rfl
theorem Sys2Proof.Laws.Encoding.acknowledgement (func : Nat) (pair : MarkedQp) (tag : Nat) : Sys2Proof.Laws.Encoding.Statement (.acknowledgement func pair tag) := rfl
theorem Sys2Proof.Laws.Encoding.readResponse (func : Nat) (pair : MarkedQp) (tag : Nat) (data : List Byte) : Sys2Proof.Laws.Encoding.Statement (.readResponse func pair tag data) := rfl
theorem Sys2Proof.Laws.Encoding.nak (func : Nat) (pair : MarkedQp) (tag : Nat) (qpError : Bool) : Sys2Proof.Laws.Encoding.Statement (.nak func pair tag qpError) := rfl
theorem Sys2Proof.Laws.Encoding.blockRelease (ldie : Nat) (part : Nat) : Sys2Proof.Laws.Encoding.Statement (.blockRelease ldie part) := rfl
theorem Sys2Proof.Laws.Encoding.runStart (handle : Nat) : Sys2Proof.Laws.Encoding.Statement (.runStart handle) := rfl
theorem Sys2Proof.Laws.Encoding.nodeDispatch (handle : Nat) (node : Nat) : Sys2Proof.Laws.Encoding.Statement (.nodeDispatch handle node) := rfl
theorem Sys2Proof.Laws.Encoding.dispatchDecision (ldie : Nat) : Sys2Proof.Laws.Encoding.Statement (.dispatchDecision ldie) := rfl
theorem Sys2Proof.Laws.Encoding.promotion (handle : Nat) (node : Nat) : Sys2Proof.Laws.Encoding.Statement (.promotion handle node) := rfl
theorem Sys2Proof.Laws.Encoding.nodeDone (handle : Nat) (node : Nat) : Sys2Proof.Laws.Encoding.Statement (.nodeDone handle node) := rfl
theorem Sys2Proof.Laws.Encoding.preemption (wg : Nat) : Sys2Proof.Laws.Encoding.Statement (.preemption wg) := rfl
theorem Sys2Proof.Laws.Encoding.watchdogExpiry (wg : Nat) : Sys2Proof.Laws.Encoding.Statement (.watchdogExpiry wg) := rfl
theorem Sys2Proof.Laws.Encoding.handOff (wg : Nat) (slot : Nat) : Sys2Proof.Laws.Encoding.Statement (.handOff wg slot) := rfl
theorem Sys2Proof.Laws.Encoding.loadPerform (op : Nat) (lanes : Lanes) : Sys2Proof.Laws.Encoding.Statement (.loadPerform op lanes) := rfl
theorem Sys2Proof.Laws.Encoding.storePerform (op : Nat) (lanes : Lanes) : Sys2Proof.Laws.Encoding.Statement (.storePerform op lanes) := rfl
theorem Sys2Proof.Laws.Encoding.atomicPerform (op : Nat) (lanes : Lanes) : Sys2Proof.Laws.Encoding.Statement (.atomicPerform op lanes) := rfl
theorem Sys2Proof.Laws.Encoding.accumulatePerform (op : Nat) (part : AccPart) : Sys2Proof.Laws.Encoding.Statement (.accumulatePerform op part) := rfl
theorem Sys2Proof.Laws.Encoding.divideComplete (op : Nat) : Sys2Proof.Laws.Encoding.Statement (.divideComplete op) := rfl
theorem Sys2Proof.Laws.Encoding.pageWalk (die : Nat) (asid : Nat) (page : Nat) : Sys2Proof.Laws.Encoding.Statement (.pageWalk die asid page) := rfl
theorem Sys2Proof.Laws.Encoding.copyCommandStart (core : Nat) : Sys2Proof.Laws.Encoding.Statement (.copyCommandStart core) := rfl
theorem Sys2Proof.Laws.Encoding.copyCommandPerform (core : Nat) : Sys2Proof.Laws.Encoding.Statement (.copyCommandPerform core) := rfl
theorem Sys2Proof.Laws.Encoding.matrixCommandStart (core : Nat) : Sys2Proof.Laws.Encoding.Statement (.matrixCommandStart core) := rfl
theorem Sys2Proof.Laws.Encoding.matrixCommandPerform (core : Nat) : Sys2Proof.Laws.Encoding.Statement (.matrixCommandPerform core) := rfl
theorem Sys2Proof.Laws.Encoding.stbPerform (op : Nat) : Sys2Proof.Laws.Encoding.Statement (.stbPerform op) := rfl
theorem Sys2Proof.Laws.Encoding.rds (lane : Nat) : Sys2Proof.Laws.Encoding.Statement (.rds lane) := rfl
theorem Sys2Proof.Laws.Encoding.rdx (lane : Nat) : Sys2Proof.Laws.Encoding.Statement (.rdx lane) := rfl
theorem Sys2Proof.Laws.Encoding.own (lane : Nat) : Sys2Proof.Laws.Encoding.Statement (.own lane) := rfl
theorem Sys2Proof.Laws.Encoding.upg (lane : Nat) : Sys2Proof.Laws.Encoding.Statement (.upg lane) := rfl
theorem Sys2Proof.Laws.Encoding.putm (lane : Nat) : Sys2Proof.Laws.Encoding.Statement (.putm lane) := rfl
theorem Sys2Proof.Laws.Encoding.puto (lane : Nat) : Sys2Proof.Laws.Encoding.Statement (.puto lane) := rfl
theorem Sys2Proof.Laws.Encoding.pin (lane : Nat) : Sys2Proof.Laws.Encoding.Statement (.pin lane) := rfl
theorem Sys2Proof.Laws.Encoding.forwardedData (die : Nat) (line : Nat) : Sys2Proof.Laws.Encoding.Statement (.forwardedData die line) := rfl
theorem Sys2Proof.Laws.Encoding.requesterCompletion (die : Nat) (line : Nat) : Sys2Proof.Laws.Encoding.Statement (.requesterCompletion die line) := rfl
theorem Sys2Proof.Laws.Encoding.dramWriteBack (line : Nat) : Sys2Proof.Laws.Encoding.Statement (.dramWriteBack line) := rfl
theorem Sys2Proof.Laws.Encoding.receivedCarrier (port : Nat) (c : LaneCarrier) : Sys2Proof.Laws.Encoding.Statement (.receivedCarrier port c) := rfl
theorem Sys2Proof.Laws.Encoding.carrierLoss (port : Nat) : Sys2Proof.Laws.Encoding.Statement (.carrierLoss port) := rfl
theorem Sys2Proof.Laws.Encoding.laneDown (port : Nat) (lane : Nat) : Sys2Proof.Laws.Encoding.Statement (.laneDown port lane) := rfl
theorem Sys2Proof.Laws.Encoding.trainingFlit (x : PortFlit) (peerRate : Nat) : Sys2Proof.Laws.Encoding.Statement (.trainingFlit x peerRate) := rfl
theorem Sys2Proof.Laws.Encoding.trainFail (port : Nat) : Sys2Proof.Laws.Encoding.Statement (.trainFail port) := rfl
theorem Sys2Proof.Laws.Encoding.identityFlit (port : Nat) (f : Flit) (identity : Dword) : Sys2Proof.Laws.Encoding.Statement (.identityFlit port f identity) := rfl
theorem Sys2Proof.Laws.Encoding.retrain (x : PortFlit) (rate : Nat) (same : Bool) : Sys2Proof.Laws.Encoding.Statement (.retrain x rate same) := rfl
theorem Sys2Proof.Laws.Encoding.retrainComplete (port : Nat) : Sys2Proof.Laws.Encoding.Statement (.retrainComplete port) := rfl
theorem Sys2Proof.Laws.Encoding.messageFlit (port : Nat) (f : Flit) : Sys2Proof.Laws.Encoding.Statement (.messageFlit port f) := rfl
theorem Sys2Proof.Laws.Encoding.retryRequest (port : Nat) (f : Flit) : Sys2Proof.Laws.Encoding.Statement (.retryRequest port f) := rfl
theorem Sys2Proof.Laws.Encoding.ackTimeout (port : Nat) : Sys2Proof.Laws.Encoding.Statement (.ackTimeout port) := rfl
theorem Sys2Proof.Laws.Encoding.keyExhaust (port : Nat) (tag : Nat) (kidx : Nat) : Sys2Proof.Laws.Encoding.Statement (.keyExhaust port tag kidx) := rfl
theorem Sys2Proof.Laws.Encoding.keyAcknowledge (x : PortFlit) (tag : Nat) : Sys2Proof.Laws.Encoding.Statement (.keyAcknowledge x tag) := rfl
theorem Sys2Proof.Laws.Encoding.keyRetire (x : PortFlit) (tag : Nat) : Sys2Proof.Laws.Encoding.Statement (.keyRetire x tag) := rfl
theorem Sys2Proof.Laws.Encoding.quiesceDone (x : PortFlit) : Sys2Proof.Laws.Encoding.Statement (.quiesceDone x) := rfl
theorem Sys2Proof.Laws.Encoding.drainLimit (port : Nat) : Sys2Proof.Laws.Encoding.Statement (.drainLimit port) := rfl
theorem Sys2Proof.Laws.Encoding.holdLimit (port : Nat) : Sys2Proof.Laws.Encoding.Statement (.holdLimit port) := rfl
theorem Sys2Proof.Laws.Encoding.carrierLossNotice (x : PortFlit) : Sys2Proof.Laws.Encoding.Statement (.carrierLossNotice x) := rfl
theorem Sys2Proof.Laws.Encoding.heartbeat (x : PortFlit) : Sys2Proof.Laws.Encoding.Statement (.heartbeat x) := rfl
theorem Sys2Proof.Laws.Encoding.peerSilent (port : Nat) : Sys2Proof.Laws.Encoding.Statement (.peerSilent port) := rfl
theorem Sys2Proof.Laws.Encoding.triggerWindowAdd (op : Nat) : Sys2Proof.Laws.Encoding.Statement (.triggerWindowAdd op) := rfl
theorem Sys2Proof.Laws.Encoding.triggerWindowSet (op : Nat) : Sys2Proof.Laws.Encoding.Statement (.triggerWindowSet op) := rfl
theorem Sys2Proof.Laws.Encoding.entryIssue (ldie : Nat) (part : Nat) : Sys2Proof.Laws.Encoding.Statement (.entryIssue ldie part) := rfl
theorem Sys2Proof.Laws.Encoding.entryComplete (ldie : Nat) (part : Nat) : Sys2Proof.Laws.Encoding.Statement (.entryComplete ldie part) := rfl
theorem Sys2Proof.Laws.Encoding.iadd (h : Sched) (o : GOps) (m : ModN) : Sys2Proof.Laws.Encoding.Statement (.iadd h o m) := ⟨_, _, _, rfl, by decide, by decide, rfl⟩
theorem Sys2Proof.Laws.Encoding.isub (h : Sched) (o : GOps) (m : ModN) : Sys2Proof.Laws.Encoding.Statement (.isub h o m) := ⟨_, _, _, rfl, by decide, by decide, rfl⟩
theorem Sys2Proof.Laws.Encoding.imul (h : Sched) (o : GOps) (m : ModN) : Sys2Proof.Laws.Encoding.Statement (.imul h o m) := ⟨_, _, _, rfl, by decide, by decide, rfl⟩
theorem Sys2Proof.Laws.Encoding.imulh (h : Sched) (o : GOps) (m : ModN) : Sys2Proof.Laws.Encoding.Statement (.imulh h o m) := ⟨_, _, _, rfl, by decide, by decide, rfl⟩
theorem Sys2Proof.Laws.Encoding.imad (h : Sched) (o : GOps) (m : ModN) : Sys2Proof.Laws.Encoding.Statement (.imad h o m) := ⟨_, _, _, rfl, by decide, by decide, rfl⟩
theorem Sys2Proof.Laws.Encoding.imin (h : Sched) (o : GOps) (m : ModN) : Sys2Proof.Laws.Encoding.Statement (.imin h o m) := ⟨_, _, _, rfl, by decide, by decide, rfl⟩
theorem Sys2Proof.Laws.Encoding.imax (h : Sched) (o : GOps) (m : ModN) : Sys2Proof.Laws.Encoding.Statement (.imax h o m) := ⟨_, _, _, rfl, by decide, by decide, rfl⟩
theorem Sys2Proof.Laws.Encoding.iabs (h : Sched) (o : GOps) (m : ModN) : Sys2Proof.Laws.Encoding.Statement (.iabs h o m) := ⟨_, _, _, rfl, by decide, by decide, rfl⟩
theorem Sys2Proof.Laws.Encoding.ineg (h : Sched) (o : GOps) (m : ModN) : Sys2Proof.Laws.Encoding.Statement (.ineg h o m) := ⟨_, _, _, rfl, by decide, by decide, rfl⟩
theorem Sys2Proof.Laws.Encoding.and (h : Sched) (o : GOps) (m : ModN) : Sys2Proof.Laws.Encoding.Statement (.and h o m) := ⟨_, _, _, rfl, by decide, by decide, rfl⟩
theorem Sys2Proof.Laws.Encoding.or (h : Sched) (o : GOps) (m : ModN) : Sys2Proof.Laws.Encoding.Statement (.or h o m) := ⟨_, _, _, rfl, by decide, by decide, rfl⟩
theorem Sys2Proof.Laws.Encoding.xor (h : Sched) (o : GOps) (m : ModN) : Sys2Proof.Laws.Encoding.Statement (.xor h o m) := ⟨_, _, _, rfl, by decide, by decide, rfl⟩
theorem Sys2Proof.Laws.Encoding.andn (h : Sched) (o : GOps) (m : ModN) : Sys2Proof.Laws.Encoding.Statement (.andn h o m) := ⟨_, _, _, rfl, by decide, by decide, rfl⟩
theorem Sys2Proof.Laws.Encoding.not (h : Sched) (o : GOps) (m : ModN) : Sys2Proof.Laws.Encoding.Statement (.not h o m) := ⟨_, _, _, rfl, by decide, by decide, rfl⟩
theorem Sys2Proof.Laws.Encoding.shl (h : Sched) (o : GOps) (m : ModN) : Sys2Proof.Laws.Encoding.Statement (.shl h o m) := ⟨_, _, _, rfl, by decide, by decide, rfl⟩
theorem Sys2Proof.Laws.Encoding.shr (h : Sched) (o : GOps) (m : ModN) : Sys2Proof.Laws.Encoding.Statement (.shr h o m) := ⟨_, _, _, rfl, by decide, by decide, rfl⟩
theorem Sys2Proof.Laws.Encoding.sar (h : Sched) (o : GOps) (m : ModN) : Sys2Proof.Laws.Encoding.Statement (.sar h o m) := ⟨_, _, _, rfl, by decide, by decide, rfl⟩
theorem Sys2Proof.Laws.Encoding.rol (h : Sched) (o : GOps) (m : ModN) : Sys2Proof.Laws.Encoding.Statement (.rol h o m) := ⟨_, _, _, rfl, by decide, by decide, rfl⟩
theorem Sys2Proof.Laws.Encoding.ror (h : Sched) (o : GOps) (m : ModN) : Sys2Proof.Laws.Encoding.Statement (.ror h o m) := ⟨_, _, _, rfl, by decide, by decide, rfl⟩
theorem Sys2Proof.Laws.Encoding.popc (h : Sched) (o : GOps) (m : ModN) : Sys2Proof.Laws.Encoding.Statement (.popc h o m) := ⟨_, _, _, rfl, by decide, by decide, rfl⟩
theorem Sys2Proof.Laws.Encoding.clz (h : Sched) (o : GOps) (m : ModN) : Sys2Proof.Laws.Encoding.Statement (.clz h o m) := ⟨_, _, _, rfl, by decide, by decide, rfl⟩
theorem Sys2Proof.Laws.Encoding.ctz (h : Sched) (o : GOps) (m : ModN) : Sys2Proof.Laws.Encoding.Statement (.ctz h o m) := ⟨_, _, _, rfl, by decide, by decide, rfl⟩
theorem Sys2Proof.Laws.Encoding.brev (h : Sched) (o : GOps) (m : ModN) : Sys2Proof.Laws.Encoding.Statement (.brev h o m) := ⟨_, _, _, rfl, by decide, by decide, rfl⟩
theorem Sys2Proof.Laws.Encoding.bfx (h : Sched) (o : GOps) (m : ModN) : Sys2Proof.Laws.Encoding.Statement (.bfx h o m) := ⟨_, _, _, rfl, by decide, by decide, rfl⟩
theorem Sys2Proof.Laws.Encoding.bfi (h : Sched) (o : GOps) (m : ModN) : Sys2Proof.Laws.Encoding.Statement (.bfi h o m) := ⟨_, _, _, rfl, by decide, by decide, rfl⟩
theorem Sys2Proof.Laws.Encoding.prmb (h : Sched) (o : GOps) (m : ModN) : Sys2Proof.Laws.Encoding.Statement (.prmb h o m) := ⟨_, _, _, rfl, by decide, by decide, rfl⟩
theorem Sys2Proof.Laws.Encoding.icmp (h : Sched) (o : GOps) (m : ModIcmp) : Sys2Proof.Laws.Encoding.Statement (.icmp h o m) := ⟨_, _, _, rfl, by decide, by decide, rfl⟩
theorem Sys2Proof.Laws.Encoding.fcmp (h : Sched) (o : GOps) (m : ModFcmp) : Sys2Proof.Laws.Encoding.Statement (.fcmp h o m) := ⟨_, _, _, rfl, by decide, by decide, rfl⟩
theorem Sys2Proof.Laws.Encoding.sel (h : Sched) (o : GOps) (dw : Bool) : Sys2Proof.Laws.Encoding.Statement (.sel h o dw) := ⟨_, _, _, rfl, by decide, by decide, rfl⟩
theorem Sys2Proof.Laws.Encoding.mov (h : Sched) (o : GOps) (dw : Bool) : Sys2Proof.Laws.Encoding.Statement (.mov h o dw) := ⟨_, _, _, rfl, by decide, by decide, rfl⟩
theorem Sys2Proof.Laws.Encoding.movi (h : Sched) (o : IOps) (m : MoviMode) : Sys2Proof.Laws.Encoding.Statement (.movi h o m) := ⟨_, _, _, rfl, by decide, by decide, rfl⟩
theorem Sys2Proof.Laws.Encoding.rdsp (h : Sched) (o : GOps) (m : RdspItem) : Sys2Proof.Laws.Encoding.Statement (.rdsp h o m) := ⟨_, _, _, rfl, by decide, by decide, rfl⟩
theorem Sys2Proof.Laws.Encoding.lperm (h : Sched) (o : GOps) (dw : Bool) : Sys2Proof.Laws.Encoding.Statement (.lperm h o dw) := ⟨_, _, _, rfl, by decide, by decide, rfl⟩
theorem Sys2Proof.Laws.Encoding.vote (h : Sched) (o : GOps) (m : ModVote) : Sys2Proof.Laws.Encoding.Statement (.vote h o m) := ⟨_, _, _, rfl, by decide, by decide, rfl⟩
theorem Sys2Proof.Laws.Encoding.iscan (h : Sched) (o : GOps) (m : ModScan) : Sys2Proof.Laws.Encoding.Statement (.iscan h o m) := ⟨_, _, _, rfl, by decide, by decide, rfl⟩
theorem Sys2Proof.Laws.Encoding.lred (h : Sched) (o : GOps) (m : ModLred) : Sys2Proof.Laws.Encoding.Statement (.lred h o m) := ⟨_, _, _, rfl, by decide, by decide, rfl⟩
theorem Sys2Proof.Laws.Encoding.aset (h : Sched) (o : IOps) : Sys2Proof.Laws.Encoding.Statement (.aset h o) := ⟨_, _, _, rfl, by decide, by decide, rfl⟩
theorem Sys2Proof.Laws.Encoding.aadd (h : Sched) (o : GOps) : Sys2Proof.Laws.Encoding.Statement (.aadd h o) := ⟨_, _, _, rfl, by decide, by decide, rfl⟩
theorem Sys2Proof.Laws.Encoding.ascl (h : Sched) (o : IOps) : Sys2Proof.Laws.Encoding.Statement (.ascl h o) := ⟨_, _, _, rfl, by decide, by decide, rfl⟩
theorem Sys2Proof.Laws.Encoding.aoff (h : Sched) (o : GOps) : Sys2Proof.Laws.Encoding.Statement (.aoff h o) := ⟨_, _, _, rfl, by decide, by decide, rfl⟩
theorem Sys2Proof.Laws.Encoding.aexp (h : Sched) (o : GOps) (dw : Bool) : Sys2Proof.Laws.Encoding.Statement (.aexp h o dw) := ⟨_, _, _, rfl, by decide, by decide, rfl⟩
theorem Sys2Proof.Laws.Encoding.pset (h : Sched) (o : GOps) (m : ModPset) : Sys2Proof.Laws.Encoding.Statement (.pset h o m) := ⟨_, _, _, rfl, by decide, by decide, rfl⟩
theorem Sys2Proof.Laws.Encoding.plog (h : Sched) (o : GOps) (m : PlogOp) : Sys2Proof.Laws.Encoding.Statement (.plog h o m) := ⟨_, _, _, rfl, by decide, by decide, rfl⟩
theorem Sys2Proof.Laws.Encoding.pcnt (h : Sched) (o : GOps) : Sys2Proof.Laws.Encoding.Statement (.pcnt h o) := ⟨_, _, _, rfl, by decide, by decide, rfl⟩
theorem Sys2Proof.Laws.Encoding.fadd (h : Sched) (o : GOps) (m : ModF) : Sys2Proof.Laws.Encoding.Statement (.fadd h o m) := ⟨_, _, _, rfl, by decide, by decide, rfl⟩
theorem Sys2Proof.Laws.Encoding.fsub (h : Sched) (o : GOps) (m : ModF) : Sys2Proof.Laws.Encoding.Statement (.fsub h o m) := ⟨_, _, _, rfl, by decide, by decide, rfl⟩
theorem Sys2Proof.Laws.Encoding.fmul (h : Sched) (o : GOps) (m : ModF) : Sys2Proof.Laws.Encoding.Statement (.fmul h o m) := ⟨_, _, _, rfl, by decide, by decide, rfl⟩
theorem Sys2Proof.Laws.Encoding.ffma (h : Sched) (o : GOps) (m : ModF) : Sys2Proof.Laws.Encoding.Statement (.ffma h o m) := ⟨_, _, _, rfl, by decide, by decide, rfl⟩
theorem Sys2Proof.Laws.Encoding.fmin (h : Sched) (o : GOps) (m : ModF) : Sys2Proof.Laws.Encoding.Statement (.fmin h o m) := ⟨_, _, _, rfl, by decide, by decide, rfl⟩
theorem Sys2Proof.Laws.Encoding.fmax (h : Sched) (o : GOps) (m : ModF) : Sys2Proof.Laws.Encoding.Statement (.fmax h o m) := ⟨_, _, _, rfl, by decide, by decide, rfl⟩
theorem Sys2Proof.Laws.Encoding.fdiv (h : Sched) (o : GOps) (m : ModF) : Sys2Proof.Laws.Encoding.Statement (.fdiv h o m) := ⟨_, _, _, rfl, by decide, by decide, rfl⟩
theorem Sys2Proof.Laws.Encoding.fsqrt (h : Sched) (o : GOps) (m : ModF) : Sys2Proof.Laws.Encoding.Statement (.fsqrt h o m) := ⟨_, _, _, rfl, by decide, by decide, rfl⟩
theorem Sys2Proof.Laws.Encoding.frcp (h : Sched) (o : GOps) (m : ModF) : Sys2Proof.Laws.Encoding.Statement (.frcp h o m) := ⟨_, _, _, rfl, by decide, by decide, rfl⟩
theorem Sys2Proof.Laws.Encoding.frsq (h : Sched) (o : GOps) (m : ModF) : Sys2Proof.Laws.Encoding.Statement (.frsq h o m) := ⟨_, _, _, rfl, by decide, by decide, rfl⟩
theorem Sys2Proof.Laws.Encoding.fexp2 (h : Sched) (o : GOps) (m : ModF) : Sys2Proof.Laws.Encoding.Statement (.fexp2 h o m) := ⟨_, _, _, rfl, by decide, by decide, rfl⟩
theorem Sys2Proof.Laws.Encoding.flog2 (h : Sched) (o : GOps) (m : ModF) : Sys2Proof.Laws.Encoding.Statement (.flog2 h o m) := ⟨_, _, _, rfl, by decide, by decide, rfl⟩
theorem Sys2Proof.Laws.Encoding.fsin (h : Sched) (o : GOps) (m : ModF) : Sys2Proof.Laws.Encoding.Statement (.fsin h o m) := ⟨_, _, _, rfl, by decide, by decide, rfl⟩
theorem Sys2Proof.Laws.Encoding.fcos (h : Sched) (o : GOps) (m : ModF) : Sys2Proof.Laws.Encoding.Statement (.fcos h o m) := ⟨_, _, _, rfl, by decide, by decide, rfl⟩
theorem Sys2Proof.Laws.Encoding.ftanh (h : Sched) (o : GOps) (m : ModF) : Sys2Proof.Laws.Encoding.Statement (.ftanh h o m) := ⟨_, _, _, rfl, by decide, by decide, rfl⟩
theorem Sys2Proof.Laws.Encoding.ffrc (h : Sched) (o : GOps) (m : ModF) : Sys2Proof.Laws.Encoding.Statement (.ffrc h o m) := ⟨_, _, _, rfl, by decide, by decide, rfl⟩
theorem Sys2Proof.Laws.Encoding.frnd (h : Sched) (o : GOps) (m : ModF) : Sys2Proof.Laws.Encoding.Statement (.frnd h o m) := ⟨_, _, _, rfl, by decide, by decide, rfl⟩
theorem Sys2Proof.Laws.Encoding.fclass (h : Sched) (o : GOps) (m : ModF) : Sys2Proof.Laws.Encoding.Statement (.fclass h o m) := ⟨_, _, _, rfl, by decide, by decide, rfl⟩
theorem Sys2Proof.Laws.Encoding.cvt (h : Sched) (o : GOps) (m : ModCvt) : Sys2Proof.Laws.Encoding.Statement (.cvt h o m) := ⟨_, _, _, rfl, by decide, by decide, rfl⟩
theorem Sys2Proof.Laws.Encoding.cvtNarrow (h : Sched) (o : GOps) (m : ModCvt) : Sys2Proof.Laws.Encoding.Statement (.cvtNarrow h o m) := ⟨_, _, _, rfl, by decide, by decide, rfl⟩
theorem Sys2Proof.Laws.Encoding.qnt (h : Sched) (o : GOps) (m : ModQnt) : Sys2Proof.Laws.Encoding.Statement (.qnt h o m) := ⟨_, _, _, rfl, by decide, by decide, rfl⟩
theorem Sys2Proof.Laws.Encoding.dqnt (h : Sched) (o : GOps) (m : ModQnt) : Sys2Proof.Laws.Encoding.Statement (.dqnt h o m) := ⟨_, _, _, rfl, by decide, by decide, rfl⟩
theorem Sys2Proof.Laws.Encoding.bra (h : Sched) (o : BOps) : Sys2Proof.Laws.Encoding.Statement (.bra h o) := ⟨_, _, _, rfl, by decide, by decide, rfl⟩
theorem Sys2Proof.Laws.Encoding.brx (h : Sched) (o : GOps) : Sys2Proof.Laws.Encoding.Statement (.brx h o) := ⟨_, _, _, rfl, by decide, by decide, rfl⟩
theorem Sys2Proof.Laws.Encoding.call (h : Sched) (o : BOps) : Sys2Proof.Laws.Encoding.Statement (.call h o) := ⟨_, _, _, rfl, by decide, by decide, rfl⟩
theorem Sys2Proof.Laws.Encoding.callx (h : Sched) (o : GOps) : Sys2Proof.Laws.Encoding.Statement (.callx h o) := ⟨_, _, _, rfl, by decide, by decide, rfl⟩
theorem Sys2Proof.Laws.Encoding.ret (h : Sched) (o : GOps) : Sys2Proof.Laws.Encoding.Statement (.ret h o) := ⟨_, _, _, rfl, by decide, by decide, rfl⟩
theorem Sys2Proof.Laws.Encoding.exit (h : Sched) (o : GOps) : Sys2Proof.Laws.Encoding.Statement (.exit h o) := ⟨_, _, _, rfl, by decide, by decide, rfl⟩
theorem Sys2Proof.Laws.Encoding.waypt (h : Sched) (o : IOps) : Sys2Proof.Laws.Encoding.Statement (.waypt h o) := ⟨_, _, _, rfl, by decide, by decide, rfl⟩
theorem Sys2Proof.Laws.Encoding.nop (h : Sched) (o : GOps) : Sys2Proof.Laws.Encoding.Statement (.nop h o) := ⟨_, _, _, rfl, by decide, by decide, rfl⟩
theorem Sys2Proof.Laws.Encoding.ld (h : Sched) (o : MOps) (m : ModM) : Sys2Proof.Laws.Encoding.Statement (.ld h o m) := ⟨_, _, _, rfl, by decide, by decide, rfl⟩
theorem Sys2Proof.Laws.Encoding.st (h : Sched) (o : MOps) (m : ModM) : Sys2Proof.Laws.Encoding.Statement (.st h o m) := ⟨_, _, _, rfl, by decide, by decide, rfl⟩
theorem Sys2Proof.Laws.Encoding.lds (h : Sched) (o : MOps) (m : ModM) : Sys2Proof.Laws.Encoding.Statement (.lds h o m) := ⟨_, _, _, rfl, by decide, by decide, rfl⟩
theorem Sys2Proof.Laws.Encoding.ldL (h : Sched) (o : MOps) (m : ModM) : Sys2Proof.Laws.Encoding.Statement (.ldL h o m) := ⟨_, _, _, rfl, by decide, by decide, rfl⟩
theorem Sys2Proof.Laws.Encoding.stL (h : Sched) (o : MOps) (m : ModM) : Sys2Proof.Laws.Encoding.Statement (.stL h o m) := ⟨_, _, _, rfl, by decide, by decide, rfl⟩
theorem Sys2Proof.Laws.Encoding.cpf (h : Sched) (o : MOps) (m : ModM) : Sys2Proof.Laws.Encoding.Statement (.cpf h o m) := ⟨_, _, _, rfl, by decide, by decide, rfl⟩
theorem Sys2Proof.Laws.Encoding.cwb (h : Sched) (o : MOps) (m : ModM) : Sys2Proof.Laws.Encoding.Statement (.cwb h o m) := ⟨_, _, _, rfl, by decide, by decide, rfl⟩
theorem Sys2Proof.Laws.Encoding.cinv (h : Sched) (o : MOps) (m : ModM) : Sys2Proof.Laws.Encoding.Statement (.cinv h o m) := ⟨_, _, _, rfl, by decide, by decide, rfl⟩
theorem Sys2Proof.Laws.Encoding.atom (h : Sched) (o : MOps) (m : ModAtom) : Sys2Proof.Laws.Encoding.Statement (.atom h o m) := ⟨_, _, _, rfl, by decide, by decide, rfl⟩
theorem Sys2Proof.Laws.Encoding.atomL (h : Sched) (o : MOps) (m : ModAtom) : Sys2Proof.Laws.Encoding.Statement (.atomL h o m) := ⟨_, _, _, rfl, by decide, by decide, rfl⟩
theorem Sys2Proof.Laws.Encoding.facc (h : Sched) (o : MOps) (m : ModFacc) : Sys2Proof.Laws.Encoding.Statement (.facc h o m) := ⟨_, _, _, rfl, by decide, by decide, rfl⟩
theorem Sys2Proof.Laws.Encoding.faccrd (h : Sched) (o : MOps) (m : ModFaccrd) : Sys2Proof.Laws.Encoding.Statement (.faccrd h o m) := ⟨_, _, _, rfl, by decide, by decide, rfl⟩
theorem Sys2Proof.Laws.Encoding.faccclr (h : Sched) (o : MOps) (m : AccTy) : Sys2Proof.Laws.Encoding.Statement (.faccclr h o m) := ⟨_, _, _, rfl, by decide, by decide, rfl⟩
theorem Sys2Proof.Laws.Encoding.fence (h : Sched) (o : GOps) (m : ModFence) : Sys2Proof.Laws.Encoding.Statement (.fence h o m) := ⟨_, _, _, rfl, by decide, by decide, rfl⟩
theorem Sys2Proof.Laws.Encoding.qfence (h : Sched) (o : GOps) (m : BitVec 4) : Sys2Proof.Laws.Encoding.Statement (.qfence h o m) := ⟨_, _, _, rfl, by decide, by decide, rfl⟩
theorem Sys2Proof.Laws.Encoding.barInit (h : Sched) (o : GOps) : Sys2Proof.Laws.Encoding.Statement (.barInit h o) := ⟨_, _, _, rfl, by decide, by decide, rfl⟩
theorem Sys2Proof.Laws.Encoding.barArv (h : Sched) (o : GOps) (m : Scope) : Sys2Proof.Laws.Encoding.Statement (.barArv h o m) := ⟨_, _, _, rfl, by decide, by decide, rfl⟩
theorem Sys2Proof.Laws.Encoding.barWait (h : Sched) (o : GOps) (m : Scope) : Sys2Proof.Laws.Encoding.Statement (.barWait h o m) := ⟨_, _, _, rfl, by decide, by decide, rfl⟩
theorem Sys2Proof.Laws.Encoding.barSync (h : Sched) (o : GOps) (m : Scope) : Sys2Proof.Laws.Encoding.Statement (.barSync h o m) := ⟨_, _, _, rfl, by decide, by decide, rfl⟩
theorem Sys2Proof.Laws.Encoding.fbar (h : Sched) (o : GOps) (m : BitVec 4) : Sys2Proof.Laws.Encoding.Statement (.fbar h o m) := ⟨_, _, _, rfl, by decide, by decide, rfl⟩
theorem Sys2Proof.Laws.Encoding.wput (h : Sched) (o : GOps) : Sys2Proof.Laws.Encoding.Statement (.wput h o) := ⟨_, _, _, rfl, by decide, by decide, rfl⟩
theorem Sys2Proof.Laws.Encoding.wtake (h : Sched) (o : GOps) : Sys2Proof.Laws.Encoding.Statement (.wtake h o) := ⟨_, _, _, rfl, by decide, by decide, rfl⟩
theorem Sys2Proof.Laws.Encoding.wpeek (h : Sched) (o : GOps) : Sys2Proof.Laws.Encoding.Statement (.wpeek h o) := ⟨_, _, _, rfl, by decide, by decide, rfl⟩
theorem Sys2Proof.Laws.Encoding.wclr (h : Sched) (o : GOps) : Sys2Proof.Laws.Encoding.Statement (.wclr h o) := ⟨_, _, _, rfl, by decide, by decide, rfl⟩
theorem Sys2Proof.Laws.Encoding.acp (h : Sched) (o : MOps) (m : ModAcp) : Sys2Proof.Laws.Encoding.Statement (.acp h o m) := ⟨_, _, _, rfl, by decide, by decide, rfl⟩
theorem Sys2Proof.Laws.Encoding.tld (h : Sched) (o : XOps) (m : ModTld) : Sys2Proof.Laws.Encoding.Statement (.tld h o m) := ⟨_, _, _, rfl, by decide, by decide, rfl⟩
theorem Sys2Proof.Laws.Encoding.tldSlide (h : Sched) (o : XOps) (m : ModTld) : Sys2Proof.Laws.Encoding.Statement (.tldSlide h o m) := ⟨_, _, _, rfl, by decide, by decide, rfl⟩
theorem Sys2Proof.Laws.Encoding.tst (h : Sched) (o : XOps) (m : ModTld) : Sys2Proof.Laws.Encoding.Statement (.tst h o m) := ⟨_, _, _, rfl, by decide, by decide, rfl⟩
theorem Sys2Proof.Laws.Encoding.stb (h : Sched) (o : MOps) (m : MSize) : Sys2Proof.Laws.Encoding.Statement (.stb h o m) := ⟨_, _, _, rfl, by decide, by decide, rfl⟩
theorem Sys2Proof.Laws.Encoding.tcfg (h : Sched) (o : XOps) (m : ModTcfg) : Sys2Proof.Laws.Encoding.Statement (.tcfg h o m) := ⟨_, _, _, rfl, by decide, by decide, rfl⟩
theorem Sys2Proof.Laws.Encoding.tzero (h : Sched) (o : XOps) : Sys2Proof.Laws.Encoding.Statement (.tzero h o) := ⟨_, _, _, rfl, by decide, by decide, rfl⟩
theorem Sys2Proof.Laws.Encoding.tmov (h : Sched) (o : XOps) (m : TmovMode) : Sys2Proof.Laws.Encoding.Statement (.tmov h o m) := ⟨_, _, _, rfl, by decide, by decide, rfl⟩
theorem Sys2Proof.Laws.Encoding.txp (h : Sched) (o : XOps) (m : TxpEsz) : Sys2Proof.Laws.Encoding.Statement (.txp h o m) := ⟨_, _, _, rfl, by decide, by decide, rfl⟩
theorem Sys2Proof.Laws.Encoding.mma (h : Sched) (o : XOps) (m : ModMma) : Sys2Proof.Laws.Encoding.Statement (.mma h o m) := ⟨_, _, _, rfl, by decide, by decide, rfl⟩
theorem Sys2Proof.Laws.Encoding.maccld (h : Sched) (o : XOps) (m : ModMaccld) : Sys2Proof.Laws.Encoding.Statement (.maccld h o m) := ⟨_, _, _, rfl, by decide, by decide, rfl⟩
theorem Sys2Proof.Laws.Encoding.mdrain (h : Sched) (o : XOps) (m : MdrainMode) : Sys2Proof.Laws.Encoding.Statement (.mdrain h o m) := ⟨_, _, _, rfl, by decide, by decide, rfl⟩
theorem Sys2Proof.Laws.Encoding.kind (h : Sched) (o : GOps) (m : ModKind) : Sys2Proof.Laws.Encoding.Statement (.kind h o m) := ⟨_, _, _, rfl, by decide, by decide, rfl⟩
theorem Sys2Proof.Laws.Encoding.kmask (h : Sched) (o : GOps) (m : ModKind) : Sys2Proof.Laws.Encoding.Statement (.kmask h o m) := ⟨_, _, _, rfl, by decide, by decide, rfl⟩
theorem Sys2Proof.Laws.Encoding.npost (h : Sched) (o : MOps) (m : ModNpost) : Sys2Proof.Laws.Encoding.Statement (.npost h o m) := ⟨_, _, _, rfl, by decide, by decide, rfl⟩
theorem Sys2Proof.Laws.Encoding.ntrig (h : Sched) (o : GOps) (set : Bool) : Sys2Proof.Laws.Encoding.Statement (.ntrig h o set) := ⟨_, _, _, rfl, by decide, by decide, rfl⟩
theorem Sys2Proof.Laws.Encoding.nwait (h : Sched) (o : GOps) : Sys2Proof.Laws.Encoding.Statement (.nwait h o) := ⟨_, _, _, rfl, by decide, by decide, rfl⟩
theorem Sys2Proof.Laws.Encoding.nrd (h : Sched) (o : GOps) : Sys2Proof.Laws.Encoding.Statement (.nrd h o) := ⟨_, _, _, rfl, by decide, by decide, rfl⟩
theorem Sys2Proof.Laws.Encoding.ncoll (h : Sched) (o : MOps) (hnd : Bool) : Sys2Proof.Laws.Encoding.Statement (.ncoll h o hnd) := ⟨_, _, _, rfl, by decide, by decide, rfl⟩
theorem Sys2Proof.Laws.Encoding.ncan (h : Sched) (o : GOps) : Sys2Proof.Laws.Encoding.Statement (.ncan h o) := ⟨_, _, _, rfl, by decide, by decide, rfl⟩
theorem Sys2Proof.Laws.Encoding.trap (h : Sched) (o : IOps) : Sys2Proof.Laws.Encoding.Statement (.trap h o) := ⟨_, _, _, rfl, by decide, by decide, rfl⟩
theorem Sys2Proof.Laws.Encoding.bkpt (h : Sched) (o : GOps) : Sys2Proof.Laws.Encoding.Statement (.bkpt h o) := ⟨_, _, _, rfl, by decide, by decide, rfl⟩
theorem Sys2Proof.Laws.Encoding.rdsys (h : Sched) (o : YOps) : Sys2Proof.Laws.Encoding.Statement (.rdsys h o) := ⟨_, _, _, rfl, by decide, by decide, rfl⟩
theorem Sys2Proof.Laws.Encoding.wrsys (h : Sched) (o : YOps) : Sys2Proof.Laws.Encoding.Statement (.wrsys h o) := ⟨_, _, _, rfl, by decide, by decide, rfl⟩
theorem Sys2Proof.Laws.Encoding.rdperf (h : Sched) (o : YOps) : Sys2Proof.Laws.Encoding.Statement (.rdperf h o) := ⟨_, _, _, rfl, by decide, by decide, rfl⟩
theorem Sys2Proof.Laws.Encoding.clock (h : Sched) (o : GOps) (ns : Bool) : Sys2Proof.Laws.Encoding.Statement (.clock h o ns) := ⟨_, _, _, rfl, by decide, by decide, rfl⟩
theorem Sys2Proof.Laws.Encoding.rolesw (h : Sched) (o : GOps) : Sys2Proof.Laws.Encoding.Statement (.rolesw h o) := ⟨_, _, _, rfl, by decide, by decide, rfl⟩
theorem Sys2Proof.Laws.Encoding.halt (h : Sched) (o : GOps) : Sys2Proof.Laws.Encoding.Statement (.halt h o) := ⟨_, _, _, rfl, by decide, by decide, rfl⟩
theorem Sys2Proof.Laws.Encoding.priorityFlowControl (prio : Nat) (pause : Bool) : Sys2Proof.Laws.Encoding.Statement (.priorityFlowControl prio pause) := rfl
theorem Sys2Proof.Laws.Encoding.retrainRequest (port : Nat) (rate : Nat) : Sys2Proof.Laws.Encoding.Statement (.retrainRequest port rate) := rfl
theorem Sys2Proof.Laws.Encoding.granuleZeroed (granule : Nat) : Sys2Proof.Laws.Encoding.Statement (.granuleZeroed granule) := rfl
theorem Sys2Proof.Laws.Encoding.blackout (die : Nat) : Sys2Proof.Laws.Encoding.Statement (.blackout die) := rfl
theorem Sys2Proof.Laws.Encoding.wearManagement (die : Nat) (pages : Nat) : Sys2Proof.Laws.Encoding.Statement (.wearManagement die pages) := rfl
theorem Sys2Proof.Laws.Encoding.heartbeatInterval (port : Nat) : Sys2Proof.Laws.Encoding.Statement (.heartbeatInterval port) := rfl
theorem Sys2Proof.Laws.Encoding.identify : Sys2Proof.Laws.Encoding.Statement .identify := rfl
theorem Sys2Proof.Laws.Encoding.attest : Sys2Proof.Laws.Encoding.Statement .attest := rfl
theorem Sys2Proof.Laws.Encoding.ping : Sys2Proof.Laws.Encoding.Statement .ping := rfl
theorem Sys2Proof.Laws.Encoding.galloc : Sys2Proof.Laws.Encoding.Statement .galloc := rfl
theorem Sys2Proof.Laws.Encoding.gload : Sys2Proof.Laws.Encoding.Statement .gload := rfl
theorem Sys2Proof.Laws.Encoding.gseal : Sys2Proof.Laws.Encoding.Statement .gseal := rfl
theorem Sys2Proof.Laws.Encoding.gfree : Sys2Proof.Laws.Encoding.Statement .gfree := rfl
theorem Sys2Proof.Laws.Encoding.grun : Sys2Proof.Laws.Encoding.Statement .grun := rfl
theorem Sys2Proof.Laws.Encoding.gcancel : Sys2Proof.Laws.Encoding.Statement .gcancel := rfl
theorem Sys2Proof.Laws.Encoding.evread : Sys2Proof.Laws.Encoding.Statement .evread := rfl
theorem Sys2Proof.Laws.Encoding.winset : Sys2Proof.Laws.Encoding.Statement .winset := rfl
theorem Sys2Proof.Laws.Encoding.htset : Sys2Proof.Laws.Encoding.Statement .htset := rfl
theorem Sys2Proof.Laws.Encoding.pcreate : Sys2Proof.Laws.Encoding.Statement .pcreate := rfl
theorem Sys2Proof.Laws.Encoding.pdestroy : Sys2Proof.Laws.Encoding.Statement .pdestroy := rfl
theorem Sys2Proof.Laws.Encoding.weight : Sys2Proof.Laws.Encoding.Statement .weight := rfl
theorem Sys2Proof.Laws.Encoding.gshare : Sys2Proof.Laws.Encoding.Statement .gshare := rfl
theorem Sys2Proof.Laws.Encoding.wdog : Sys2Proof.Laws.Encoding.Statement .wdog := rfl
theorem Sys2Proof.Laws.Encoding.coremap : Sys2Proof.Laws.Encoding.Statement .coremap := rfl
theorem Sys2Proof.Laws.Encoding.funcs : Sys2Proof.Laws.Encoding.Statement .funcs := rfl
theorem Sys2Proof.Laws.Encoding.asids : Sys2Proof.Laws.Encoding.Statement .asids := rfl
theorem Sys2Proof.Laws.Encoding.memGrant : Sys2Proof.Laws.Encoding.Statement .memGrant := rfl
theorem Sys2Proof.Laws.Encoding.memRelease : Sys2Proof.Laws.Encoding.Statement .memRelease := rfl
theorem Sys2Proof.Laws.Encoding.start : Sys2Proof.Laws.Encoding.Statement .start := rfl
theorem Sys2Proof.Laws.Encoding.suspend : Sys2Proof.Laws.Encoding.Statement .suspend := rfl
theorem Sys2Proof.Laws.Encoding.resume : Sys2Proof.Laws.Encoding.Statement .resume := rfl
theorem Sys2Proof.Laws.Encoding.retireExpose : Sys2Proof.Laws.Encoding.Statement .retireExpose := rfl
theorem Sys2Proof.Laws.Encoding.retireHide : Sys2Proof.Laws.Encoding.Statement .retireHide := rfl
theorem Sys2Proof.Laws.Encoding.ttagMap : Sys2Proof.Laws.Encoding.Statement .ttagMap := rfl
theorem Sys2Proof.Laws.Encoding.ttagUnmap : Sys2Proof.Laws.Encoding.Statement .ttagUnmap := rfl
theorem Sys2Proof.Laws.Encoding.fabricGrant : Sys2Proof.Laws.Encoding.Statement .fabricGrant := rfl
theorem Sys2Proof.Laws.Encoding.fabricRelease : Sys2Proof.Laws.Encoding.Statement .fabricRelease := rfl
theorem Sys2Proof.Laws.Encoding.accspill : Sys2Proof.Laws.Encoding.Statement .accspill := rfl
theorem Sys2Proof.Laws.Encoding.asroot : Sys2Proof.Laws.Encoding.Statement .asroot := rfl
theorem Sys2Proof.Laws.Encoding.tlbinv : Sys2Proof.Laws.Encoding.Statement .tlbinv := rfl
theorem Sys2Proof.Laws.Encoding.bwinCreate : Sys2Proof.Laws.Encoding.Statement .bwinCreate := rfl
theorem Sys2Proof.Laws.Encoding.bwinDestroy : Sys2Proof.Laws.Encoding.Statement .bwinDestroy := rfl
theorem Sys2Proof.Laws.Encoding.bwinSetWriter : Sys2Proof.Laws.Encoding.Statement .bwinSetWriter := rfl
theorem Sys2Proof.Laws.Encoding.priv : Sys2Proof.Laws.Encoding.Statement .priv := rfl
theorem Sys2Proof.Laws.Encoding.fassign : Sys2Proof.Laws.Encoding.Statement .fassign := rfl
theorem Sys2Proof.Laws.Encoding.keyset : Sys2Proof.Laws.Encoding.Statement .keyset := rfl
theorem Sys2Proof.Laws.Encoding.ykey : Sys2Proof.Laws.Encoding.Statement .ykey := rfl
theorem Sys2Proof.Laws.Encoding.fixed : Sys2Proof.Laws.Encoding.Statement .fixed := rfl
theorem Sys2Proof.Laws.Encoding.switched : Sys2Proof.Laws.Encoding.Statement .switched := rfl
theorem Sys2Proof.Laws.Encoding.enable : Sys2Proof.Laws.Encoding.Statement .enable := rfl
theorem Sys2Proof.Laws.Encoding.disable : Sys2Proof.Laws.Encoding.Statement .disable := rfl
theorem Sys2Proof.Laws.Encoding.peer : Sys2Proof.Laws.Encoding.Statement .peer := rfl
theorem Sys2Proof.Laws.Encoding.route : Sys2Proof.Laws.Encoding.Statement .route := rfl
theorem Sys2Proof.Laws.Encoding.routeClear : Sys2Proof.Laws.Encoding.Statement .routeClear := rfl
theorem Sys2Proof.Laws.Encoding.read : Sys2Proof.Laws.Encoding.Statement .read := rfl
theorem Sys2Proof.Laws.Encoding.yquiesce : Sys2Proof.Laws.Encoding.Statement .yquiesce := rfl
theorem Sys2Proof.Laws.Encoding.yresume : Sys2Proof.Laws.Encoding.Statement .yresume := rfl
theorem Sys2Proof.Laws.Encoding.treealloc : Sys2Proof.Laws.Encoding.Statement .treealloc := rfl
theorem Sys2Proof.Laws.Encoding.treefree : Sys2Proof.Laws.Encoding.Statement .treefree := rfl
theorem Sys2Proof.Laws.Encoding.fwstage : Sys2Proof.Laws.Encoding.Statement .fwstage := rfl
theorem Sys2Proof.Laws.Encoding.telread : Sys2Proof.Laws.Encoding.Statement .telread := rfl
theorem Sys2Proof.Laws.Encoding.telwrite : Sys2Proof.Laws.Encoding.Statement .telwrite := rfl
theorem Sys2Proof.Laws.Encoding.diagResume : Sys2Proof.Laws.Encoding.Statement .diagResume := rfl
theorem Sys2Proof.Laws.Encoding.diagContinue : Sys2Proof.Laws.Encoding.Statement .diagContinue := rfl
theorem Sys2Proof.Laws.Encoding.discard : Sys2Proof.Laws.Encoding.Statement .discard := rfl
theorem Sys2Proof.Laws.Encoding.diagread : Sys2Proof.Laws.Encoding.Statement .diagread := rfl
theorem Sys2Proof.Laws.Encoding.pfreeze : Sys2Proof.Laws.Encoding.Statement .pfreeze := rfl
theorem Sys2Proof.Laws.Encoding.pthaw : Sys2Proof.Laws.Encoding.Statement .pthaw := rfl
theorem Sys2Proof.Laws.Encoding.dumpread : Sys2Proof.Laws.Encoding.Statement .dumpread := rfl
theorem Sys2Proof.Laws.Encoding.badop : Sys2Proof.Laws.Encoding.Statement .badop := rfl
theorem Sys2Proof.Laws.Encoding.creqRds : Sys2Proof.Laws.Encoding.Statement .creqRds := rfl
theorem Sys2Proof.Laws.Encoding.creqRdx : Sys2Proof.Laws.Encoding.Statement .creqRdx := rfl
theorem Sys2Proof.Laws.Encoding.creqRdc : Sys2Proof.Laws.Encoding.Statement .creqRdc := rfl
theorem Sys2Proof.Laws.Encoding.creqUpg : Sys2Proof.Laws.Encoding.Statement .creqUpg := rfl
theorem Sys2Proof.Laws.Encoding.creqWbm : Sys2Proof.Laws.Encoding.Statement .creqWbm := rfl
theorem Sys2Proof.Laws.Encoding.creqWrs : Sys2Proof.Laws.Encoding.Statement .creqWrs := rfl
theorem Sys2Proof.Laws.Encoding.crspCmps : Sys2Proof.Laws.Encoding.Statement .crspCmps := rfl
theorem Sys2Proof.Laws.Encoding.crspCmpe : Sys2Proof.Laws.Encoding.Statement .crspCmpe := rfl
theorem Sys2Proof.Laws.Encoding.crspCmp : Sys2Proof.Laws.Encoding.Statement .crspCmp := rfl
theorem Sys2Proof.Laws.Encoding.cdatData : Sys2Proof.Laws.Encoding.Statement .cdatData := rfl
theorem Sys2Proof.Laws.Encoding.binv : Sys2Proof.Laws.Encoding.Statement .binv := rfl
theorem Sys2Proof.Laws.Encoding.bshr : Sys2Proof.Laws.Encoding.Statement .bshr := rfl
theorem Sys2Proof.Laws.Encoding.backi : Sys2Proof.Laws.Encoding.Statement .backi := rfl
theorem Sys2Proof.Laws.Encoding.backs : Sys2Proof.Laws.Encoding.Statement .backs := rfl
theorem Sys2Proof.Laws.Encoding.nreqPut : Sys2Proof.Laws.Encoding.Statement .nreqPut := rfl
theorem Sys2Proof.Laws.Encoding.nreqGet : Sys2Proof.Laws.Encoding.Statement .nreqGet := rfl
theorem Sys2Proof.Laws.Encoding.nreqAtom : Sys2Proof.Laws.Encoding.Statement .nreqAtom := rfl
theorem Sys2Proof.Laws.Encoding.nreqAccp : Sys2Proof.Laws.Encoding.Statement .nreqAccp := rfl
theorem Sys2Proof.Laws.Encoding.nreqCadd : Sys2Proof.Laws.Encoding.Statement .nreqCadd := rfl
theorem Sys2Proof.Laws.Encoding.nrspAck : Sys2Proof.Laws.Encoding.Statement .nrspAck := rfl
theorem Sys2Proof.Laws.Encoding.nrspGdata : Sys2Proof.Laws.Encoding.Statement .nrspGdata := rfl
theorem Sys2Proof.Laws.Encoding.nrspArsp : Sys2Proof.Laws.Encoding.Statement .nrspArsp := rfl
theorem Sys2Proof.Laws.Encoding.nrspNerr : Sys2Proof.Laws.Encoding.Statement .nrspNerr := rfl
theorem Sys2Proof.Laws.Encoding.drainCommit : Sys2Proof.Laws.Encoding.Statement .drainCommit := rfl
theorem Sys2Proof.Laws.Encoding.ethernetLinkDown : Sys2Proof.Laws.Encoding.Statement .ethernetLinkDown := rfl
theorem Sys2Proof.Laws.Encoding.ethernetLinkUp : Sys2Proof.Laws.Encoding.Statement .ethernetLinkUp := rfl
theorem Sys2Proof.Laws.Encoding.sessionTree : Sys2Proof.Laws.Encoding.Statement .sessionTree := rfl
theorem Sys2Proof.Laws.Encoding.powerRemoved : Sys2Proof.Laws.Encoding.Statement .powerRemoved := rfl
end

