-- ==== Sys2Proof/Tests/Slice0.lean ====
section
/-! SUPPORT. The model's own tests: ill-formed terms that WellFormed refuses, words written out from the manual's encodings, and for
each statement of Obligations a state and operands that meet its hypotheses, with what the manual gives for them. -/

namespace Sys2Proof.Tests

set_option Elab.async false

open Sys2Proof Sys2Proof.Machine

/-! ### Syntax -/

/-- A word without scheduling: P7, no waits, no flag (R354). -/
def h0 : Sched := ⟨false, 7, false, 0, 0, none, false⟩
/-- The same with NWB. -/
def hNwb : Sched := ⟨false, 7, false, 0, 0, none, true⟩
/-- The same with a completion flag. -/
def hFlag (n : Fin 12) : Sched := ⟨false, 7, false, 0, 0, some n, false⟩
/-- A plain source. -/
def r (x : Operand) : Src := ⟨x, .none⟩
/-- The unused source field. -/
def z : Src := Src.zero
/-- G-form operands. -/
def g (d : Operand) (a : Src := z) (b : Src := z) (c : Src := z) : GOps := ⟨d, a, b, c⟩
/-- M-form operands. -/
def mo (d : Operand) (a : Src) (b : Src := z) (off : BitVec 14 := 0) : MOps := ⟨d, a, b, off⟩
/-- X-form operands. -/
def xo (d : Operand) (a : Src := z) (b : Src := z) (c : Src := z) (fsa fsb : Fin 8 := 0) : XOps := ⟨d, a, b, c, fsa, fsb⟩
/-- The unused destination field. -/
def v0 : Operand := .v 0
/-- Layout F without options. -/
def mF (t : FType) : ModF := ⟨t, .rne, false, false, false, false⟩
/-- Layout M without options. -/
def mM (z : MSize) : ModM := ⟨z, false, .none, .lane⟩

/-! ### WellFormed refuses an ill-formed term for each check (R345, R352 to R356) -/

/-- None of the terms is well formed. -/
def refused (is : List Instr) : Bool := is.all fun i => !i.wellFormed

/-- Value operands and destinations: an odd pair, a permutation on S, a V, A, LANEID, latch or window source in class U, a 64-bit
window source, a predicate, tile or barrier as a value, an unused field that is not zero, a destination that no G-form takes. -/
theorem test_wf_values : refused
    [.iadd h0 (g (.v 1) (r (.v 2)) (r (.v 4))) ⟨.i64, false⟩, .iadd h0 (g (.v 2) (r (.v 3)) (r (.v 4))) ⟨.i64, false⟩,
     .iadd h0 (g (.v 1) ⟨.s 2, .mir⟩ (r (.v 4))) ⟨.i32, false⟩, .iadd h0 (g (.s 1) (r (.v 2)) (r (.s 4))) ⟨.i32, false⟩,
     .iadd h0 (g (.s 1) (r (.a 2)) (r (.s 4))) ⟨.i32, false⟩, .iadd h0 (g (.s 1) (r (.sp .laneId)) (r (.s 4))) ⟨.i32, false⟩,
     .iadd h0 (g (.s 1) (r (.l 2)) (r (.s 4))) ⟨.i32, false⟩, .iadd h0 (g (.s 1) (r (.w 2)) (r (.s 4))) ⟨.i32, false⟩,
     .iadd h0 (g (.v 2) (r (.w 2)) (r (.s 4))) ⟨.i64, false⟩, .iadd h0 (g (.v 1) (r (.p 2)) (r (.s 4))) ⟨.i32, false⟩,
     .iadd h0 (g (.v 1) (r (.t 2)) (r (.s 4))) ⟨.i32, false⟩, .iadd h0 (g (.v 1) (r (.v 2)) (r (.v 4)) (r (.v 5))) ⟨.i32, false⟩,
     .iabs h0 (g (.v 1) (r (.v 2)) (r (.v 4))) ⟨.i32, false⟩, .iadd h0 (g (.p 1) (r (.v 2)) (r (.v 4))) ⟨.i32, false⟩,
     .iadd h0 (g (.w 1) (r (.v 2)) (r (.v 4))) ⟨.i32, false⟩, .iadd h0 (g (.a 1) (r (.s 2)) (r (.s 4))) ⟨.i32, false⟩,
     .iadd h0 (g (.l 1) (r (.v 2)) (r (.v 4))) ⟨.i32, false⟩, .iadd h0 (g (.imm 1) (r (.v 2)) (r (.v 4))) ⟨.i32, false⟩] = true := by
  decide

/-- MOD combinations: SAT where none is defined, PK on FP32 and on FDIV, modes on FMIN, FP64 approximations, FCLASS with SAT, ICMP
with ORD, COMB without a predicate and a predicate without COMB, VOTE.D beside ANY, LRED.F32.XOR, and a rounding mode on MIN. -/
theorem test_wf_modifiers : refused
    [.and h0 (g (.v 1) (r (.v 2)) (r (.v 3))) ⟨.i32, true⟩, .fadd h0 (g (.v 1) (r (.v 2)) (r (.v 3))) ⟨.f32, .rne, false, false, false, true⟩,
     .fdiv h0 (g (.v 1) (r (.v 2)) (r (.v 3))) ⟨.f16, .rne, false, false, false, true⟩,
     .fmin h0 (g (.v 1) (r (.v 2)) (r (.v 3))) ⟨.f32, .rtz, false, false, false, false⟩, .fexp2 h0 (g (.v 2) (r (.v 4))) (mF .f64),
     .fclass h0 (g (.v 1) (r (.v 2))) ⟨.f32, .rne, true, false, false, false⟩,
     .frnd h0 (g (.v 1) (r (.v 2))) ⟨.f32, .rne, false, false, true, false⟩,
     .icmp h0 (g (.p 1) (r (.v 2)) (r (.v 3))) ⟨.i32, .ord, .none⟩, .icmp h0 (g (.p 1) (r (.v 2)) (r (.v 3))) ⟨.i32, .eq, .and⟩,
     .icmp h0 (g (.p 1) (r (.v 2)) (r (.v 3)) (r (.p 1))) ⟨.i32, .eq, .none⟩, .icmp h0 (g (.p 7) (r (.v 2)) (r (.v 3))) ⟨.i32, .eq, .none⟩,
     .vote h0 (g (.p 1) (r (.p 2))) ⟨.any, true⟩, .vote h0 (g (.p 1) (r (.p 2))) ⟨.ballot, false⟩,
     .lred h0 (g (.s 1) (r (.v 2))) ⟨.f32, .xor, false, .rne⟩, .lred h0 (g (.s 1) (r (.v 2))) ⟨.i32, .min, false, .rtz⟩,
     .lred h0 (g (.v 1) (r (.v 2))) ⟨.i32, .min, false, .rne⟩, .movi h0 ⟨.v 1, z, 5⟩ .sx, .pset h0 (g (.p 1) (r (.v 2))) ⟨true, false⟩,
     .plog h0 (g (.p 1) (r (.p 2)) (r (.p 3))) .not, .cvtNarrow h0 (g (.v 1) (r (.v 2)) (r (.imm 9))) ⟨.f32, .i32, .rne, false⟩,
     .cvtNarrow h0 (g (.v 1) (r (.v 2)) (r (.imm 1))) ⟨.i32, .i32, .rne, false⟩, .qnt h0 (g (.v 1) (r (.v 2)) (r (.v 5))) ⟨0, .f32, .rne, false, false⟩,
     .lperm h0 (g (.v 1) ⟨.v 2, .mir⟩ (r (.v 3))) false, .aadd h0 (g (.a 1) (r (.s 2)) (r (.a 3))), .aset h0 ⟨.v 1, r (.s 2), 4⟩] = true := by
  decide

/-- Control, memory and synchronisation: BOFF slots 5 to 7, a V base that is no pair, unaligned quads and CAS registers, SX on words,
REL on loads and ACQ on stores, a scope without a qualifier, S data of 16 bytes, ENT out of range, KIND 0 of QFENCE, a barrier that is
none, WPUT of a window register, EXIT with an operand. -/
theorem test_wf_memory : refused
    [.bra h0 ⟨.v 0, 5⟩, .bra h0 ⟨.v 2, 0⟩, .call h0 ⟨.v 3, 0⟩, .brx h0 (g v0 (r (.v 3))), .exit h0 (g (.v 1)), .waypt h0 ⟨.v 0, r (.v 1), 0⟩,
     .ld h0 (mo (.v 1) (r (.v 3))) (mM .w), .ld h0 (mo (.v 2) (r (.v 4))) (mM .q), .ld h0 (mo (.v 2) (r (.v 4))) ⟨.w, true, .none, .lane⟩,
     .ld h0 (mo (.v 2) (r (.v 4))) ⟨.w, false, .rel, .pkg⟩, .ld h0 (mo (.v 2) (r (.v 4))) ⟨.w, false, .none, .pkg⟩,
     .ld h0 (mo (.v 2) (r (.v 4)) (r (.v 6))) (mM .w), .st h0 (mo v0 (r (.v 4)) (r (.v 6))) ⟨.w, false, .acq, .pkg⟩,
     .st h0 (mo v0 (r (.v 4)) (r (.s 6))) (mM .q), .st h0 (mo v0 (r (.v 4)) (r (.w 6))) (mM .d), .st h0 (mo (.v 1) (r (.v 4)) (r (.v 6))) (mM .w),
     .lds h0 (mo (.s 2) (r (.v 4))) (mM .w), .lds h0 (mo (.s 2) (r (.s 4))) (mM .q), .ldL h0 (mo (.v 2) (r (.v 3))) ⟨.w, false, .acq, .core⟩,
     .cpf h0 (mo v0 (r (.v 4))) ⟨.w, true, .none, .lane⟩, .atom h0 (mo (.v 1) (r (.v 4)) (r (.v 7))) ⟨.cas, false, false, false⟩,
     .atom h0 (mo (.v 1) (r (.v 4)) (r (.imm 7))) ⟨.cas, false, false, false⟩, .atom h0 (mo (.v 1) (r (.v 4)) (r (.v 7))) ⟨.add, false, true, false⟩,
     .atom h0 (mo (.v 1) (r (.v 4)) (r (.v 7))) ⟨.add, false, false, true⟩, .facc h0 (mo v0 (r (.v 4)) (r (.v 7))) ⟨.f64, false⟩,
     .faccrd h0 (mo (.v 1) (r (.s 4))) ⟨.f64, 7⟩, .faccrd h0 (mo (.v 1) (r (.s 4))) ⟨.f32, 1⟩, .faccclr h0 (mo v0 (r (.v 4)) (r (.v 7))) .f32,
     .fence h0 (g (.v 1)) ⟨.full, .sys⟩, .qfence h0 (g v0) 0, .barInit h0 (g v0 (r (.v 1)) (r (.imm 4))), .barArv h0 (g v0 (r (.s 1))) .core,
     .fbar h0 (g v0 (r (.b 1))) 3, .wput h0 (g (.w 1) (r (.w 2))), .wtake h0 (g (.v 1) (r (.v 2))), .wclr h0 (g v0 ⟨.w 2, .mir⟩),
     .acp h0 (mo v0 (r (.v 3)) (r (.v 2))) ⟨.w, false, false, none⟩, .stb h0 (mo v0 (r (.v 4)) (r (.v 3))) .d] = true := by
  decide

/-- Tiles, matrix, network, system: a tile that is none, SLIDE with an odd descriptor pair, FM on TST, KT beside T, FB where no
format stands, odd pairs of accumulators, a slot beside F32, NPOST.REG with an address, a negative NTRIG value, a system register that
does not exist; NWB where no register has a fixed-latency result; an event. -/
theorem test_wf_engines : refused
    [.tld h0 (xo (.v 1) (r (.s 1)) (r (.s 2))) ⟨false, false⟩, .tldSlide h0 (xo (.t 1) (r (.s 1)) (r (.s 3))) ⟨false, false⟩,
     .tst h0 (xo (.t 1) (r (.s 1)) (r (.s 2))) ⟨true, false⟩, .tcfg h0 (xo (.t 1) (r (.s 1))) ⟨true, false, true⟩,
     .tcfg h0 (xo (.t 1) (r (.s 1))) ⟨false, true, false⟩, .tzero h0 (xo (.t 1) (r (.t 2))), .tmov h0 (xo (.t 1) (r (.v 1))) .tt,
     .tmov h0 (xo (.t 1) ⟨.v 1, .mir⟩ (r (.s 1))) .tv, .txp h0 (xo (.t 1) (r (.t 2)) z z 2 0) .b, .mma h0 (xo (.acc 1) (r (.t 1)) (r (.v 2))) ⟨false, false, false⟩,
     .maccld h0 (xo (.acc 1) (r (.s 1)) (r (.s 2))) ⟨.f64, false⟩, .maccld h0 (xo (.acc 0)) ⟨.zero, true⟩,
     .mdrain h0 (xo v0 (r (.s 1)) (r (.s 126)) (r (.acc 0))) .f32, .mdrain h0 (xo v0 (r (.s 1)) (r (.s 2)) (r (.acc 1))) .f64,
     .mdrain h0 (xo v0 (r (.s 1)) (r (.s 2)) (r (.acc 1)) 1 0) .f32, .kind h0 (g (.v 1) (r (.s 2)) (r (.s 4))) ⟨1, false⟩,
     .kmask h0 (g (.p 1) z (r (.s 4)) (r (.w 3))) ⟨1, true⟩, .npost h0 (mo (.s 1) (r (.s 2)) (r (.v 3))) ⟨false, true⟩,
     .ntrig h0 (g v0 (r (.c 1)) (r (.imm 0x80))) false, .nwait h0 (g (.v 1) (r (.c 1)) (r (.imm 1))), .nrd h0 (g (.v 1) (r (.c 1))),
     .ncoll h0 (mo (.s 1) (r (.v 2))) false, .ncan h0 (g (.s 1) (r (.imm 0xFF))), .trap h0 ⟨.v 1, z, 0⟩, .bkpt h0 (g (.v 1)),
     .rdsys h0 ⟨.s 1, z, 5⟩, .rdsys h0 ⟨.v 1, z, 1⟩, .wrsys h0 ⟨.v 0, r (.s 1), 1⟩, .rdperf h0 ⟨.s 1, z, 8⟩, .clock h0 (g (.v 1)) false,
     .rolesw h0 (g v0 (r (.v 2))), .halt h0 (g (.s 1)), .nop hNwb (g v0), .ld hNwb (mo (.v 1) (r (.v 2))) (mM .w),
     .fdiv hNwb (g (.v 1) (r (.v 2)) (r (.v 3))) (mF .f32), .lantern 0xFF] = true := by
  decide

/-- The word decodes to the instruction. -/
def decodesTo (w : Nat) (i : Instr) : Bool :=
  match decodeWord w with
  | .ok j => decide (j = i)
  | .error _ => false
/-- The word is refused with the error. -/
def refusedWith (w : Nat) (e : DecodeError) : Bool :=
  match decodeWord w with
  | .ok _ => false
  | .error x => decide (x = e)

/-- Encodings that the manual reserves are refused by name: an unassigned opcode, SETF 13, an operand and a permutation, TYPE 4. -/
theorem test_decode_reserved :
    refusedWith 0 (.unassignedOpcode 0) && refusedWith (0x001 * 2 ^ 86 + 13 * 2 ^ 62) .reservedSetf &&
    refusedWith (0x001 * 2 ^ 86 + 516 * 2 ^ 41) .reservedOperand && refusedWith (0x001 * 2 ^ 86 + 15 * 2 ^ 37) .reservedPermutation &&
    refusedWith (0x001 * 2 ^ 86 + 4 * 2 ^ 6) .reservedMod = true := by
  decide +kernel

/-! ### Words written out field by field (R343, R344, R348, R363) -/

/-- R355 layout N: TYPE [8:6], SAT [5]. -/
theorem test_decode_iadd_sat : decodesTo
    0b0000000001_0_010_1_000000000000_000_0000_0_0000000110_0000000111_0000_1111111110_0000_0000000000_0000_000100000
    (.iadd ⟨false, 2, true, 0, 0, none, false⟩ ⟨.v 6, r (.v 7), r (.imm 0xFE), z⟩ ⟨.i32, true⟩) = true := by decide +kernel
/-- R363: 0x010 to 0x019. -/
theorem test_decode_ror_u64 : decodesTo
    0b0000011001_0_111_0_000000000000_000_0000_1_0000001000_0000001010_0000_0100000011_0000_0000000000_0000_011000000
    (.ror ⟨false, 7, false, 0, 0, none, true⟩ ⟨.v 8, r (.v 10), r (.s 3), z⟩ ⟨.ui64, false⟩) = true := by decide +kernel
/-- R353. -/
theorem test_decode_bfi : decodesTo
    0b0000100101_0_111_0_000000000000_111_0000_0_0000000001_0000000010_1001_0000000011_1101_0000000100_1110_001000000
    (.bfi ⟨false, 7, false, 0, 7, none, false⟩ ⟨.v 1, ⟨.v 2, .mir⟩, ⟨.v 3, .bc15⟩, ⟨.v 4, .rev4⟩⟩ ⟨.ui32, false⟩) = true := by decide +kernel
/-- R350. -/
theorem test_decode_mov_latch : decodesTo
    0b0001001000_0_111_0_000000000000_000_0000_0_0000001001_1000000011_0000_0000000000_0000_0000000000_0000_000000000
    (.mov h0 ⟨.v 9, r (.l 3), z, z⟩ false) = true := by decide +kernel
/-- R375: MOD5 [4:3]. -/
theorem test_decode_movi_hi : decodesTo
    0b0001001001_0_111_0_000000000000_000_0000_0_0101111111_0000000000_0000_10000000000000000000000000000001_10000
    (.movi h0 ⟨.s 127, z, 0x80000001⟩ .hi) = true := by decide +kernel
/-- R376. -/
theorem test_decode_rdsp_cfeat : decodesTo
    0b0001001010_0_111_0_000000000000_000_0000_0_0100000000_0000000000_0000_0000000000_0000_0000000000_0000_000001100
    (.rdsp h0 ⟨.s 0, z, z, z⟩ .cfeat) = true := by decide +kernel
/-- R378. -/
theorem test_decode_vote_uni : decodesTo
    0b0001010001_0_111_0_000000000000_000_0000_0_1000001000_0000011110_0000_0000000000_0000_0000000000_0000_000000111
    (.vote h0 ⟨.p 0, r (.v 30), z, z⟩ ⟨.uni, true⟩) = true := by decide +kernel
/-- R379: TYPE [8:6], OP [5:3], EXCL [2]. -/
theorem test_decode_iscan : decodesTo
    0b0001010010_0_111_0_000000000000_000_0000_0_0000000000_0000000001_0000_0000000000_0000_0000000000_0000_001010100
    (.iscan h0 ⟨.v 0, r (.v 1), z, z⟩ ⟨.ui32, .max, true⟩) = true := by decide +kernel
/-- R380. -/
theorem test_decode_lred_f32 : decodesTo
    0b0001010011_0_111_0_000000000000_000_0000_0_0100000101_0000000011_0000_0000000000_0000_0000000000_0000_100000011
    (.lred h0 ⟨.s 5, r (.v 3), z, z⟩ ⟨.f32, .add, false, .rup⟩) = true := by decide +kernel
/-- R349, R381. -/
theorem test_decode_aset : decodesTo
    0b0001011000_0_111_0_000000000000_000_0000_0_0110001111_0110010111_0000_11111111111111111111111111111100_00000
    (.aset h0 ⟨.a 15, r (.sp .clockLo), 0xFFFFFFFC⟩) = true := by decide +kernel
/-- R381. -/
theorem test_decode_aexp_d : decodesTo
    0b0001011100_0_111_0_000000000000_000_0000_0_0011111110_0110000001_0000_0000000000_0000_0000000000_0000_000000001
    (.aexp h0 ⟨.v 254, r (.a 1), z, z⟩ true) = true := by decide +kernel
/-- R393. -/
theorem test_decode_pset_mask : decodesTo
    0b0001100000_0_111_0_000000000000_000_0000_0_1000001001_0110011000_0000_0000000000_0000_0000000000_0000_000000001
    (.pset h0 ⟨.p 1, r (.sp .liveMask), z, z⟩ ⟨true, false⟩) = true := by decide +kernel
/-- R355 layout F. -/
theorem test_decode_fdiv_f64 : decodesTo
    0b0010000110_0_111_0_000000000000_000_1100_0_0000000010_0000000100_0000_0000000110_0000_0000000000_0000_001100110
    (.fdiv ⟨false, 7, false, 0, 0, some 11, false⟩ ⟨.v 2, r (.v 4), r (.v 6), z⟩ ⟨.f64, .rdn, false, true, true, false⟩) = true := by decide +kernel
/-- R382: MOD [0] is PK. -/
theorem test_decode_fmul_pk : decodesTo
    0b0010000010_0_111_0_000000000000_000_0000_0_0000000010_0000000100_0000_0000000110_0000_0000000000_0000_011001001
    (.fmul h0 ⟨.v 2, r (.v 4), r (.v 6), z⟩ ⟨.bf16, .rne, true, false, false, true⟩) = true := by decide +kernel
/-- R389. -/
theorem test_decode_cvt : decodesTo
    0b0010100000_0_111_0_000000000000_000_0000_0_0000000011_0000000100_0000_0000000000_0000_0000000000_0000_110100011
    (.cvt h0 ⟨.v 3, r (.v 4), z, z⟩ ⟨.f16, .f32, .rtz, true⟩) = true := by decide +kernel
/-- R390. -/
theorem test_decode_cvt_narrow : decodesTo
    0b0010100000_0_111_0_000000000000_000_0000_0_0000000011_0000000100_0000_1100001000_0000_0000000101_0000_100000000
    (.cvtNarrow h0 ⟨.v 3, r (.v 4), r (.imm 8), r (.v 5)⟩ ⟨.f32, .i32, .rne, false⟩) = true := by decide +kernel
/-- R346: BOFF [2:0] = 1. -/
theorem test_decode_bra_back : decodesTo
    0b0011000000_0_000_0_000000000000_000_0000_0_0000000000_111111111111111111111111111111111111110001_000000000
    (.bra ⟨false, 0, false, 0, 0, none, false⟩ ⟨.v 0, BitVec.ofInt 42 (-15)⟩) = true := by decide +kernel
/-- R397. -/
theorem test_decode_waypt : decodesTo
    0b0011000110_0_111_0_000000000000_000_0000_0_0000000000_0000000000_0000_00000001000000100000001100000100_00000
    (.waypt h0 ⟨.v 0, z, 0x01020304⟩) = true := by decide +kernel
/-- R355 layout M. -/
theorem test_decode_lds : decodesTo
    0b0100000010_0_111_0_000000000000_000_0000_0_0100000100_0100000110_0000_0000000000_0000_11111111111111_011001101
    (.lds h0 ⟨.s 4, r (.s 6), z, BitVec.ofInt 14 (-1)⟩ ⟨.d, false, .acq, .pod⟩) = true := by decide +kernel
/-- R406. -/
theorem test_decode_atom_cas : decodesTo
    0b0100010000_0_111_0_000000000000_000_0001_0_0000000001_0000000010_0000_0000000100_0000_01111111111111_100000000
    (.atom ⟨false, 7, false, 0, 0, some 0, false⟩ ⟨.v 1, r (.v 2), r (.v 4), 0x1FFF⟩ ⟨.cas, false, false, false⟩) = true := by decide +kernel
/-- R410. -/
theorem test_decode_faccrd : decodesTo
    0b0101000001_0_111_0_000000000000_000_0000_0_0000000001_0100000010_0000_0000000000_0000_00000000000000_011110000
    (.faccrd h0 ⟨.v 1, r (.s 2), z, 0⟩ ⟨.f64, 6⟩) = true := by decide +kernel
/-- R412. -/
theorem test_decode_fence : decodesTo
    0b0101001000_0_111_0_000000000000_000_0000_0_0000000000_0000000000_0000_0000000000_0000_0000000000_0000_000011110
    (.fence h0 ⟨.v 0, z, z, z⟩ ⟨.full, .sys⟩) = true := by decide +kernel
/-- R350, R419. -/
theorem test_decode_wtake : decodesTo
    0b0101011001_0_111_0_000000000000_000_0000_0_0000000001_1001111111_1000_0000000000_0000_0000000000_0000_000000000
    (.wtake h0 ⟨.v 1, ⟨.w 63, .rot8⟩, z, z⟩) = true := by decide +kernel
/-- R421. -/
theorem test_decode_acp : decodesTo
    0b0101100000_0_111_0_000000000000_000_0000_0_0000000000_0000000110_0000_0000000010_0001_00000000000011_100111111
    (.acp h0 ⟨.v 0, r (.v 6), ⟨.v 2, .bfly1⟩, 3⟩ ⟨.q, false, true, some 15⟩) = true := by decide +kernel
/-- R425. -/
theorem test_decode_stb : decodesTo
    0b0101101000_0_111_0_000000000000_000_0000_0_0000000000_0000000110_0000_0000001000_0000_00000000000000_100000000
    (.stb h0 ⟨.v 0, r (.v 6), r (.v 8), 0⟩ .q) = true := by decide +kernel
/-- R430. -/
theorem test_decode_tcfg : decodesTo
    0b0110000000_0_111_0_000000000000_000_0000_0_1000011111_0100000001_0000_0000000000_0000_0000000000_0000_000_000_001
    (.tcfg h0 ⟨.t 15, r (.s 1), z, z, 0, 0⟩ ⟨true, false, false⟩) = true := by decide +kernel
/-- R437. -/
theorem test_decode_maccld : decodesTo
    0b0110001001_0_111_0_000000000000_000_0000_0_1000100010_0100000001_0000_0100000010_0000_1010111111_0000_000_000_110
    (.maccld h0 ⟨.acc 2, r (.s 1), r (.s 2), r (.c 63), 0, 0⟩ ⟨.f64, true⟩) = true := by decide +kernel
/-- R438. -/
theorem test_decode_mdrain : decodesTo
    0b0110001010_0_111_0_000000000000_000_0000_0_1000110000_0100000001_0000_0101111101_0000_1000100011_0000_111_000_010
    (.mdrain h0 ⟨.b 0, r (.s 1), r (.s 125), r (.acc 3), 7, 0⟩ .q) = true := by decide +kernel
/-- R441. -/
theorem test_decode_kind : decodesTo
    0b0110010000_0_111_0_000000000000_000_0000_0_0000000001_0000000000_0000_0110000010_0000_0000000000_0000_111100000
    (.kind h0 ⟨.v 1, z, r (.a 2), z⟩ ⟨7, true⟩) = true := by decide +kernel
/-- R444. -/
theorem test_decode_npost_reg : decodesTo
    0b0111000000_0_111_0_000000000000_000_0000_0_0100000001_0000000000_0000_0000001001_0000_00000000000000_000000011
    (.npost h0 ⟨.s 1, z, r (.v 9), 0⟩ ⟨true, true⟩) = true := by decide +kernel
/-- R445. -/
theorem test_decode_ntrig_set : decodesTo
    0b0111000001_0_111_0_000000000000_000_0000_0_0000000000_1010000000_0000_1101111111_0000_0000000000_0000_000000001
    (.ntrig h0 ⟨.v 0, r (.c 0), r (.imm 127), z⟩ true) = true := by decide +kernel
/-- R450. -/
theorem test_decode_trap : decodesTo
    0b0111010000_0_111_0_000000000000_000_0000_0_0000000000_0000000000_0000_11111111111111111111111111111111_00000
    (.trap h0 ⟨.v 0, z, 0xFFFFFFFF⟩) = true := by decide +kernel
/-- R451. -/
theorem test_decode_rdsys : decodesTo
    0b0111010010_0_111_0_000000000000_000_0000_0_0100000011_0000000000_0000_00000000010001_00000000000000000000000
    (.rdsys h0 ⟨.s 3, z, 0x11⟩) = true := by decide +kernel
/-- R373. -/
theorem test_decode_fcmp : decodesTo
    0b0001000001_0_111_0_000000000000_000_0000_0_1000001110_0000000010_0000_0000000100_0000_1000001101_0000_010101101
    (.fcmp h0 ⟨.p 6, r (.v 2), r (.v 4), r (.p 5)⟩ ⟨.f16, .ge, .or, true⟩) = true := by decide +kernel

/-! ### A machine in which one fibre stands before a word -/

/-- A fetch line of up to five words, each a TARGET, with no PAIR (R339 to R342). -/
def line (ws : List Nat) : List Byte :=
  let body := (List.range 5).flatMap fun k => leBytes 12 (ws.getD k 0)
  let par := (List.range 5).foldl (fun x k => if parity (ws.getD k 0) 96 then x + 2 ^ (16 + k) else x) (31 * 2 ^ 27)
  body ++ leBytes 4 (crc16 body + par)

/-- The word of `WAYPT 4, 3, 2, 1` (R397). -/
def wayptWord : Nat := 0x0C6 * 2 ^ 86 + 7 * 2 ^ 82 + 0x01020304 * 2 ^ 5
/-- Its live-in counts. -/
def live1 : LiveIn := ⟨4, 3, 2, 1⟩

/-- Words under P1, and under P2. -/
def hP1 : Sched := ⟨false, 1, false, 0, 0, none, false⟩
def hP2 : Sched := ⟨false, 2, false, 0, 0, none, false⟩

/-- The address of the word, in PC form (R394). -/
def pc0 : Nat := 0x200000

/-- A fibre with all lanes live: V1 holds 16 addresses of a page, V2:V3 and V4:V5 64-bit addresses, S1 an address, S2 a number, S5 an
instruction address, S12 to S14 a tile descriptor, A0 a sequence of addresses, P1 the lower lanes, P2 lanes 0 and 15. -/
def fibA : Fibre :=
  { st := .current, pc := List.replicate 16 pc0, restart := pc0, atEntry := false, issueIx := 1
    v := (List.range 16).map (fun l => (16 + l, BitVec.ofNat 32 (64 * l + 64))) ++
      (List.range 16).map (fun l => (32 + l, BitVec.ofNat 32 (0x300000 + 16 * l)))
    s := [(1, 0x300000), (2, 5), (3, 0x380000), (4, 0x400000), (5, 0x200001), (6, 0x600000),
          (12, 0x0040000400000040), (13, 0x0010000001000000), (14, 0)]
    a := [(0, ⟨0x300000, 8⟩), (1, ⟨0x400000, 8⟩), (2, ⟨0x600000, 8⟩)]
    p := [(1, 0x00FF), (2, 0x8001)]
    latches := [(0, { valid := true, ready := 0, vals := List.replicate 16 3 })] }

/-- A second fibre of the slot. -/
def fibB : Fibre := { st := .waiting, pc := List.replicate 16 pc0, restart := pc0 }

/-- A workgroup of two fibres in one slot on core 0. -/
def wgA (fa fb : Fibre) : Workgroup :=
  { launch := { roles := [{ vregs := 31, wreg := 64, count := 2, rparam := 9 }, { entry := 8, vregs := 8, wreg := 1, rparam := 11 }]
                slots := 1, localBytes := 4096, tiles := 16, accs := 4, nctr := 64, codeBase := pc0, gx := 1, gy := 1, gz := 1
                fmts := [{ fmt := 0x06 }, { fmt := 0x01, bsz := true }, { fmt := 0x08 }] }
    slots := [(0, { fibres := [(0, fa), (1, fb)], count := 2, current := some 0, tags := [(5, true)], win := [(80, 7)] })] }

/-- The focus: all lanes of fibre 0. -/
def f0 : Focus := ⟨0, 0, 0, 0xFFFF, pc0⟩

/-- The module with that workgroup: granule 1 is partition 0's, and die 0's TLB holds its page, the page of broadcast window 0 and the
page of die 0's trigger windows. -/
def stW (w : Workgroup) (ws : List Nat := [0, wayptWord]) : State :=
  { focus := some f0, nextId := 10
    base := { ready := true }
    parts := [(0, { st := .active, asidCount := 1, cores := [(0, false)], codeImage := Memory.write [] pc0 (line ws), eventFn := some 0 })]
    owner := [(1, 1)]
    tlb := [⟨0, 0, 1, 21, ⟨.global, 0x200000, true, true, true, true⟩⟩, ⟨0, 0, 2, 21, ⟨.broadcast, 0, true, true, true, true⟩⟩,
            ⟨0, 0, 3, 21, ⟨.device, 0xF000000000, true, true, true, true⟩⟩]
    bwins := [(0, some ⟨0, 0, 4, 1, [0, 1]⟩)]
    ctrBlocks := [(0, 1)]
    wgs := [(0, some w)] }

/-- The same with the two fibres. -/
def st (fa : Fibre := fibA) (fb : Fibre := fibB) : State := stW (wgA fa fb)

/-! ### Hypotheses of an issue, decided -/

/-- `State.wordReady`, decided. -/
def readyB (s : State) (f : Focus) (h : Sched) (u : Uses) : Bool :=
  decide (s.focus = some f) && decide ((issueCtx s f h).act ≠ 0) && decide ((issueCtx s f h).check u = .ok)

theorem ready {s : State} {f : Focus} {h : Sched} {u : Uses} (e : readyB s f h u = true) : s.wordReady f h u := by
  simp only [readyB, Bool.and_eq_true, decide_eq_true_eq] at e
  exact ⟨e.1, e.2⟩

theorem allReady {α : Type} {xs : List α} {s : State} {f : Focus} {h : Sched} {u : α → Uses}
    (e : xs.all (fun x => readyB s f h (u x)) = true) : ∀ x ∈ xs, s.wordReady f h (u x) :=
  fun x hx => ready (List.all_eq_true.1 e x hx)

/-- `State.issues`, decided. -/
theorem issues {s : State} {f : Focus} {h : Sched}
    (e : (decide (s.focus = some f) && decide ((issueCtx s f h).act ≠ 0)) = true) : s.issues f h := by
  simpa [State.issues] using e

/-- `State.closeReady`, decided. -/
def closeB (s : State) (f : Focus) (h : Sched) (u : Uses) (l : LiveIn) : Bool :=
  decide (s.focus = some f) && decide ((issueCtx s f h).act ≠ 0) && decide ((issueCtx s f h).checkNames u = .ok) &&
  decide (Guard.all u.reads (issueCtx s f h).readable = .ok) && decide (f.lanes = (s.fibOf f).live) &&
  match fetchWord s (s.wg f.wg) (nextPc f.pc) with
  | .word w _ => decide (wordOpcode w = 0x0C6) && decide (LiveIn.ofImm (field w 5 32) = l)
  | _ => false

theorem close {s : State} {f : Focus} {h : Sched} {u : Uses} {l : LiveIn} (e : closeB s f h u l = true) : s.closeReady f h u l := by
  simp only [closeB, Bool.and_eq_true, decide_eq_true_eq] at e
  refine ⟨e.1.1.1.1, e.1.1.1.2, e.1.1.2, e.1.2, ?_⟩
  revert e
  cases fetchWord s (s.wg f.wg) (nextPc f.pc) <;> simp

/-- The outcome is a next state of which `p` holds. -/
def gives (s : State) (i : Instr) (p : State → Bool) : Bool :=
  match exec i s with
  | .next t => p t
  | _ => false

/-! ### The integer, compare, move, lane, affine and predicate instructions -/

theorem witness_IntegerArithmeticResult : ∀ x ∈ integerArithmetic h0 (g (.v 247) (r (.v 1)) (r (.imm 0x80)) (r (.l 0))) ⟨.i32, true⟩,
    st.wordReady f0 h0 (usesOf (g (.v 247) (r (.v 1)) (r (.imm 0x80)) (r (.l 0))) x.2.1 false false) := allReady (by decide +kernel)
theorem witness_IntegerArithmeticResult_64 : ∀ x ∈ integerArithmetic h0 (g (.s 127) (r (.s 1)) (r (.s 2)) (r (.s 3))) ⟨.ui64, false⟩,
    st.wordReady f0 h0 (usesOf (g (.s 127) (r (.s 1)) (r (.s 2)) (r (.s 3))) x.2.1 true true) := allReady (by decide +kernel)
theorem witness_IntegerLogicAndBitResult :
    (∀ x ∈ integerLogic 64 h0 (g (.v 246) (r (.a 0)) (r (.v 2))) ⟨.i64, false⟩,
      st.wordReady f0 h0 (usesOf (g (.v 246) (r (.a 0)) (r (.v 2))) x.2.1 true true)) ∧
    (∀ x ∈ integerFields 32 h0 (g (.v 6) (r (.v 1)) ⟨.v 2, .rot8⟩ (r (.sp .laneId))) ⟨.i32, false⟩,
      st.wordReady f0 h0 (usesOf (g (.v 6) (r (.v 1)) ⟨.v 2, .rot8⟩ (r (.sp .laneId))) x.2.1 false false)) ∧
    ∀ x ∈ integerCounts 64 h0 (g (.s 6) (r (.s 1))) ⟨.ui64, false⟩, st.wordReady f0 h0 (usesOf (g (.s 6) (r (.s 1))) 1 true true) := by
  refine ⟨allReady ?_, allReady ?_, allReady ?_⟩ <;> decide +kernel
theorem witness_CompareSelectMoveResult :
    st.wordReady f0 h0 (usesOf (g (.p 6) (r (.v 1)) (r (.s 2)) (r (.p 1))) 2 false true) ∧
    st.wordReady f0 h0 (usesOf (g (.v 6) (r (.v 1)) (r (.imm 0x7F))) 2 false false) ∧
    st.wordReady f0 h0 (usesOf (g (.v 6) (r (.v 2)) (r (.a 0)) (r (.p 1))) 2 true true) ∧
    st.wordReady f0 h0 (usesOf (g (.s 6) (r (.l 0))) 1 false false) ∧ st.wordReady f0 h0 { writes := [(.v 6, 2)] } ∧
    st.wordReady f0 h0 { writes := [(.s 6, 1)] } := by
  refine ⟨ready ?_, ready ?_, ready ?_, ready ?_, ready ?_,
    ready ?_⟩ <;> decide +kernel
theorem witness_LaneOperationResult :
    st.wordReady f0 h0 { ops := [(.v 1, 1), (.imm 0xFF, 1)], reads := [r (.v 1), r (.imm 0xFF)], writes := [(.v 6, 1)] } ∧
    st.wordReady f0 h0 (usesOf (g (.p 0) (r (.p 7))) 1 false false) ∧ st.wordReady f0 h0 (usesOf (g (.v 6) (r (.v 2))) 1 true true) ∧
    st.wordReady f0 h0 (usesOf (g (.s 6) (r (.v 1))) 1 false false) := by
  refine ⟨ready ?_, ready ?_, ready ?_, ready ?_⟩ <;> decide +kernel
theorem witness_AffineRegisterResult :
    st.wordReady f0 h0 { ops := [(.s 1, 2)], reads := [r (.s 1)], writes := [(.a 15, 1)] } ∧ st.wordReady f0 h0 { writes := [(.a 0, 1)] } ∧
    st.wordReady f0 h0 { ops := [(.imm 0xFF, 2)], reads := [r (.imm 0xFF)], writes := [(.a 1, 1)] } ∧
    st.wordReady f0 h0 { writes := [(.v 246, 2)] } := by
  refine ⟨ready ?_, ready ?_, ready ?_, ready ?_⟩ <;> decide +kernel
theorem witness_PredicateResult :
    st.wordReady f0 h0 (usesOf (g (.p 0) (r (.sp .liveMask))) 1 false false) ∧ st.wordReady f0 h0 (usesOf (g (.p 6) (r (.v 2))) 1 false true) ∧
    st.wordReady f0 h0 { writes := [(.p 6, 1)] } := by
  refine ⟨ready ?_, ready ?_, ready ?_⟩ <;> decide +kernel

/-- IADD wraps and saturates (R370): -128 + 64 in lane 0; with SAT the UI32 difference 64 - 5 000 stops at 0. -/
theorem test_iadd : gives st (.iadd h0 (g (.v 6) (r (.v 1)) (r (.imm 0x80))) ⟨.i32, false⟩) (fun t =>
    (t.fibOf f0).vAt 6 0 == 0xFFFFFFC0 && (t.fibOf f0).vAt 6 15 == 896 && (t.fibOf f0).pcAt 15 == pc0 + 1 && (t.fibOf f0).vAt 1 0 == 64) = true := by
  decide +kernel
theorem test_isub_sat : gives st (.isub h0 (g (.s 9) (r (.s 2)) (r (.s 1))) ⟨.ui64, true⟩) (fun t => (t.fibOf f0).sAt 9 == 0) = true := by
  decide +kernel
/-- Shift counts are taken mod n (R371): 33 mod 32 is 1. -/
theorem test_shl_count : gives st (.shl h0 (g (.v 6) (r (.v 1)) (r (.imm 33))) ⟨.i32, false⟩) (fun t => (t.fibOf f0).vAt 6 1 == 256) = true := by
  decide +kernel
/-- R375: MOVI.HI keeps the low half. -/
theorem test_movi_hi : gives st (.movi h0 ⟨.s 2, z, 1⟩ .hi) (fun t => (t.fibOf f0).sAt 2 == 0x0000000100000005) = true := by decide +kernel
/-- R353, R375: MOV with MIR reverses the lanes. -/
theorem test_mov_mirror : gives st (.mov h0 (g (.v 6) ⟨.v 1, .mir⟩) false) (fun t =>
    (t.fibOf f0).vAt 6 0 == 1024 && (t.fibOf f0).vAt 6 15 == 64) = true := by decide +kernel
/-- R381: A0 read by lane 3 is base + 3 * stride; ASCL scales both. -/
theorem test_ascl : gives st (.ascl h0 ⟨.a 1, r (.a 0), 4⟩) (fun t => decide ((t.fibOf f0).aAt 1 = ⟨0xC00000, 32⟩)) = true := by decide +kernel
/-- R354, R378: under P1 the ballot of P7 is the eight lower lanes. -/
theorem test_ballot : gives st (.vote ⟨false, 1, false, 0, 0, none, false⟩ (g (.s 9) (r (.p 7))) ⟨.ballot, false⟩) (fun t =>
    (t.fibOf f0).sAt 9 == 0xFF) = true := by decide +kernel
/-- R212, R354: under NWB the register stands and the latch that the issue index names holds the result. -/
theorem test_nwb_latch : gives st (.iadd hNwb (g (.v 1) (r (.v 1)) (r (.imm 1))) ⟨.i32, false⟩) (fun t =>
    (t.fibOf f0).vAt 1 0 == 64 && (Tab.get {} (t.fibOf f0).latches 1).vals.head? == some 65) = true := by decide +kernel

/-! ### Floating point and conversions -/

theorem witness_FloatingPointResult :
    (∀ x ∈ floatArithmetic h0 (g (.v 6) (r (.v 1)) (r (.imm 0x38)) (r (.s 2))) (mF .f32),
      st.wordReady f0 h0 (usesOf (g (.v 6) (r (.v 1)) (r (.imm 0x38)) (r (.s 2))) x.2.1 false false)) ∧
    st.wordReady f0 h0 (usesOf (g (.v 246) (r (.v 2)) (r (.v 4))) 2 true true) ∧ st.wordReady f0 h0 (usesOf (g (.s 6) (r (.s 2))) 1 false true) := by
  refine ⟨allReady ?_, ready ?_, ready ?_⟩ <;> decide +kernel
theorem witness_DivisionFixedAtIssue : ∀ x ∈ floatDivision h0 (g (.v 6) (r (.v 2)) (r (.v 4))) (mF .f64),
    st.wordReady f0 h0 (usesOf (g (.v 6) (r (.v 2)) (r (.v 4))) x.2.1 true true) := allReady (by decide +kernel)
theorem witness_ConversionResult :
    st.wordReady f0 h0 (usesOf (g (.v 6) (r (.v 1))) 1 true false) ∧
    (narrowSlot ((st.wg 0).fmtSlot 1) = some .e4m3 ∧ ((st.wg 0).fmtSlot 1).dith = false ∧ ((st.wg 0).fmtSlot 1).bsz = true ∧
      (∀ l ∈ activeLanes st f0 h0, (narrowCode ((st.wg 0).fmtSlot 1) .e4m3 ((issueCtx st f0 h0).rd 0 (.int 32) (r (.v 1)) l)).isSome = true) ∧
      st.wordReady f0 h0 { ops := [(.v 1, 1), (.imm 127, 1)], reads := [r (.v 1), r (.imm 127)], writes := [(.v 6, 1)] }) ∧
    (narrowSlot ((st.wg 0).fmtSlot 2) = some .tern ∧ ((st.wg 0).fmtSlot 2).bsz = false ∧
      (∀ l ∈ activeLanes st f0 h0, (narrowCode ((st.wg 0).fmtSlot 2) .tern ((issueCtx st f0 h0).rd 0 (.int 32) (r (.v 1)) l)).isSome = true) ∧
      st.wordReady f0 h0 { ops := [(.v 1, 2), (.a 0, 2)], reads := [r (.v 1), r (.a 0)], writes := [(.v 6, 1)] } ∧
      st.wordReady f0 h0 { ops := [(.v 1, 1), (.a 0, 2)], reads := [r (.v 1), r (.a 0)], writes := [(.v 6, 2)] }) := by
  refine ⟨ready ?_, ⟨?_, ?_, ?_, ?_, ready ?_⟩,
    ?_, ?_, ?_, ready ?_, ready ?_⟩ <;> decide +kernel

/-- 1.0 + 1.0 is 2.0, and E4M3 immediates read as their values (R351, R383); FDIV leaves the register until it performs (R385). -/
theorem test_fadd : gives st (.fadd h0 (g (.s 9) (r (.imm 0x38)) (r (.imm 0x38))) (mF .f32)) (fun t => (t.fibOf f0).sAt 9 == 0x40000000) = true := by
  decide +kernel
theorem test_fdiv_pipe : gives st (.fdiv (hFlag 3) (g (.s 9) (r (.imm 0x38)) (r (.imm 0x40))) (mF .f32)) (fun t =>
    (t.fibOf f0).sAt 9 == 0 && (t.fibOf f0).flagAt 3 == 1 && t.pipe.map (fun o => o.accs.map (·.val)) == [[0x3F000000]]) = true := by decide +kernel
/-- R306, R383: an exact zero divisor sets a bit when the result is written, not at issue. -/
theorem test_frcp_zero : gives st (.frcp h0 (g (.s 9) (r (.imm 0))) (mF .f32)) (fun t =>
    (t.fibOf f0).sAt 9 == 0x7F800000 && (t.fibOf f0).fpstat == 0 && (t.fibOf f0).status.length == 1) = true := by decide +kernel

/-! ### Control flow -/

/-- A landing that is legal, decided. -/
def landsB (s : State) (f : Focus) (h : Sched) (ind : Bool) (t : Nat → Int) : Bool :=
  (activeLanes s f h).all fun l => match (issueCtx s f h).landing ind l (t l) with | .ok => true | _ => false

theorem lands {s : State} {f : Focus} {h : Sched} {ind : Bool} {t : Nat → Int} (e : landsB s f h ind t = true) :
    ∀ l ∈ activeLanes s f h, (issueCtx s f h).landing ind l (t l) = .ok := by
  intro l hl
  have := List.all_eq_true.1 e l hl
  revert this
  cases (issueCtx s f h).landing ind l (t l) <;> simp

theorem witness_BranchAndCallEffect :
    st.issues f0 hP2 ∧ (∀ l ∈ activeLanes st f0 hP2, (issueCtx st f0 hP2).landing false l (branchTarget f0.pc 4) = .ok) ∧
    st.wordReady f0 hP2 { ops := [(.s 5, 2)], reads := [r (.s 5)] } ∧
    (∀ l ∈ activeLanes st f0 hP2, (issueCtx st f0 hP2).landing true l ((issueCtx st f0 hP2).rd 0 (.int 64) (r (.s 5)) l : Nat) = .ok) ∧
    st.wordReady f0 hP2 { writes := [(.s 9, 2)] } ∧ st.wordReady f0 hP2 { ops := [(.s 5, 2)], reads := [r (.s 5)], writes := [(.v 6, 2)] } := by
  refine ⟨issues ?_, lands ?_, ready ?_, lands ?_, ready ?_,
    ready ?_⟩ <;> decide +kernel

theorem witness_ExitAndWaypointEffect :
    st.issues f0 h0 ∧ st.inPlace f0 ∧ st.issues f0 hP1 ∧ (st.fibOf f0).live &&& ~~~(issueCtx st f0 hP1).act = 0xFF00 ∧
    (st.fibOf f0).live &&& ~~~(issueCtx st f0 h0).act = 0 ∧ (∀ op ∈ st.pipe, op.wg ≠ 0) ∧ (st.fib 0 0 1).st = .waiting ∧
    ((st fibA { fibB with st := .exited }).fib 0 0 1).st = .exited ∧ (st.wg 0).launch.slots = 1 ∧ (st.slot 0 0).count = 2 ∧
    f0.lanes = (st.fibOf f0).live ∧ 248 ≤ 8 * ((st.wg 0).role 0).vregs ∧ 64 ≤ ((st.wg 0).role 0).wreg ∧ 16 ≤ (st.wg 0).launch.tiles := by
  refine ⟨issues (by decide +kernel), ⟨?_, ?_, ?_, ?_⟩, issues (by decide +kernel),
    ?_, ?_, ?_, ?_, ?_, ?_, ?_,
    ?_, ?_, ?_, ?_⟩ <;> decide +kernel

/-- R346: 4 eighths of a line on is slot 4 of the same line; R394: the word after slot 4 is slot 0 of the next line. -/
theorem test_bra : gives st (.bra hP2 ⟨v0, 4⟩) (fun t => (t.fibOf f0).pcAt 15 == pc0 + 4 && (t.fibOf f0).pcAt 8 == pc0 + 1) = true := by decide +kernel
theorem test_call_link : gives st (.call hP2 ⟨.s 9, 4⟩) (fun t => (t.fibOf f0).sAt 9 == 0x200001 && (t.fibOf f0).pcAt 0 == pc0 + 4) = true := by
  decide +kernel
/-- R219: the last lane of the last fibre ends the workgroup. -/
theorem test_exit_last : gives (st fibA { fibB with st := .exited }) (.exit h0 (g v0)) (fun t => (Tab.get none t.wgs 0).isNone) = true := by
  decide +kernel
theorem test_exit_some : gives st (.exit hP1 (g v0)) (fun t => (t.fibOf f0).live == 0xFF00 && (t.fibOf f0).pcAt 8 == pc0 + 1) = true := by
  decide +kernel
/-- R397, R451: WAYPT sets the restart point and the live-in counts. -/
theorem test_waypt : gives st (.waypt h0 ⟨v0, z, 0x104080F8⟩) (fun t =>
    decide ((t.fibOf f0).livein = ⟨248, 128, 64, 16⟩) && (t.fibOf f0).restart == pc0) = true := by decide +kernel

/-! ### Memory instructions -/

/-- `EachLane`, decided. -/
def eachB (s : State) (f : Focus) (h : Sched) (a : Access) (addr : Nat → Nat) (acc : Nat → LaneAcc) : Bool :=
  (activeLanes s f h).all fun l =>
    (!a.align || addr l % a.size == 0) &&
    match (issueCtx s f h).lanePlace a l (addr l) with
    | .acc x => decide (x = acc l)
    | _ => false

theorem placedAt {s : State} {f : Focus} {h : Sched} {a : Access} {l x : Nat} {y : LaneAcc}
    (e : (match (issueCtx s f h).lanePlace a l x with | .acc z => decide (z = y) | _ => false) = true) :
    (issueCtx s f h).lanePlace a l x = .acc y := by
  revert e
  cases (issueCtx s f h).lanePlace a l x <;> simp

theorem each {s : State} {f : Focus} {h : Sched} {a : Access} {addr : Nat → Nat} {acc : Nat → LaneAcc} (e : eachB s f h a addr acc = true) :
    EachLane s f h a addr acc := by
  intro l hl
  have := List.all_eq_true.1 e l hl
  rw [Bool.and_eq_true] at this
  refine ⟨?_, placedAt this.2⟩
  intro ha
  simpa [ha] using this.1

/-- An access at an address of a space that is mapped to itself from a base on. -/
def accAt (sp : Space) (base : Nat) (addr : Nat → Nat) (l : Nat) : LaneAcc :=
  { lane := l, va := addr l, space := sp, pa := base + addr l % 2 ^ 21 }

/-- An address of lane `l` in the fixture's state. -/
def ad (o : MOps) (e l : Nat) : Nat := (issueCtx st f0 hP2).addrOf o e false l
/-- A base of 64 bits per lane, and a uniform one. -/
def oV : MOps := mo (.v 8) (r (.v 2)) z 1
def oS : MOps := mo (.s 9) (r (.s 1)) z 2
/-- Stores at the same base; at the trigger windows; at the broadcast window. -/
def oSt : MOps := mo v0 (r (.v 2)) (r (.v 4))
def oWin : MOps := mo v0 (r (.a 2)) (r (.s 2))
def oStb : MOps := mo v0 (r (.a 1)) (r (.v 4))
/-- A local access. -/
def oL : MOps := mo (.v 8) (r (.v 1)) (r (.v 4))

theorem witness_MemoryOperationEntersPipe_load :
    (st.wordReady f0 hP2 (memUses oV false none (some 4)) ∧
      EachLane st f0 hP2 ⟨{ rd := true }, 16, true, false, reachLoad⟩ (ad oV 16) (accAt .global 0x200000 (ad oV 16))) ∧
    (st.wordReady f0 hP2 (memUses oS false none (some 1)) ∧ ad oS 8 (issueCtx st f0 hP2).lane0 % 8 = 0 ∧
      (issueCtx st f0 hP2).lanePlace ⟨{ rd := true }, 8, true, false, reachLoad⟩ (issueCtx st f0 hP2).lane0 (ad oS 8 (issueCtx st f0 hP2).lane0) =
        .acc (accAt .global 0x200000 (ad oS 8) 0)) ∧
    (st.wordReady f0 hP2 (memUses oL true none (some 2)) ∧ EachLocal st f0 hP2 8 (fun l => (issueCtx st f0 hP2).addrOf oL 8 true l)) ∧
    (st.wordReady f0 hP2 (memUses oV false none none) ∧
      EachLane st f0 hP2 ⟨{ rd := true }, 4, false, true, reachPrefetch⟩ (ad oV 4) (accAt .global 0x200000 (ad oV 4)) ∧
      EachLane st f0 hP2 ⟨{ rd := true }, 4, false, false, reachClean⟩ (ad oV 4) (accAt .global 0x200000 (ad oV 4))) := by
  refine ⟨⟨ready ?_, each ?_⟩, ⟨ready ?_, ?_, placedAt ?_⟩,
    ⟨ready ?_, by unfold EachLocal; decide +kernel⟩,
    ready ?_, each ?_, each ?_⟩ <;> decide +kernel

theorem witness_MemoryOperationEntersPipe_store :
    (st.wordReady f0 hP2 (memUses oSt false (some 2) none) ∧
      EachLane st f0 hP2 ⟨{ w := true }, 8, true, false, reachStore⟩ (ad oSt 8) (accAt .global 0x200000 (ad oSt 8)) ∧
      hitsWindow ((activeLanes st f0 hP2).map (accAt .global 0x200000 (ad oSt 8))) = false) ∧
    (st.wordReady f0 hP2 (memUses oWin false (some 2) none) ∧ st.closeReady f0 hP2 {} live1 ∧
      EachLane st f0 hP2 ⟨{ w := true }, 8, true, false, reachStore⟩ (ad oWin 8) (accAt .device 0xF000000000 (ad oWin 8)) ∧
      hitsWindow ((activeLanes st f0 hP2).map (accAt .device 0xF000000000 (ad oWin 8))) = true) ∧
    (st.wordReady f0 hP2 (memUses oL true (some 2) none) ∧ EachLocal st f0 hP2 8 (fun l => (issueCtx st f0 hP2).addrOf oL 8 true l)) := by
  refine ⟨⟨ready ?_, each ?_, ?_⟩,
    ⟨ready ?_, close ?_, each ?_, ?_⟩,
    ready ?_, by unfold EachLocal; decide +kernel⟩ <;> decide +kernel

theorem witness_AtomicAndAccumulateEnterPipe :
    let whole : Need := { rd := true, w := true, a := true }
    let accS (e : Nat) (l : Nat) : LaneAcc := accAt .global 0x200000 (ad oSt e) l
    (st.closeReady f0 hP2 (memUses oSt false (some (atomRegs ⟨.cas, true, false, true⟩)) none) live1 ∧
      EachLane st f0 hP2 ⟨whole, 8, true, false, reachAtomic⟩ (ad oSt 8) (accS 8)) ∧
    (st.closeReady f0 hP2 (memUses oL true (some (atomRegs ⟨.min, false, true, false⟩)) (some 1)) live1 ∧
      EachLocal st f0 hP2 4 (fun l => (issueCtx st f0 hP2).addrOf oL 4 true l)) ∧
    (st.closeReady f0 hP2 (memUses oSt false (some 1) none) live1 ∧ EachLane st f0 hP2 ⟨whole, 4, true, false, reachAtomic⟩ (ad oSt 4) (accS 4)) ∧
    (st.wordReady f0 hP2 (memUses oV false none (some 1)) ∧
      EachLane st f0 hP2 ⟨{ rd := true }, 4, true, false, reachAtomic⟩ (ad oV 4) (accAt .global 0x200000 (ad oV 4))) ∧
    (st.closeReady f0 hP2 (memUses oSt false none none) live1 ∧ EachLane st f0 hP2 ⟨whole, 2, true, false, reachAtomic⟩ (ad oSt 2) (accS 2)) ∧
    (st.closeReady f0 hP2 (memUses oStb false (some 2) none) live1 ∧
      EachLane st f0 hP2 ⟨{ w := true }, 8, true, false, reachStb⟩ (ad oStb 8) (accAt .broadcast 0 (ad oStb 8)) ∧
      (∀ k ∈ activeLanes st f0 hP2, ∃ b, Tab.get none st.bwins ((accAt .broadcast 0 (ad oStb 8) k).pa / 2 ^ 40) = some b ∧ b.writer = (st.wg 0).die) ∧
      st.stbSectors (st.wg 0).die none + (accSectors ((activeLanes st f0 hP2).map (accAt .broadcast 0 (ad oStb 8)))).length ≤ 256) := by
  refine ⟨⟨close ?_, each ?_⟩, ⟨close ?_, by unfold EachLocal; decide +kernel⟩,
    ⟨close ?_, each ?_⟩, ⟨ready ?_, each ?_⟩,
    ⟨close ?_, each ?_⟩,
    close ?_, each ?_, fun k hk => ⟨⟨0, 0, 4, 1, [0, 1]⟩, by revert k; decide +kernel, ?_⟩,
    ?_⟩ <;> decide +kernel

/-- R400, R403: the store's data is captured at issue, and memory does not change. -/
theorem test_st : gives st (.st (hFlag 2) oSt (mM .d)) (fun t =>
    t.mem == [] && t.pipe.map (fun o => (o.accs.map (·.pa)).take 2) == [[0x300000, 0x300010]] && (t.fibOf f0).flagAt 2 == 1) = true := by
  decide +kernel
/-- R223, R347: OFF counts elements; a store to a trigger window closes its region. -/
theorem test_ld_offset : gives st (.ld h0 oV (mM .q)) (fun t => (t.pipe.map (fun o => (o.accs.map (·.pa)).head?)) == [some 0x300010]) = true := by
  decide +kernel
theorem test_st_window : gives st (.st h0 oWin (mM .d)) (fun t => t.pipe.map (·.closing) == [some live1]) = true := by decide +kernel

/-! ### Barriers and window registers -/

/-- The fixture with one barrier. -/
def stBar (b : Bar) (fa : Fibre := fibA) (fb : Fibre := fibB) : State := stW { wgA fa fb with bars := [(15, b)] }

theorem witness_FenceAndBarrierEffect :
    st.issues f0 h0 ∧ (stBar { expected := 2, arrived := 1 }).wordReady f0 h0 { ops := [(.s 2, 1)], reads := [r (.s 2)] } ∧
    ((stBar { expected := 2, arrived := 1 }).wg 0).bar 15 = { expected := 2, arrived := 1 } ∧
    ((issueCtx st f0 h0).rd 1 (.int 32) (r (.s 2)) 0 % 4096 = 5 ∧ ((st.wg 0).bar 15).expected = 0) ∧ st.closeReady f0 h0 {} live1 ∧
    (((stBar { phase := true }).wg 0).bar 15).phase ≠ ((stBar { phase := true }).fibOf f0).recPhase.getLsbD 15 ∧
    ((st.wg 0).bar 15).phase = (st.fibOf f0).recPhase.getLsbD 15 ∧ (st.slot 0 0).current = some 0 := by
  refine ⟨issues ?_, ready ?_, ?_, ?_, close ?_, ?_,
    ?_, ?_⟩ <;> decide +kernel

theorem inPlaceOf {s : State} {f : Focus} (e : decide (f.slot < (s.wg f.wg).launch.slots ∧ f.fib < (s.slot f.wg f.slot).count ∧
    (s.fibOf f).st = .current ∧ (s.slot f.wg f.slot).current = some f.fib) = true) : s.inPlace f := by
  have h := of_decide_eq_true e
  exact h

/-- An arrival that has not completed, and one that has. -/
def arrived (m : BitVec 4) (done : Bool) : Option Arrival := some ⟨m, done, live1⟩

theorem witness_BarrierWaitEffect :
    ((stBar { expected := 1 }).issues f0 h0 ∧ (stBar { expected := 1 }).inPlace f0 ∧ (stBar { expected := 1 }).closeReady f0 h0 {} live1 ∧
      (arrivedBar { expected := 1 }).phase ≠ false) ∧
    (st.inPlace f0 ∧ (st.fibOf f0).arrival = none ∧ (arrivedBar ((st.wg 0).bar 15)).phase = ((st.wg 0).bar 15).phase) ∧
    (let s := stBar { phase := true } { fibA with arrival := arrived 0 false }
     (s.fibOf f0).arrival = some ⟨0, false, live1⟩ ∧ s.inPlace f0 ∧ ((s.wg 0).bar 15).phase ≠ (s.fibOf f0).recPhase.getLsbD 15) ∧
    (let s := st fibA { fibB with arrival := arrived 3 false }
     (∀ k, k < 4 → (3#4).getLsbD k = true → k < (s.slot 0 0).count ∧ (k ≠ 0 → (s.fib 0 0 k).waitsAt 3 = true)) ∧ s.closeReady f0 h0 {} live1) ∧
    ((st.fib 0 0 1).waitsAt 3 = false ∧ st.closeReady f0 h0 {} live1) ∧
    (let s := st { fibA with arrival := arrived 3 true }
     s.issues f0 h0 ∧ s.inPlace f0 ∧ (s.fibOf f0).arrival = some ⟨3, true, live1⟩) := by
  refine ⟨⟨issues ?_, inPlaceOf ?_, close ?_, ?_⟩,
    ⟨inPlaceOf ?_, ?_, ?_⟩,
    ⟨?_, inPlaceOf ?_, ?_⟩, ⟨?_, close ?_⟩,
    ⟨?_, close ?_⟩, issues ?_, inPlaceOf ?_, ?_⟩ <;> decide +kernel

theorem witness_WindowRegisterEffect :
    (st.closeReady f0 h0 { ops := [(.w 63, 1), (.v 1, 1)], reads := [r (.v 1)] } live1 ∧ (st.slot 0 0).full 63 = false) ∧
    st.closeReady f0 h0 { ops := [(.w 5, 1)], reads := [⟨.w 5, .mir⟩], writes := [(.v 8, 1)] } live1 ∧
    st.wordReady f0 h0 (usesOf (g (.s 9) ⟨.w 5, .bc15⟩) 1 false false) ∧ st.closeReady f0 h0 { ops := [(.w 5, 1)] } live1 := by
  refine ⟨⟨close ?_, ?_⟩, close ?_, ready ?_, close ?_⟩ <;> decide +kernel

/-- R414, R416: the second of two arrivals completes the phase; the first blocks its fibre. -/
theorem test_bar_sync_last : gives (stBar { expected := 2, arrived := 1 }) (.barSync h0 (g v0 (r (.b 15))) .core) (fun t =>
    decide ((t.wg 0).bar 15 = { expected := 2, arrived := 0, phase := true }) && (t.fibOf f0).st == .current && (t.fibOf f0).restart == pc0 + 1) = true := by
  decide +kernel
theorem test_bar_sync_first : gives (stBar { expected := 2 }) (.barSync h0 (g v0 (r (.b 15))) .core) (fun t =>
    (t.fibOf f0).st == .blocked && ((t.wg 0).bar 15).arrived == 1 && (t.fibOf f0).pcAt 0 == pc0) = true := by decide +kernel
/-- R415: a count of 0 stands for 4,096. -/
theorem test_bar_init : gives st (.barInit h0 (g v0 (r (.b 3)) (r (.imm 0)))) (fun t => ((t.wg 0).bar 3).expected == 4096) = true := by decide +kernel
/-- R216, R217, R419: WTAKE empties, WPUT into a full register waits for the other fibre, WTAKE of an empty one too. -/
theorem test_wtake : gives st (.wtake h0 (g (.s 9) (r (.w 5)))) (fun t => !(t.slot 0 0).full 5 && (t.fibOf f0).sAt 9 == 7) = true := by decide +kernel
theorem test_wput_full : gives st (.wput h0 (g (.w 5) (r (.v 1)))) (fun t => (t.fibOf f0).st == .blocked && (t.slot 0 0).wAt 5 0 == 7) = true := by
  decide +kernel

/-! ### Engines: commands at issue -/

/-- The fixture with an MMA in the next word: `MMA ACC1, T2, T3` of two INT8 slots. -/
def mmaOps : XOps := xo (.acc 1) (r (.t 2)) (r (.t 3))
def stMma : State := stW (wgA fibA fibB) [0, 0x188 * 2 ^ 86 + 7 * 2 ^ 82 + 545 * 2 ^ 51 + 530 * 2 ^ 41 + 531 * 2 ^ 27]

/-- What the follow-on check answers, decided. -/
theorem followed {c : Ctx} {h : Sched} {opc : Nat} {x : Sched × XOps × ModMma}
    (e : (match c.followOn h opc with | .ok y => decide (y = x) | _ => false) = true) : c.followOn h opc = .ok x := by
  revert e
  cases c.followOn h opc <;> simp

theorem witness_CopyCommandEntersQueue :
    (st.core (st.wg 0).lcore).copyQ.length < 64 ∧
    (st.entryReady f0 hP2 { ops := [(.v 2, 2), (.v 4, 2)], reads := [r (.v 2), r (.v 4)] } .none none ∧
      st.entryReady f0 hP2 { ops := [(.v 1, 1), (.v 1, 1)], reads := [r (.v 1), r (.v 1)] } (.bar 15) (some live1) ∧
      (∀ l ∈ activeLanes st f0 hP2, (issueCtx st f0 hP2).addrOf oSt 16 false l % 16 = 0 ∧
        (issueCtx st f0 hP2).hostCopy l ((issueCtx st f0 hP2).addrOf oSt 16 false l) 16 = .ok ∧
        (issueCtx st f0 hP2).rd 1 (.int 32) (r (.v 1)) l % 16 = 0 ∧ (issueCtx st f0 hP2).rd 1 (.int 32) (r (.v 1)) l + 16 ≤ (st.wg 0).launch.localBytes)) ∧
    (let d := tileDesc 0x0040000400000040
     d.rows * d.rowb ≤ 8192 ∧ st.entryReady f0 h0 { ops := [(.c 63, 1)], writes := [(.t 15, 1)] } (.ctr 63) (some live1) ∧
      st.entryReady f0 h0 { ops := [], writes := [(.t 15, 1)] } .none none ∧ st.entryReady f0 h0 { ops := [(.t 15, 1)] } .none none ∧
      (issueCtx st f0 h0).rd 1 (.int 64) (r (.s 12)) 0 = 0x0040000400000040 ∧
      (issueCtx st f0 h0).rowCheck (.tld 15 false 0x300000 64 4 64) false d 0x300000 = .ok ∧
      (issueCtx st f0 h0).rowCheck (.slide 15 false 0x300000 64 4 64 16 0 1 0) false d 0x300000 = .ok ∧
      (issueCtx st f0 h0).rowCheck (.tst 15 false 0x300000 64 4 64) false d 0x300000 = .ok) ∧
    (issueCtx stMma f0 h0).followOn h0 0x161 = .ok (h0, mmaOps, ⟨false, false, false⟩) ∧
    (issueCtx stMma f0 h0).followOn h0 0x162 = .ok (h0, mmaOps, ⟨false, false, false⟩) := by
  refine ⟨?_,
    ⟨⟨?_, ready ?_⟩, ⟨?_, close ?_⟩, ?_⟩,
    ⟨?_, ⟨?_, close ?_⟩, ⟨?_, ready ?_⟩,
      ⟨?_, ready ?_⟩, ?_, ?_, ?_, ?_⟩,
    followed ?_, followed ?_⟩ <;> decide +kernel

theorem witness_TileInstructionEffect :
    ((st.wg 0).tile 15).busy = 0 ∧ st.wordReady f0 h0 { ops := [(.s 1, 2)], writes := [(.t 15, 1)] } ∧ st.wordReady f0 h0 { writes := [(.t 15, 1)] } ∧
    st.wordReady f0 h0 { ops := [(.t 0, 1)], writes := [(.t 15, 1)] } ∧ (∀ cmd ∈ (st.core (st.wg 0).lcore).copyQ, cmd.loads 0 0 = false) ∧
    st.wordReady f0 h0 { ops := [(.v 1, 1), (.imm 127, 2)], writes := [(.t 15, 1)] } ∧ (issueCtx st f0 h0).rd 1 (.int 64) (r (.imm 127)) 0 ≤ 127 ∧
    st.wordReady f0 h0 { ops := [(.t 0, 1), (.imm 127, 2)], writes := [(.v 8, 1)] } := by
  refine ⟨?_, ready ?_, ready ?_, ready ?_, ?_, ready ?_,
    ?_, ready ?_⟩ <;> decide +kernel

theorem witness_MatrixCommandEntersQueue :
    (st.issues f0 h0 ∧ mmaLegal (st.wg 0) mmaOps = true ∧ (issueCtx st f0 h0).checkNames (mmaUses (st.wg 0) mmaOps) = .ok) ∧
    (st.entryReady f0 h0 { ops := [(.acc 2, 2)] } .none none ∧ st.entryReady f0 h0 { ops := [(.acc 3, 1), (.c 0, 1)] } (.ctr 0) (some live1) ∧
      (issueCtx st f0 h0).reachable false ((accRows false 0x300000 64).map fun x => (x, 128)) = .ok) ∧
    (st.entryReady f0 h0 { ops := [(.acc 3, 1)] } (.bar 0) (some live1) ∧
      (issueCtx st f0 h0).rd 1 (.int 64) (r (.s 14)) 0 / 2 ^ 32 % 2 ^ 31 = 0 ∧ ((st.wg 0).fmtSlot 0).format.isSome = true ∧
      (issueCtx st f0 h0).reachable false (drainRanges .q ((st.wg 0).fmtSlot 0) false 0x300000 0 0) = .ok ∧
      (issueCtx st f0 h0).reachable false (drainRanges .f32 ((st.wg 0).fmtSlot 0) false 0x300000 0 0) = .ok) := by
  refine ⟨⟨issues ?_, ?_, ?_⟩,
    ⟨⟨?_, ready ?_⟩, ⟨?_, close ?_⟩, ?_⟩,
    ⟨?_, close ?_⟩, ?_, ?_, ?_, ?_⟩ <;> decide +kernel

/-- R424: TLD with FM enters the MMA of the next word too, and the fibre moves past both. -/
theorem test_tld_fm : gives stMma (.tld h0 (xo (.t 15) (r (.s 1)) (r (.s 12))) ⟨true, false⟩) (fun t =>
    (t.core 0).copyQ.length == 1 && (t.core 0).matQ.map (·.after) == [some 10] && (t.fibOf f0).pcAt 0 == pc0 + 2 && ((t.wg 0).tile 15).busy == 1) = true := by
  decide +kernel
/-- R432: TMOV.TV writes 64 bytes at its chunk. -/
theorem test_tmov_tv : gives st (.tmov h0 (xo (.t 15) (r (.v 1)) (r (.imm 127))) .tv) (fun t =>
    Memory.read ((t.wg 0).tile 15).data 8188 4 == 1024 && Memory.read ((t.wg 0).tile 15).data 8128 4 == 64) = true := by decide +kernel
/-- R436: MMA enters the matrix queue and makes its tiles busy. -/
theorem test_mma : gives st (.mma h0 mmaOps ⟨false, false, false⟩) (fun t =>
    (t.core 0).matQ.length == 1 && ((t.wg 0).tile 2).busy == 1 && ((t.wg 0).tile 3).busy == 1) = true := by decide +kernel

/-! ### Kindle, network, system -/

theorem witness_KindleResult :
    st.wordReady f0 h0 (kindUses (g (.v 8) (r (.s 1)) (r (.a 0))) ⟨0, false⟩ false) ∧ ((st.wg 0).fmtSlot 1).fmt ≠ 0 ∧
    st.wordReady f0 h0 (kindUses (g (.p 6) z (r (.v 2)) (r (.imm 0xFF))) ⟨1, true⟩ true) :=
  ⟨ready (by decide +kernel), by decide +kernel, ready (by decide +kernel)⟩

theorem witness_NetworkInstructionEnters :
    (st.closeReady f0 h0 (netUses (.s 9) [(.v 1, 1)]) live1 ∧
      ∀ k ∈ imageHandles ((List.range 16).flatMap fun k => leBytes 4 ((issueCtx st f0 h0).rd 1 (.int 32) (r (.v 20)) k)), k < (st.wg 0).launch.nctr) ∧
    (st.closeReady f0 hP2 (netUses (.s 9) []) live1 ∧ (issueCtx st f0 hP2).addrOf (mo (.s 9) (r (.s 1))) 64 false 0 % 64 = 0 ∧
      (issueCtx st f0 hP2).lanePlace ⟨{ rd := true }, 64, true, false, reachImage⟩ 0 0x300000 =
        .acc { lane := 0, va := 0x300000, space := .global, pa := 0x300000 } ∧
      (issueCtx st f0 hP2).lanePlace ⟨{ rd := true }, 128, true, false, reachImage⟩ 0 0x300080 =
        .acc { lane := 0, va := 0x300080, space := .global, pa := 0x300080 }) ∧
    st.closeReady f0 h0 { ops := [(.c 63, 1)] } live1 ∧
    (st.wordReady f0 h0 { ops := [(.c 63, 1)], writes := [(.s 9, 1)] } ∧
      (issueCtx st f0 h0).rd 1 (.int 64) (r (.imm 0)) 0 % 2 ^ 48 ≤ (st.counter 0 63).value.toNat) ∧
    st.wordReady f0 h0 { ops := [(.c 63, 1)], writes := [(.v 8, 2)] } := by
  refine ⟨⟨close ?_, ?_⟩,
    ⟨close ?_, ?_, placedAt ?_, placedAt ?_⟩, close ?_,
    ⟨ready ?_, ?_⟩, ready ?_⟩ <;> decide +kernel

theorem witness_SystemRegisterAccess :
    st.wordReady f0 h0 { writes := [(.s 9, 2)] } ∧ st.wordReady f0 h0 { writes := [(.v 8, 1)] } ∧
    st.wordReady f0 h0 { ops := [(.s 2, 1)], reads := [r (.s 2)] } := by
  refine ⟨ready ?_, ready ?_, ready ?_⟩ <;> decide +kernel

/-- The fixture in a partition with PRIV. -/
def stPriv : State := { st with parts := st.parts.map fun x => (x.1, { x.2 with priv := true }) }

theorem witness_PrivilegedInstructionEffect :
    (st.issues f0 h0 ∧ (st.fibOf f0).st = .current ∧ (st.part (st.wg 0).part).priv = false) ∧
    (stPriv.issues f0 h0 ∧ (stPriv.fibOf f0).st = .current ∧ (stPriv.part (stPriv.wg 0).part).priv = true ∧ f0.lanes = (stPriv.fibOf f0).live ∧
      (issueCtx stPriv f0 h0).rd 0 (.int 64) (r (.imm 1)) 0 < (stPriv.wg 0).launch.roles.length ∧
      ((stPriv.wg 0).role 1).vregs ≤ ((stPriv.wg 0).role 0).vregs ∧ ((stPriv.wg 0).role 1).wreg ≤ ((stPriv.wg 0).role 0).wreg ∧
      0 < (stPriv.wg 0).launch.gx ∧ 0 < (stPriv.wg 0).launch.gy ∧ (stPriv.part 0).frozen = false ∧ stPriv.base.frozen = none ∧
      (stPriv.part 0).eventFn = some 0) := by
  refine ⟨⟨issues (by decide +kernel), ?_, ?_⟩, issues (by decide +kernel), ?_, ?_,
    ?_, ?_, ?_, ?_, ?_, ?_, ?_,
    ?_, ?_⟩ <;> decide +kernel

theorem witness_TrapAndBreakpointFault : st.issues f0 h0 ∧ (st.fibOf f0).st = .current := ⟨issues (by decide +kernel), by decide +kernel⟩

/-- R445: NTRIG waits in the network queue; R451, R306: RDSYS reads FPSTAT, and WRSYS writes its six bits. -/
theorem test_ntrig : gives st (.ntrig h0 (g v0 (r (.c 63)) (r (.imm 5))) false) (fun t =>
    t.net 0 0 == [.op 10] && (t.counter 0 63).value == 0 && t.pipe.map (·.closing) == [some live1]) = true := by decide +kernel
theorem test_wrsys : gives st (.wrsys h0 ⟨v0, r (.imm 0xFF), 0⟩) (fun t => (t.fibOf f0).fpstat == 0x3F) = true := by decide +kernel
/-- R454, R455: ROLESW starts the other role's entry with its own RPARAM in S10; without PRIV it is illegal. -/
theorem test_rolesw : gives stPriv (.rolesw h0 (g v0 (r (.imm 1)))) (fun t =>
    (t.fibOf f0).pcAt 15 == 0x200040 && (t.fibOf f0).sAt 10 == 11 && (t.fibOf f0).vAt 1 0 == 0 && (t.fibOf f0).role == 1) = true := by decide +kernel
theorem test_rolesw_illegal : gives st (.rolesw h0 (g v0 (r (.imm 1)))) (fun t =>
    (t.fibOf f0).st == .frozen && decide ((t.fibOf f0).frozenBy = some (1, 1)) && (t.part 0).faultQ.length == 1) = true := by decide +kernel
/-- R227, R450: TRAP freezes its fibre with code 0x0C and its immediate as DETAIL. -/
theorem test_trap : gives st (.trap h0 ⟨v0, z, 0x1234⟩) (fun t =>
    (t.part 0).faultQ.map (fun q => (leAt q.2 0 1, leAt q.2 8 8, leAt q.2 48 8)) == [(0x0C, 0x200000, 0x1234)] && t.focus.isNone) = true := by
  decide +kernel
theorem test_halt : gives stPriv (.halt h0 (g v0)) (fun t => (t.part 0).frozen && (t.fibOf f0).pcAt 0 == pc0 + 1) = true := by decide +kernel

/-! ### Rules of all Aelax instructions -/

/-- A word that P7 with PNEG turns off. -/
def hOff : Sched := ⟨false, 7, true, 0, 0, some 3, false⟩

theorem witness_NoActiveLaneNoEffect :
    (Instr.trap hOff ⟨v0, z, 1⟩).sched = some hOff ∧ st.focus = some f0 ∧ st.inPlace f0 ∧ (issueCtx st f0 hOff).act = 0 := by
  refine ⟨?_, ?_, inPlaceOf (by decide +kernel), ?_⟩ <;> decide +kernel
theorem witness_IssueLeavesMemory : ∃ t, (Instr.iabs h0 (g (.v 8) (r (.v 1))) ⟨.i32, false⟩).sched = some h0 ∧
    exec (.iabs h0 (g (.v 8) (r (.v 1))) ⟨.i32, false⟩) st = .next t := ⟨_, rfl, rfl⟩
theorem witness_OperandChecksFault :
    (st.issues f0 h0 ∧ (st.fibOf f0).st = .current ∧ 8 * ((st.wg 0).role (st.fibOf f0).role).vregs < 248 + 1) ∧
    ((issueCtx st f0 h0).checkNames (usesOf (g (.v 8) (r (.l 1)) (r (.v 1))) 2 false false) = .ok ∧
      (Tab.get {} (st.fibOf f0).latches 1).valid = false) ∧
    (let s := st { fibA with livein := live1 }
     s.issues f0 h0 ∧ (issueCtx s f0 h0).checkNames (usesOf (g (.s 2) (r (.s 3)) (r (.s 1))) 2 false false) = .ok ∧
      Guard.all [r (.s 3), r (.s 1)] (issueCtx s f0 h0).readable = .ok ∧ 2 < (s.fibOf f0).livein.ns) := by
  refine ⟨⟨issues (by decide +kernel), ?_, ?_⟩, ⟨?_, ?_⟩, issues (by decide +kernel),
    ?_, ?_, ?_⟩ <;> decide +kernel

/-- A reader three issues after a write of V8 with latency 4. -/
def readerAt (k : Nat) : Ctx :=
  let w := fibA.writeV 8 1 4 0xFFFF 0xFFFF fun l => 100 + l
  { issueCtx st f0 h0 with fb := { w with clk := List.replicate 16 k } }

theorem witness_RegisterReadDistance :
    laneIn 0xFFFF 15 = true ∧ laneIn fibA.live 15 = true ∧ fibA.hist = [] ∧ (readerAt 3).s.pipe = [] ∧
    (readerAt 3).fb.hist = (fibA.writeV 8 1 4 0xFFFF 0xFFFF fun l => 100 + l).hist ∧
    (readerAt 3).fb.v = (fibA.writeV 8 1 4 0xFFFF 0xFFFF fun l => 100 + l).v ∧ fibA.clk.getD 15 0 ≤ (readerAt 3).fb.clk.getD 15 0 := by
  and_intros <;> decide +kernel
/-- R210: three issues after a write of latency 4 its reader gets the old value, four after it the new one. -/
theorem test_distance : (readerAt 3).readV 0 15 8 15 = 0 ∧ (readerAt 4).readV 0 15 8 15 = 115 := by decide +kernel

theorem witness_TranslationFollowsLeaf :
    translate st 0 0 0 (2 ^ 57) {} = .fault .pageNotPresent 0 false ∧ (2 ^ 56).testBit 56 = true ∧
    (tlbFind st 0 0 0x3FFFFF = some ⟨0, 0, 1, 21, ⟨.global, 0x200000, true, true, true, true⟩⟩ ∧ (st.ownerOf 0x3FFFFF = 0 + 1) ∧
      Leaf.grants ⟨.global, 0x200000, true, true, true, true⟩ { w := true } = true) ∧
    Leaf.grants ⟨.global, 0x200000, true, true, false, true⟩ { w := true } = false ∧ tlbFind st 0 0 0 = none ∧ st.walkFails = [] ∧
    st.ownerOf 0x400000 ≠ 0 + 1 := by
  refine ⟨?_, ?_, ⟨?_, ?_, ?_⟩, ?_, ?_, ?_, ?_⟩ <;> decide +kernel
theorem witness_DecodeOfEncode : ∃ w i, decodeWord w = .ok i ∧ i.sched = some h0 ∧ i.wellFormed = true :=
  ⟨0x0C7 * 2 ^ 86 + 7 * 2 ^ 82, .nop h0 (g v0), by rfl, by decide, by decide⟩

/-- The state in which the next step runs NOP, and one in which an event waits. -/
def stNext : State := State.reset.placeWord (0x0C7 * 2 ^ 86 + 7 * 2 ^ 82)

/-- The line word of a line that holds one word. -/
def lineWord (w : Nat) : Nat := Memory.read (Memory.write [] 0 (codeLine w)) 60 4
/-- A decodable check that a word comes to issue at the picker's choice. -/
def comesB (s : State) (f : Focus) (w lw : Nat) : Bool :=
  s.agenda.isEmpty && s.base.frozen.isNone && s.base.power && s.openPair.isNone && s.openSecond.isNone && s.emptySeat.isNone && s.handOffSeat.isNone && decide (s.pick = some f) &&
  (match fetchWord s (s.wg f.wg) f.pc with | .word a b => decide (a = w) && decide (b = lw) | _ => false) && !(s.fibOf f).atEntry
theorem comesB_spec {s : State} {f : Focus} {w lw : Nat} (h : comesB s f w lw = true) : s.comes f w lw := by
  unfold comesB at h
  split at h <;>
    simp only [Bool.and_eq_true, List.isEmpty_iff, Option.isNone_iff_eq_none, decide_eq_true_eq, Bool.not_eq_true', Bool.false_eq_true,
      and_false, false_and] at h
  obtain ⟨⟨⟨⟨⟨⟨⟨⟨⟨ha, hf⟩, hp⟩, ho⟩, h2⟩, he⟩, hh⟩, hk⟩, rfl, rfl⟩, ht⟩ := h
  exact ⟨ha, ⟨hf, hp⟩, .inl ⟨ho, h2, he, hh, hk⟩, by assumption, fun hc => by simp [ht] at hc⟩

theorem witness_StepRunsDecoded :
    (let w := 0x0C7 * 2 ^ 86 + 7 * 2 ^ 82
     stNext.comes f0 w (lineWord w) ∧ lineReserved (lineWord w) = false ∧ decodeWord w = .ok (.nop h0 (g v0))) ∧
    (let s : State := { State.reset with agenda := [.ethernetLinkDown] }
     s.agenda = .ethernetLinkDown :: [] ∧ s.acts .ethernetLinkDown = true) :=
  ⟨⟨comesB_spec (by decide +kernel), by decide +kernel, by rfl⟩, by decide +kernel⟩

/-- The state in which the next step finds a word with opcode 0x3FF, or with no lane active, and the line with reserved bits set. -/
def stIllegal (w : Nat) : State := State.reset.placeWord w
theorem witness_ReservedEncodingsFault :
    (let w := 0x3FF * 2 ^ 86 + 7 * 2 ^ 82
     (stIllegal w).comes f0 w (lineWord w) ∧ ReservedWord w ∧ (stIllegal w).inPlace f0 ∧
       (issueCtx { stIllegal w with focus := some f0 } f0 (rawSched w)).act ≠ 0) ∧
    (let w := 0x3FF * 2 ^ 86 + 7 * 2 ^ 82 + 2 ^ 81
     (stIllegal w).comes f0 w (lineWord w) ∧ (stIllegal w).inPlace f0 ∧
       (issueCtx { stIllegal w with focus := some f0 } f0 (rawSched w)).act = 0) ∧
    lineReserved (2 ^ 23) = true ∧ lineReserved (2 ^ 21) = true ∧ lineReserved (2 ^ 32 - 2 ^ 24 + 2 ^ 21 - 1) = false := by
  refine ⟨⟨comesB_spec ?_, .inl ?_, ⟨?_, ?_, ?_, ?_⟩,
      ?_⟩,
    ⟨comesB_spec ?_, ⟨?_, ?_, ?_, ?_⟩, ?_⟩,
    ?_⟩ <;> decide +kernel

/-- Legal words of the opcodes whose encodings the statements give: all V0 for the integer opcodes, the needed A, P, S and T registers for
the others. -/
theorem witness_WordsOf :
    (∀ o ∈ List.range' 0x001 9 ++ List.range' 0x010 10 ++ List.range' 0x020 7 ++ [0x050, 0x052, 0x0C7, 0x1D5],
      (match decodeWord (o * 2 ^ 86) with | .ok _ => true | .error _ => false) = true ∧ wordOpcode (o * 2 ^ 86) = o) ∧
    ∀ x ∈ [(0x042, 0, 0, 0x208), (0x058, 0x180, 0x100 * 2 ^ 14, 0), (0x059, 0x180, 0x180 * 2 ^ 14 + 0x180, 0), (0x05A, 0x180, 0x180 * 2 ^ 14, 0),
        (0x05B, 0x180, 0x180 * 2 ^ 14 + 0x100, 0), (0x05C, 0, 0x180 * 2 ^ 14, 0), (0x060, 0x208, 0, 0), (0x061, 0x208, 0x208 * 2 ^ 14 + 0x208, 0),
        (0x062, 0, 0x208 * 2 ^ 14, 0), (0x180, 0x210, 0x100 * 2 ^ 14, 0), (0x181, 0x210, 0, 0)],
      let w := x.1 * 2 ^ 86 + x.2.1 * 2 ^ 51 + x.2.2.1 * 2 ^ 27 + x.2.2.2 * 2 ^ 13
      (match decodeWord w with | .ok _ => true | .error _ => false) = true ∧ wordOpcode w = x.1 := by decide +kernel

/-- The state after the first of a pair: its fibre offers the second in the same cycle. -/
def stPair : State :=
  let s := stNext.modFib 0 0 0 fun fb => { fb with pairOpen := true }
  s.setSlot 0 0 { s.slot 0 0 with lastIssue := 1 }
theorem witness_pair_offer : stPair.openPair = some (0, 0, 0) ∧ stPair.pairSecond 0 0 0 = some f0 := by decide +kernel

/-- Two lane sets of a fibre, at slots 0 and 2 of its line: the first port issues the lower, and the step leaves the higher for the
second port (R213). -/
def stApart : State := stNext.modFib 0 0 0 fun fb => { fb with pc := List.replicate 8 (2 ^ 21) ++ List.replicate 8 (2 ^ 21 + 2) }
def fLow : Focus := ⟨0, 0, 0, 0x00FF, 2 ^ 21⟩
def fHigh : Focus := ⟨0, 0, 0, 0xFF00, 2 ^ 21 + 2⟩
def stSecond : State := match step stApart with | .next t => t | _ => stApart
theorem test_second_port : stApart.pick = some fLow ∧ stSecond.openSecond = some (0, 0, 0) ∧ stSecond.secondFocus 0 0 0 = some fHigh ∧
    (match step stSecond with
     | .next t => (t.fib 0 0 0).pc == List.replicate 8 (2 ^ 21 + 1) ++ List.replicate 8 (2 ^ 21 + 3) && t.tick == 0 &&
         (t.fib 0 0 0).issueIx == 2
     | _ => false) = true := by decide +kernel

/-- R364: opcodes in the gaps of the map, SETF 13, operand codes of class 01 and class 10, permutation code 15, B-form slots 5 and 7. -/
theorem test_reserved_encodings : (∀ w ∈ [0, 0x00A * 2 ^ 86, 0x1D8 * 2 ^ 86, 0x200 * 2 ^ 86, 0x001 * 2 ^ 86 + 13 * 2 ^ 62,
    0x001 * 2 ^ 86 + 0x1A0 * 2 ^ 51, 0x001 * 2 ^ 86 + 0x224 * 2 ^ 41, 0x001 * 2 ^ 86 + 15 * 2 ^ 37, 0x0C0 * 2 ^ 86 + 5 * 2 ^ 9,
    0x0C0 * 2 ^ 86 + 7 * 2 ^ 9], (match decodeWord w with | .error _ => true | .ok _ => false) = true) ∧
    (match decodeWord (0x0C0 * 2 ^ 86 + 4 * 2 ^ 9) with | .error _ => false | .ok _ => true) = true := by decide +kernel

/-- R364, R328: a word with opcode 0x3FF freezes its fibre with ILLEGAL_OP, and its record holds the opcode. -/
theorem test_illegal_op : (match step (stIllegal (0x3FF * 2 ^ 86 + 7 * 2 ^ 82)) with
    | .next t => ((t.fib 0 0 0).st == .frozen) && decide ((t.part 0).faultQ.map (fun x => (leAt x.2 0 1, leAt x.2 48 8)) = [(FaultCode.illegalOp.num, 0x3FF)])
    | _ => false) = true := by decide +kernel

/-- R303, R304: 464 is half way between E4M3's 448 and the next step and goes to 448, whose code is even; 465 overflows; the values meet
the statement's hypotheses. -/
theorem witness_RoundingResult :
    ((0 : Nat) < 464 ∧ (-9 : Int) ≤ 0 ∧ -9 ≤ Fmt.gridMin .e4m3 ∧ roundVal .e4m3 .rne false false (.fin false 464 0) = (0x7E, 0)) ∧
    (roundVal .e4m3 .rne false false (.fin false 465 0)).2 ≠ 0 ∧ roundVal .e2m1 .rdn false false (.fin true 13 (-1)) = (0xF, fpOF) ∧
    roundVal .fp32 .rtz false false (.fin true 1 200) = (0xFF7FFFFF, fpOF) := by decide +kernel
theorem witness_StepKeepsMemoryForm : ∃ t, State.reset.memWf = true ∧ step State.reset = .next t := ⟨_, by decide, rfl⟩

/-! ### Commands of the Trailhead protocol -/

/-- A payload: sizes and values in order. -/
def pl (xs : List (Nat × Nat)) : List Byte := xs.flatMap fun x => leBytes x.1 x.2
/-- A datagram of function `fn`, its SEQ 9. -/
def dg (fn opc : Nat) (xs : List (Nat × Nat) := []) : Datagram := ⟨0x7A11, fn, opc, 1, 0, 9, (pl xs).length, 0, some 1, pl xs, 5, 4000⟩
/-- A function with a key. -/
def fnOf (p : Option Nat) : Func := { part := p, key := some 1, top := 8 }
/-- Functions 0 to 2: the hypervisor's, partition 0's and partition 1's. -/
def fns : Tab Func := [(0, fnOf none), (1, fnOf (some 0)), (2, fnOf (some 1))]
/-- A module with partition 0 as given, an OPEN partition 1, and a datagram that has arrived. -/
def stC (d : Datagram) (x : Partition := { st := .active }) : State :=
  { rx := [d], base := { ready := true }, funcs := fns, parts := [(0, x), (1, { st := .opened, asidBase := 100, asidCount := 1, cores := [(9, false)] })] }

/-- `Accepted`, decided. -/
def acceptedB (s : State) (d : Datagram) (i : Instr) : Bool :=
  decide (s.rx.head? = some d) && decide (d.command = i) &&
  decide (s.base.ethDown = false) &&
  decide (d.magic = 0x7A11 ∧ d.ver = 1 ∧ d.func < 64 ∧ d.flags % 8 = 0 ∧ d.claim = d.len ∧ d.len ≤ 8192 ∧ d.status = 0 ∧
    s.base.recovery = false ∧ (s.func d.func).key ≠ none ∧ d.key = (s.func d.func).key) &&
  decide ((s.func d.func).arrival d.seq = .fresh) && decide ((s.func d.func).busy.length < 32) &&
  decide (senderOf d.opc ≠ .none ∧ s.maySend d.func d.opc = true) && decide (∀ b ∈ (s.func d.func).busy, b.1 ≠ d.seq) &&
  decide ((s.func d.func).newKey = none ∨ (s.func d.func).busy ≠ [])

theorem accepted {s : State} {d : Datagram} {i : Instr} (e : acceptedB s d i = true) : Accepted s d i := by
  simp only [acceptedB, Bool.and_eq_true, decide_eq_true_eq] at e
  exact ⟨e.1.1.1.1.1.1.1.1, e.1.1.1.1.1.1.1.2, e.1.1.1.1.1.1.2, e.1.1.1.1.1.2, e.1.1.1.1.2, e.1.1.1.2, e.1.1.2, e.1.2, e.2⟩

/-- A command is accepted, and more holds. -/
theorem meets {s : State} {d : Datagram} {i : Instr} {q : Prop} [Decidable q] (e : (acceptedB s d i && decide q) = true) :
    Accepted s d i ∧ q := by
  simp only [Bool.and_eq_true, decide_eq_true_eq] at e
  exact ⟨accepted e.1, e.2⟩

/-- A PCONFIG item comes, and more holds. -/
theorem itemMeets {s : State} {d : Datagram} {i : Instr} {p : Nat} {z : ItemStates} {q : Prop} [Decidable q]
    (e : (acceptedB s d i && decide ((d.arg 0 1 = p ∧ p < 32) ∧ z.takes (s.part p).st = true ∧ d.zeros [(2, 2)] = true) && decide q) = true) :
    ItemComes s d i p z ∧ q := by
  simp only [Bool.and_eq_true, decide_eq_true_eq] at e
  exact ⟨⟨accepted e.1.1, e.1.2.1, e.1.2.2.1, e.1.2.2.2⟩, e.2⟩

/-- The outcome is a next state whose last response, to function `fn`, has this status and payload, and of which `q` holds. -/
def answers (s : State) (i : Instr) (fn : Nat) (st : Status) (xs : List (Nat × Nat) := []) (q : State → Bool := fun _ => true) : Bool :=
  gives s i fun t => decide (t.ethOut.getLast? = some (.reply fn 5 4000 9 st.num (pl xs))) && (t.func fn).busy.isEmpty && q t

/-- A module whose function 1 is as given, and a PING from it. -/
def stF (f : Func) (d : Datagram := dg 1 3) : State := { stC d with funcs := [(1, f)] }
/-- Commands in progress. -/
def busyOf (n : Nat) : List (Nat × Nat × Nat) := (List.range n).map fun k => (k + 10, 5, 4000)

theorem witness_DatagramAcceptance :
    (let s : State := { stC (dg 1 3) with base := { ethDown := true } }
     s.rx = [dg 1 3] ∧ s.base.ethDown = true) ∧
    (∀ d ∈ [{ dg 1 3 with func := 64 }, { dg 1 3 with magic := 0 }, { dg 1 3 with claim := 1 }, { dg 1 3 with status := 1 }, { dg 1 3 with flags := 1 }],
      (stC d).rx = [d] ∧ (stC d).base.ethDown = false ∧
        ¬ (d.magic = 0x7A11 ∧ d.ver = 1 ∧ d.func < 64 ∧ d.flags % 4 = 0 ∧ d.claim = d.len ∧ d.len ≤ 8192 ∧ d.status = 0)) ∧
    (let s : State := { stC (dg 1 3) with base := { recovery := true } }
     s.rx = [dg 1 3] ∧ s.base.recovery = true ∧ (dg 1 3).func ≠ 0) ∧
    (∀ d ∈ [{ dg 1 3 with flags := 4 }, { dg 1 3 with key := some 2 }, { dg 1 3 with key := none }],
     (stC d).rx = [d] ∧ (stC d).base.recovery = false ∧ d.opc = 3 ∧ d.len ≤ 8192 ∧
       (d.flags.testBit 2 = true ∨ ((stC d).func d.func).key = none ∨ d.key ≠ ((stC d).func d.func).key)) ∧
    ((stF { fnOf (some 0) with top := 74 }).genuine (dg 1 3) ∧ (dg 1 3).seq + 64 < 74) ∧
    (let f : Func := { fnOf (some 0) with top := 73, seen := 2 ^ 63 }
     (stF f).genuine (dg 1 3) ∧ f.top ≤ (dg 1 3).seq + 64 ∧ f.seen.getLsbD (f.top - 1 - (dg 1 3).seq) = true ∧ f.cache = []) ∧
    (let f : Func := { fnOf (some 0) with top := 9, cache := [(9, 0, [])] }
     (stF f).genuine (dg 1 3) ∧ f.cache.find? (fun x => x.1 == (dg 1 3).seq) = some (9, 0, [])) ∧
    (∀ n ∈ [31, 32], (stF { fnOf (some 0) with busy := busyOf n }).genuine (dg 1 3) ∧
      Func.arrival { fnOf (some 0) with busy := busyOf n } 9 = .fresh ∧ ∀ b ∈ busyOf n, b.1 ≠ 9) ∧
    senderOf 4 = .none ∧ senderOf 0x30 ≠ .none ∧ (stC (dg 1 0x30)).maySend 1 0x30 = false := by
  and_intros <;> (try simp only [State.genuine]) <;> decide +kernel

/-- The module with a verified tree: the index it signs with is the last of its tree. -/
def stId (d : Datagram) (left tree : Nat) : State :=
  { stC d with base := { ready := true, sessionLeft := left, identityLeft := tree, measurements := [1, 2] } }
/-- FWSTAGE of the last part, of a byte, of a 65-byte image. -/
def dgStage (last : Nat) : Datagram := dg 0 0x50 [(4, 65), (4, 64), (4, 1), (1, last), (51, 0), (1, 7)]
/-- The module with the first 64 bytes of it kept. -/
def stStage (last : Nat) (parts : List (Nat × Nat)) : State :=
  { stC (dgStage last) with base := { ready := true, staging := { total := 65, parts := parts } } }

theorem witness_IdentityCommandResult :
    (Accepted (stC (dg 1 3)) (dg 1 3) .ping ∧ (dg 1 3).len = 0) ∧
    Accepted (stC (dg 0 0x32 [(1, 0), (1, 0x13)])) (dg 0 0x32 [(1, 0), (1, 0x13)]) .badop ∧
    (Accepted (stC (dg 1 1)) (dg 1 1) .identify ∧ (dg 1 1).len = 0) ∧
    (let d : Datagram := { dg 0 1 with flags := 0xF4, key := none, seq := 0 }
     (stC d).rx = [d] ∧ d.func < 64 ∧ d.ver = 1 ∧ d.flags % 8 = 4 ∧ d.opc = 1 ∧ d.claim = 0 ∧ d.len = 0 ∧ (stC d).base.recovery = false) ∧
    (∀ x ∈ [(2, 0), (1, 0), (1, 3)], let s := stId (dg 1 2 [(32, 77)]) x.1 x.2
     acceptedB s (dg 1 2 [(32, 77)]) .attest = true ∧ (dg 1 2 [(32, 77)]).len = 32 ∧ s.base.sessionBusy = false ∧ s.base.sessionLeft ≠ 0) ∧
    (∀ k ∈ [0, 1], acceptedB (stStage k []) (dgStage k) .fwstage = true ∧ (dgStage k).len = 64 + 1 ∧ (dgStage k).zeros [(13, 51)] = true ∧
      (dgStage k).arg 12 1 = k ∧ (dgStage k).arg 4 4 + (dgStage k).arg 8 4 ≤ (dgStage k).arg 0 4) ∧
    (∀ k, k < 65 → ∃ p ∈ [(0, 64), (64, 1)], p.1 ≤ k ∧ k < p.1 + p.2) ∧ (∀ p ∈ [(64, 1)], 63 < p.1 ∨ p.1 + p.2 ≤ 63) ∧
    ({ ({} : Module) with sessionBusy := true }).sessionBusy = true := by
  refine ⟨meets ?_, accepted ?_, meets ?_, ?_, ?_, ?_, ?_, ?_, ?_⟩ <;> decide +kernel

/-- A graph of one HEVENT node (kind 3) that sends to no host: header, node table at 64, node at 128 (R143 to R145). -/
def graphBytes : List Byte :=
  pl [(4, 0xB1A70C4A), (4, 1), (4, 64), (52, 0), (4, 128), (60, 0), (1, 3), (1, 0xFF), (6, 0), (4, 128), (116, 0)]
/-- The graph, with runs queued. -/
def gr (sealed : Bool) (q : List RunReq := []) : Graph :=
  { part := 0, units := 1, sealed := sealed, bytes := Memory.write [] 0 graphBytes, queue := q, lastSeq := 2 ^ 32 - 1 }
/-- The module with that graph under handle 7, partition 0 with a share of three units. -/
def stG (d : Datagram) (x : Graph) : State := { stC d { st := .active, share := 3 } with graphs := [(7, some x)], nextHandle := 7 }
/-- `GraphNamed`, decided. -/
theorem named {s : State} {d : Datagram} {p : Nat} {x : Graph}
    (e : decide ((s.func d.func).part = some p ∧ s.graph (d.arg 0 4) = some x ∧ x.part = p) = true) : GraphNamed s d p x :=
  ⟨(of_decide_eq_true e).1, (of_decide_eq_true e).2.1, (of_decide_eq_true e).2.2⟩
/-- GLOAD of the last byte, and GRUN with one patch. -/
def dgLoad : Datagram := dg 1 0x11 [(4, 7), (4, 1), (8, 65472), (48, 0), (1, 5)]
def dgRun : Datagram := dg 1 0x14 [(4, 7), (8, 99), (2, 1), (2, 0), (4, 192), (1, 8), (3, 0), (8, 0x1234)]
/-- A queued run of function 1. -/
def run1 (n : Nat) : RunReq := ⟨1, 5, n, []⟩

theorem witness_GraphCommandResult :
    (let d := dg 1 0x10 [(4, 2)]
     let s := stG d (gr false)
     (Accepted s d .galloc ∧ d.len = 4 ∧ d.arg 0 4 ≠ 0 ∧ (s.func 1).part = some 0 ∧ (s.graphsOf 0).length < 1024 ∧ 1 + 2 ≤ (s.part 0).share ∧
       ((s.graphsOf 0).map fun x => x.2.units).sum + 2 ≤ (s.part 0).share ∧
       (∀ x ∈ s.graphsOf 0, rangesMeet 1 2 x.2.base x.2.units = false) ∧
       (∀ a, a < 1 → ∃ x ∈ s.graphsOf 0, rangesMeet a 2 x.2.base x.2.units = true)) ∧ s.handleFrom 8) ∧
    (GraphNamed (stG dgLoad (gr false)) dgLoad 0 (gr false) ∧ Accepted (stG dgLoad (gr false)) dgLoad .gload ∧ dgLoad.len = 64 + 1 ∧
      dgLoad.arg 8 8 % 64 = 0 ∧ dgLoad.zeros [(16, 48)] = true ∧ dgLoad.arg 8 8 + 1 ≤ 65536) ∧
    (let d := dg 1 0x12 [(4, 7)]
     (Accepted (stG d (gr true)) d .gseal ∧ (gr true).sealed = true) ∧ (Accepted (stG d (gr false)) d .gseal ∧ (stG d (gr false)).sealFailure (gr false) = none) ∧
     Accepted (stG d { gr false with bytes := [] }) d .gseal ∧
       (stG d { gr false with bytes := [] }).sealFailure { gr false with bytes := [] } = some (0xFFFFFFFF, 0)) ∧
    (let d := dg 1 0x13 [(4, 7)]
     Accepted (stG d (gr true)) d .gfree ∧ (gr true).run = none ∧ (gr true).queue = []) ∧
    (let s := stG dgRun (gr true ((List.range 15).map run1))
     Accepted s dgRun .grun ∧ (s.part 0).st ≠ .opened ∧ dgRun.len = 16 + 16 * dgRun.arg 12 2 ∧ dgRun.zeros [(14, 2)] = true ∧
       dgRun.zeros [(21, 3)] = true ∧ (∀ x ∈ dgRun.patches, (gr true).patchLegal x.1 x.2.1 = true) ∧ (gr true ((List.range 15).map run1)).queue.length < 16) ∧
    (let d := dg 1 0x15 [(4, 7)]
     let x := gr true [run1 3, run1 4]
     Accepted (stG d x) d .gcancel ∧ d.len = 4 ∧ (stG d x).graph 7 = some x ∧ (stG d x).func 1 ≠ {} ∧ ((stG d x).func 1).part ≠ none) := by
  refine ⟨⟨meets ?_, 1, by decide +kernel⟩, ⟨named ?_, meets ?_⟩,
    ⟨meets ?_, meets ?_, meets ?_⟩, meets ?_, meets ?_,
    meets ?_⟩ <;> decide +kernel

/-- R95: the lowest free range, under the next handle that names no graph. R97: GRUN keeps its patch and numbers its run 0 after
4,294,967,295. R98: GCANCEL answers the number of runs it takes back, each with a run event. -/
theorem test_galloc : answers (stG (dg 1 0x10 [(4, 2)]) (gr false)) .galloc 1 .ok [(4, 8)]
    (fun t => decide (t.graph 8 = some { part := 0, base := 1, units := 2 })) = true := by decide +kernel
theorem test_grun : answers (stG dgRun (gr true)) .grun 1 .ok [(4, 0)]
    (fun t => decide ((t.graph 7).map (·.queue) = some [⟨1, 99, 0, [(192, 8, 0x1234)]⟩])) = true := by decide +kernel
theorem test_gcancel : answers (stG (dg 1 0x15 [(4, 7)]) (gr true [run1 3, run1 4])) .gcancel 1 .ok [(4, 2)]
    (fun t => (t.func 1).events.map (fun e => (e.1, leAt e.2 24 1, leAt e.2 28 4)) == [(1, 2, 3), (2, 2, 4)]) = true := by decide +kernel
/-- R145: GSEAL refuses a node whose size is not its kind's. -/
theorem test_gseal_bad : answers (stG (dg 1 0x12 [(4, 7)]) { gr false with bytes := Memory.write (gr false).bytes 136 [64] }) .gseal 1 .badgraph
    [(4, 0), (4, 128)] = true := by decide +kernel

/-- Function 1 with events 3 and 4 queued and some dropped. -/
def fnE (dropped : Nat) : Func := { fnOf (some 0) with events := [(3, [3]), (4, [4])], evseq := 4, dropped := dropped }
def dgRead (n : Nat) : Datagram := dg 1 0x20 [(4, n), (2, 96)]
def dgWin (n : Nat) : Datagram := dg 1 0x21 [(2, 4095), (1, 7), (1, 0), (4, 77), (8, 0x10000), (8, n), (2, 1)]
def dgHost (n : Nat) : Datagram := dg 1 0x22 [(2, 255), (2, 1023), (4, 77), (8, 0x10), (8, n)]
def dgKey : Datagram := dg 0 0x34 [(1, 1), (31, 0), (32, 2 ^ 200 + 3)]

theorem witness_EventAndWindowCommandResult :
    ((∀ x ∈ [(0, 3), (5, 0)], acceptedB (stF (fnE x.1) (dgRead x.2)) (dgRead x.2) .evread = true ∧ (dgRead x.2).len = 6 ∧ (dgRead x.2).arg 4 2 ≤ 96) ∧
      Accepted (stF (fnE 5) (dgRead 4)) (dgRead 4) .evread ∧ ((stF (fnE 5) (dgRead 4)).func 1).dropped ≠ 0 ∧
      ((fnE 5).events.filter fun e => decide (4 < e.1)).length < (fnE 5).events.length ∧ (fnE 5).part ≠ none) ∧
    (∀ n ∈ [0, 0x10000], let s := stC (dgWin n) { st := .active, asidBase := 1, asidCount := 1 }
     acceptedB s (dgWin n) .winset = true ∧ (dgWin n).len = 26 ∧ (dgWin n).arg 0 2 < 4096 ∧ (dgWin n).arg 2 1 < 8 ∧ (dgWin n).zeros [(3, 1)] = true ∧
       (dgWin n).arg 16 8 % 65536 = 0 ∧ (s.part 0).hasAsid ((dgWin n).arg 24 2) = true) ∧
    (∀ n ∈ [0, 64], acceptedB (stC (dgHost n)) (dgHost n) .htset = true ∧ (dgHost n).len = 24 ∧ (dgHost n).arg 0 2 < 256 ∧ (dgHost n).arg 2 2 < 1024) ∧
    (Accepted (stC dgKey) dgKey .keyset ∧ dgKey.len = 64 ∧ 1 ≤ dgKey.arg 0 1 ∧ dgKey.zeros [(1, 31)] = true ∧ ((stC dgKey).func 1).busy = []) ∧
    (let s : State := { stC dgKey with funcs := [(0, fnOf none), (1, { fnOf (some 0) with busy := busyOf 1 })] }
     Accepted s dgKey .keyset ∧ (s.func 1).busy ≠ [] ∧ (s.func 1).newKey = none) := by
  refine ⟨⟨?_, meets ?_⟩, ?_, ?_, meets ?_, meets ?_⟩ <;> decide +kernel

/-- R99, R101: EVREAD up to 3 leaves event 4; up to 4, with five dropped, an overflow event numbered 5 says so. R102: KEYSET. -/
theorem test_evread : answers (stF (fnE 0) (dgRead 3)) .evread 1 .ok [(4, 1), (4, 4), (8, 0), (1, 4)] (fun t => (t.func 1).events.map (·.1) == [4]) = true := by
  decide +kernel
theorem test_evread_overflow : gives (stF (fnE 5) (dgRead 4)) .evread (fun t =>
    (t.func 1).events.map (fun e => (e.1, leAt e.2 0 2, leAt e.2 16 4)) == [(5, 6, 5)] && (t.func 1).dropped == 0 && t.ethOut.length == 2) = true := by
  decide +kernel
theorem test_keyset : answers (stC dgKey) .keyset 0 .ok [] (fun t => (t.func 1).key == some (BitVec.ofNat 256 (2 ^ 200 + 3)) && (t.func 1).top == 0) = true := by decide +kernel

/-! ### Partitions -/

/-- A partition command, and a PCONFIG item of partition 0. -/
def dgP (opc : Nat) (xs : List (Nat × Nat)) : Datagram := dg 0 opc xs
def dgI (item : Nat) (xs : List (Nat × Nat)) : Datagram := dg 0 0x32 ([(1, 0), (1, item), (2, 0)] ++ xs)
/-- An OPEN, an ACTIVE and a SUSPENDED partition with an address space, a share and two virtual cores. -/
def pOpen : Partition := { st := .opened, share := 16, asidBase := 1, asidCount := 2, cores := [(0, false), (5, false)], dataFn := some 1 }
def pAct : Partition := { pOpen with st := .active }
def pSusp : Partition := { pOpen with st := .suspended }
/-- The module with cores 0, 5 and 6 in service, granules 1 and 983,039 of partition 0, and a graph of it. -/
def stP (d : Datagram) (x : Partition) : State :=
  { stC d x with
    cairn := [(0, { cfeat := 0xB }), (5, { cfeat := 0xB }), (6, { cfeat := 0xB })], owner := [(1, 1), (2, 100), (983039, 1)], ctrBlocks := [(63, 1), (64 * 79 + 63, 1)]
    graphs := [(7, some (gr true [run1 1]))] }
/-- The module in which SUSPEND is under way, and one with a new core table pending. -/
def stBusy (d : Datagram) : State := stP d { pOpen with st := .suspending }
def stPend (d : Datagram) : State := { stP d pSusp with base := { ready := true, pendingTable := some ⟨true, false, [], []⟩ } }

theorem witness_PartitionCommandResult :
    (∀ q ∈ [2, 31, 0xFF], let d := dgP 0x30 [(1, q), (7, 0)]
     acceptedB (stP d pAct) d .pcreate = true ∧ d.len = 8 ∧ d.zeros [(1, 7)] = true ∧ (stP d pAct).base.ready = true ∧
       ((stP d pAct).part (if q = 0xFF then 2 else q)).st = .free ∧ ∀ k, k < 2 → ((stP d pAct).part k).st ≠ .free) ∧
    (let d := dgI 8 [(4, 0)]
     ItemComes (stP d pOpen) d .start 0 .openOnly ∧ d.len = 8 ∧ d.zeros [(4, 4)] = true ∧ pOpen.cores ≠ [] ∧ pOpen.share ≠ 0) ∧
    (let d := dgI 9 [(4, 0)]
     ItemComes (stP d pAct) d .suspend 0 .activeOnly ∧ d.len = 8 ∧ d.zeros [(4, 4)] = true) ∧
    (let d := dgI 10 [(4, 0)]
     (ItemComes (stP d pSusp) d .resume 0 .suspendedOnly ∧ d.len = 8 ∧ (stP d pSusp).base.pendingTable = none) ∧
     ItemComes (stPend d) d .resume 0 .suspendedOnly ∧ (stPend d).base.pendingTable ≠ none) ∧
    (let d := dgP 0x31 [(1, 0), (7, 0)]
     (∀ x ∈ [pOpen, pAct, pSusp], acceptedB (stP d x) d .pdestroy = true ∧ d.len = 8 ∧ d.zeros [(1, 7)] = true ∧ (stP d x).blockOwner 79 63 = 0 + 1 ∧
       ((stP d x).part 0).st = x.st) ∧
     Accepted (stBusy d) d .pdestroy ∧ ((stBusy d).part 0).st = .suspending ∧ ((stBusy d).part 0).endCmd = none) ∧
    (∀ q ∈ [(0, 0), (1, 1), (0xFF, 0)], let d := dgP 0x33 [(1, 1), (1, q.1), (6, 0)]
     acceptedB (stP d pAct) d .fassign = true ∧ d.len = 8 ∧ d.zeros [(2, 6)] = true ∧ ((stP d pAct).func 0).newKey = none ∧
       ((stP d pAct).func 1).keyCmd = none ∧ ((stP d pAct).func 1).part = some 0 ∧ ((stP d pAct).part q.2).st ≠ .free) := by
  refine ⟨?_, itemMeets ?_, itemMeets ?_, ⟨itemMeets ?_, itemMeets ?_⟩,
    ⟨?_, meets ?_⟩, ?_⟩ <;> decide +kernel

/-- R118: PCREATE of any partition takes the lowest free one. R119: PDESTROY frees the graphs and is answered later. R79: FASSIGN takes the
function away from its partition, whose queued runs of that function end. -/
theorem test_pcreate : answers (stP (dgP 0x30 [(1, 0xFF), (7, 0)]) pAct) .pcreate 0 .ok [(1, 2)] (fun t => (t.part 2).st == .opened) = true := by decide +kernel
theorem test_pdestroy : gives (stP (dgP 0x31 [(1, 0), (7, 0)]) pAct) .pdestroy (fun t =>
    (t.part 0).st == .destroying && (t.graph 7).isNone && t.releases.length == 2) = true := by decide +kernel
theorem test_fassign : answers (stP (dgP 0x33 [(1, 1), (1, 0xFF), (6, 0)]) pAct) .fassign 0 .ok [] (fun t =>
    (t.func 1).part.isNone && (t.part 0).dataFn.isNone && (t.graph 7).any (fun x => x.queue.isEmpty)) = true := by decide +kernel

theorem witness_PartitionItemResult :
    (let d := dgI 1 [(2, 65535), (2, 0)]
     ItemComes (stP d pAct) d .weight 0 .any ∧ d.len = 8 ∧ d.zeros [(6, 2)] = true ∧ d.arg 4 2 ≠ 0) ∧
    (let d := dgI 3 [(1, 32), (3, 0)]
     ItemComes (stP d pAct) d .wdog 0 .any ∧ d.len = 8 ∧ d.zeros [(5, 3)] = true ∧ d.arg 4 1 ≤ 32) ∧
    (let d := dgI 0x12 [(1, 1), (3, 0)]
     ItemComes (stP d pOpen) d .priv 0 .rest ∧ d.len = 8 ∧ d.zeros [(5, 3)] = true ∧ d.arg 4 1 < 2) ∧
    (let d := dgI 2 [(4, 2048)]
     ItemComes (stP d pSusp) d .gshare 0 .rest ∧ d.len = 8 ∧ (((stP d pSusp).graphsOf 0).map fun y => y.2.units).foldl (· + ·) 0 ≤ d.arg 4 4 ∧
       d.arg 4 4 + (stP d pSusp).sharesOf 0 ≤ 2048) ∧
    (let d := dgI 5 [(1, 1), (1, 0xFF), (2, 0)]
     ItemComes (stP d pAct) d .funcs 0 .any ∧ d.len = 8 ∧ d.zeros [(6, 2)] = true ∧ d.arg 4 1 = 1 ∧ ((stP d pAct).func 1).part = some 0) ∧
    (let d := dgI 6 [(2, 8191), (2, 1)]
     ItemComes (stP d pOpen) d .asids 0 .openOnly ∧ d.len = 8 ∧ d.arg 4 2 + d.arg 6 2 ≤ 8192 ∧
       ∀ y ∈ (stP d pOpen).parts, y.1 ≠ 0 → rangesMeet 8191 1 y.2.asidBase y.2.asidCount = false) ∧
    (let d := dgI 15 [(2, 2), (2, 0), (8, 0x200000)]
     ItemComes (stP d pAct) d .asroot 0 .any ∧ d.len = 16 ∧ d.zeros [(6, 2)] = true ∧ ((stP d pAct).part 0).hasAsid (d.arg 4 2) = true ∧
       d.arg 8 8 % 4096 = 0 ∧ d.arg 8 8 < dramBytes ∧ (stP d pAct).ownerOf (d.arg 8 8) = 0 + 1) ∧
    (∀ n ∈ [0, 1], let d := dgI 14 [(4, 0), (4, 983039), (4, n)]
     acceptedB (stP d pOpen) d .accspill = true ∧ d.len = 16 ∧ d.zeros [(4, 4), (2, 2)] = true ∧ 983039 + n ≤ 983040 ∧
       (∀ k, k < n → Tab.get 0 (stP d pOpen).owner (983039 + k) = 0 + 1) ∧ (stP d pOpen).spilledIn 0 (fun _ => true) = false) ∧
    (let d := dgI 7 [(1, 0), (3, 0), (4, 983038), (4, 2)]
     ItemComes (stP d pAct) d .memGrant 0 .any ∧ d.len = 16 ∧ d.arg 4 1 = 0 ∧ d.zeros [(5, 3)] = true ∧ d.arg 8 4 + d.arg 12 4 ≤ 983040 ∧
       ∀ k, k < 2 → Tab.get 0 (stP d pAct).owner (983038 + k) = 0 ∨ Tab.get 0 (stP d pAct).owner (983038 + k) = 0 + 1) ∧
    (let d := dgI 7 [(1, 1), (3, 0), (4, 983039), (4, 1)]
     ItemComes (stP d pSusp) d .memRelease 0 .rest ∧ d.len = 16 ∧ d.zeros [(5, 3)] = true ∧
       (∀ k, k < 1 → Tab.get 0 (stP d pSusp).owner (983039 + k) = 0 + 1) ∧ (stP d pSusp).spilledIn 0 (fun _ => true) = false) ∧
    (let s : State := { stP (dg 1 3) pAct with mem := [(0x400000, 7)] }
     s.memWf = true ∧ 100 ≤ Tab.get 0 s.owner 2 ∧ s.homeLost (2 * 2 ^ 21) = false ∧ s.podHeldLines 2 = []) ∧
    (let d := dgI 4 [(2, 1), (2, 2), (2, 6), (2, 0xFFFF)]
     ItemComes (stP d pOpen) d .coremap 0 .rest ∧ d.len = 8 + 2 * d.arg 6 2 ∧ d.arg 4 2 ≤ ((stP d pOpen).part 0).cores.length ∧
       (List.range (d.arg 6 2)).map (fun k => d.arg (8 + 2 * k) 2) = [6] ++ List.replicate 1 0xFFFF ∧
       (∀ c ∈ [6], (stP d pOpen).inService c = true ∧ (stP d pOpen).coreTaken 0 c = false)) := by
  refine ⟨itemMeets ?_, itemMeets ?_, itemMeets ?_, itemMeets ?_,
    itemMeets ?_, itemMeets ?_, itemMeets ?_, ?_, itemMeets ?_,
    itemMeets ?_, ?_, itemMeets ?_⟩ <;> decide +kernel

/-- R121: COREMAP from virtual core 1, ended by 0xFFFF. R123: a released granule belongs to nobody until it is zeroed. -/
theorem test_coremap : answers (stP (dgI 4 [(2, 1), (2, 2), (2, 6), (2, 0xFFFF)]) pOpen) .coremap 0 .ok [] (fun t => (t.part 0).cores == [(0, false), (6, false)]) = true := by
  decide +kernel
theorem test_release : answers (stP (dgI 7 [(1, 1), (3, 0), (4, 983039), (4, 1)]) pSusp) .memRelease 0 .ok [] (fun t =>
    t.ownerOf (983039 * 2 ^ 21) != 1 && t.ownerOf (983039 * 2 ^ 21) != 0) = true := by decide +kernel
theorem test_granule : gives { stP (dg 1 3) pAct with mem := [(0x200000, 5), (0x400000, 7)] } (.granuleZeroed 2) (fun t =>
    t.mem == [(0x200000, 5)] && Tab.get 0 t.owner 2 == 0) = true := by decide +kernel

/-- An outstanding load of partition 0's workgroup at 0x300000. -/
def opAt : PipeOp := { id := 4, wg := 0, slot := 0, fib := 0, pc := pc0, lanes := 1, kind := .load 4 false, accs := [⟨0, 0x300000, .global, 0x300000, 0, 0, false, 0⟩] }
/-- Broadcast window 63 of partition 0: the last row, dies 78 and 79. -/
def bw : BWin := { part := 0, writer := 79, row0 := 12287, rows := 1, members := [78, 79] }
def dgBw (op writer : Nat) : Datagram := dgI 17 [(1, 63), (1, op), (2, writer), (4, 12287), (4, 1), (10, 2 ^ 79)]

theorem witness_PartitionResourceResult :
    (∀ k ∈ [0, 1], let d := dgI 11 ([(2, 1), (1, 0), (1, 0)] ++ if k = 0 then [] else [(2, 0)])
     acceptedB (stP d pAct) d .retireExpose = true ∧ (stP d pAct).base.pendingTable = none ∧ pAct.cores[d.arg 4 2]? = some (5, false) ∧
       (d.len = 8 ∨ (d.len = 10 ∧ d.zeros [(8, 2)] = true)) ∧ d.arg 6 1 = 0 ∧ d.zeros [(2, 2), (7, 1)] = true) ∧
    (let d := dgI 11 [(2, 1), (1, 1), (1, 0), (2, 6)]
     ItemComes (stP d pAct) d .retireHide 0 .any ∧ d.len = 10 ∧ d.zeros [(7, 1)] = true ∧ (stP d pAct).inService (d.arg 8 2) = true ∧
       (∀ y ∈ (stP d pAct).parts, ∀ z ∈ y.2.cores, z.1 ≠ d.arg 8 2) ∧ ((stP d pAct).cairnOf 6).cfeat = ((stP d pAct).cairnOf 5).cfeat) ∧
    (∀ n ∈ [95, 255], let d := dgI 12 [(1, n), (1, 255), (1, 0), (1, 0)]
     acceptedB (stP d pAct) d .ttagMap = true ∧ d.len = 8 ∧ d.zeros [(2, 2), (7, 1)] = true ∧ (d.arg 4 1 < 96 ∨ d.arg 4 1 = 0xFF) ∧ 1 ≤ d.arg 5 1 ∧
       (stP d pAct).ttags = []) ∧
    (let d := dgI 12 [(1, 95), (1, 255), (1, 1), (1, 0)]
     let s : State := { stP d pAct with ttags := [(256 * 95 + 255, 1)] }
     ItemComes s d .ttagUnmap 0 .any ∧ Tab.get 0 s.ttags (256 * 95 + 255) = 0 + 1) ∧
    (let d := dgI 13 [(1, 79), (1, 0), (2, 62), (2, 2)]
     ItemComes (stP d pAct) d .fabricGrant 0 .any ∧ d.len = 10 ∧ d.arg 4 1 < 80 ∧ d.arg 6 2 + d.arg 8 2 ≤ 64 ∧ (stP d pAct).releases = [] ∧
       (∀ b ∈ [62, 63], (stP d pAct).blockOwner 79 b = 0 ∨ (stP d pAct).blockOwner 79 b = 0 + 1)) ∧
    (let d := dgI 13 [(1, 79), (1, 1), (2, 63), (2, 1)]
     ItemComes (stP d pSusp) d .fabricRelease 0 .rest ∧ d.len = 10 ∧ (∀ b ∈ [63], (stP d pSusp).blockOwner 79 b = 0 + 1)) ∧
    (∀ m ∈ [0, 1], let d := dgI 16 [(2, 2), (1, m), (1, 0), (8, 0x300000), (8, 0x10000)]
     let s : State := { stP d pAct with
       wgs := [(0, some { launch := { asid := 2 } })], pipe := [opAt], tlb := [⟨0, 2, 48, 16, ⟨.global, 0, true, true, true, true⟩⟩] }
     acceptedB s d .tlbinv = true ∧ d.len = 24 ∧ pAct.hasAsid (d.arg 4 2) = true ∧ d.arg 6 1 < 2 ∧ d.zeros [(2, 2), (7, 1)] = true ∧
       d.arg 8 8 % 65536 = 0 ∧ d.arg 16 8 % 65536 = 0 ∧ (s.wg opAt.wg).launch.asid = d.arg 4 2 ∧
       (0x300000 < d.arg 8 8 + d.arg 16 8 ∧ d.arg 8 8 < 0x300000 + 512)) ∧
    (let d := dgBw 0 79
     ItemComes (stP d pOpen) d .bwinCreate 0 .rest ∧ d.len = 26 ∧ d.arg 5 1 = 0 ∧ 1 ≤ d.arg 12 4 ∧ d.arg 8 4 + d.arg 12 4 ≤ 12288 ∧ (stP d pOpen).memWf = true ∧
       Tab.get none (stP d pOpen).bwins 63 = none ∧ d.arg 6 2 ∈ (List.range 80).filter (fun m => bitAt (d.arg 16 10) m) ∧
       (∀ x ∈ ({ bw with members := [79] } : BWin).granuleList, Tab.get 0 (stP d pOpen).owner x = 0 + 1)) ∧
    (let s (d : Datagram) : State := { stP d pSusp with bwins := [(63, some bw)] }
     (ItemComes (s (dgBw 1 79)) (dgBw 1 79) .bwinDestroy 0 .rest ∧ Tab.get none (s (dgBw 1 79)).bwins 63 = some bw) ∧
     ItemComes (s (dgBw 2 78)) (dgBw 2 78) .bwinSetWriter 0 .any ∧ (dgBw 2 78).arg 6 2 ∈ bw.members) := by
  refine ⟨?_, itemMeets ?_, ?_, itemMeets ?_, itemMeets ?_,
    itemMeets ?_, ?_, itemMeets ?_, itemMeets ?_, itemMeets ?_⟩ <;> decide +kernel

/-- R129: the hidden core takes the virtual core's place. R60: a tag on every port. R251: a window names its granules by row and die. -/
theorem test_retire : answers (stP (dgI 11 [(2, 1), (1, 1), (1, 0), (2, 6)]) pAct) .retireHide 0 .ok [] (fun t =>
    (t.part 0).cores == [(0, false), (6, false)] && (t.cairnOf 5).serv == .retired) = true := by decide +kernel
theorem test_bwin : answers (stP (dgBw 0 79) pOpen) .bwinCreate 0 .ok [] (fun t =>
    decide (Tab.get none t.bwins 63 = some ⟨0, 79, 12287, 1, [79]⟩)) = true := by decide +kernel

/-! ### Yilbel ports, telemetry and diagnosis -/

/-- The module with one port. -/
def stY (p : Port) (d : Datagram := dg 0 3) (n : Nat := 95) : State := { stC d with ports := [(n, p)], ttags := [(256 * 95 + 255, 1)] }
/-- The link key in both directions. -/
def linked (p : Port) : Port := { p with txKeys := Tab.set none p.txKeys 0 (some 9), rxKeys := Tab.set none p.rxKeys 0 (some 9) }
/-- A control flit under the link key. -/
def ctlFlit (seq : Nat) (ok : Bool := true) (ackseq : Nat := 65535) (kidx : Nat := 0) : Flit := ⟨0, kidx, 0, seq, ackseq, 0, 0, ok, []⟩
/-- YPORT on port 95. -/
def dgY (op v : Nat) : Datagram := dg 0 0x41 [(1, 95), (1, op), (6, 0), (8, v)]
/-- A message of another module. -/
def msg (chan opc addr : Nat) (arg : BitVec 84 := 0) (sm : BitVec 4 := 0) (mask : BitVec 256 := 0) (data : List Byte := []) : Msg :=
  Msg.checked ⟨chan, opc, sm, 0, 5, 1, addr, arg, mask, data⟩
/-- Flits kept for resending. -/
def kept (n : Nat) (resends : Nat := 0) : List SentFlit := (List.range n).map fun k => ⟨k, 255, 1, k, 0, 0, 0, .msgs [], resends⟩
def dgYkey (dir : Nat) : Datagram := dg 0 0x40 [(1, 95), (1, dir), (1, 255), (1, 1), (28, 0), (32, 2 ^ 255)]

theorem witness_PortCommandResult :
    (∀ x ∈ [(0, Instr.fixed), (1, .switched), (2, .enable), (3, .disable), (4, .peer), (6, .read)],
      acceptedB (stY {} (dgY x.1 7)) (dgY x.1 7) x.2 = true ∧ (dgY x.1 7).len = 16 ∧ (dgY x.1 7).zeros [(2, 6)] = true ∧
        ((stY {}).port 95).st = .disabled ∧ ((stY {}).port 95).cmd = none ∧ (stY {}).fixedPorts 95 < 32) ∧
    (∀ x ∈ [(2047, Instr.route), (2048, .routeClear), (4095, .routeClear)], acceptedB (stY {} (dgY 5 x.1)) (dgY 5 x.1) x.2 = true ∧ (dgY 5 x.1).len = 16 ∧
      (dgY 5 x.1).arg 8 8 = x.1) ∧
    (∀ k ∈ [0, 1], acceptedB (stY {} (dgYkey k)) (dgYkey k) .ykey = true ∧ (dgYkey k).len = 64 ∧ (dgYkey k).arg 3 1 < 2 ∧ (dgYkey k).zeros [(4, 28)] = true ∧
      (dgYkey k).arg 1 1 = k) ∧
    (∀ t ∈ [none, some 2], let d := dg 0 0x42 [(1, 95), (3, 0), (4, 0), (4, 7)]
     let s := stY { st := .active, training := t } d
     acceptedB s d .yquiesce = true ∧ d.len = 12 ∧ d.zeros [(1, 3)] = true ∧ (s.port 95).fixed = false ∧ (s.port 95).quiescing = false) ∧
    (let d := dg 0 0x43 [(1, 95), (7, 0), (8, 9), (32, 5)]
     Accepted (stY { st := .hold } d) d .yresume ∧ d.len = 48 ∧ d.zeros [(1, 7)] = true) ∧
    (let d := dg 0 0x44 [(4, 2 ^ 32 - 1), (1, 0), (1, 255), (1, 1), (1, 0), (2, 0xFFFF), (2, 0xFFFF), (4, 0), (2, 5), (2, 95)]
     Accepted (stY {} d) d .treealloc ∧ d.arg 0 4 ≠ 0 ∧ d.len = 16 + 4 * d.arg 6 1 ∧ d.zeros [(7, 1), (12, 4)] = true ∧ d.arg 8 2 = 0xFFFF ∧
       (∀ k, k < 1 → d.arg (18 + 4 * k) 2 < 96) ∧ ((stY {} d).part 0).st ≠ .free ∧ (stY {} d).trees = []) ∧
    (let d := dg 0 0x45 [(4, 7)]
     let s : State := { stY {} d with trees := [⟨7, 0, 255, none, []⟩], entries := [(3, { st := .posted, tree := 8 })] }
     Accepted s d .treefree ∧ d.len = 4 ∧ (∃ t ∈ s.trees, t.id = d.arg 0 4) ∧ ∀ e ∈ s.entries, e.2.st = .free ∨ e.2.tree ≠ d.arg 0 4) := by
  refine ⟨?_, ?_, ?_, ?_, meets ?_, meets ?_, meets ?_⟩ <;> decide +kernel

/-- R43: a 33rd port is not marked fixed; a port that is not DISABLED keeps its mark. -/
theorem test_port_mark :
    (let s : State := { stY {} (dgY 0 7) with ports := (List.range 32).map fun k => (k, { fixed := true }) }
     acceptedB s (dgY 0 7) .fixed = true ∧ (s.port 95).st = .disabled ∧ 32 ≤ s.fixedPorts 95 ∧
       answers s .fixed 0 .nospace [] (fun t => !(t.port 95).fixed) = true) ∧
    answers (stY { st := .down } (dgY 0 7)) .fixed 0 .busy [] (fun t => !(t.port 95).fixed) = true ∧
    answers (stY { st := .down, fixed := true } (dgY 1 7)) .switched 0 .busy [] (fun t => (t.port 95).fixed) = true := by decide +kernel

/-- R74: a port answers YPSTAT and YPEER: state 8, then with ENABLE state 0. R63: YQUIESCE of an ACTIVE port starts its drain. -/
theorem test_yport_read : answers (stY { events := 0x80, peer := 7 } (dgY 6 0)) .read 0 .ok [(4, 8 * 2 ^ 28 + 2 ^ 16), (4, 0), (8, 7)] = true := by decide +kernel
theorem test_yport_enable : answers (stY {} (dgY 2 0)) .enable 0 .ok [(4, 0), (4, 0), (8, 0)] (fun t => (t.port 95).st == .down) = true := by decide +kernel
theorem test_ykey : answers (stY {} (dgYkey 1)) .ykey 0 .ok [] (fun t => decide (Tab.get none (t.port 95).rxKeys 511 = some (BitVec.ofNat 256 (2 ^ 255)))) = true := by
  decide +kernel

def dgTel (a n : Nat) : Datagram := dg 0 0x51 [(8, a), (4, n)]
def dgTelW (a v : Nat) : Datagram := dg 0 0x52 [(8, a), (4, v)]

theorem witness_TelemetryResult :
    (let d := dgTel (2 ^ 20 - 8192) 8192
     Accepted (stC d) d .telread ∧ d.len = 12 ∧ 1 ≤ d.arg 8 4 ∧ d.arg 8 4 ≤ 8192 ∧ d.arg 0 8 + d.arg 8 4 ≤ 2 ^ 20) ∧
    (∀ a ∈ [0x100 + 32 * 83 + 16, 0x1000 + 16 * 95, 2 ^ 20 - 4], acceptedB (stC (dgTelW a 1)) (dgTelW a 1) .telwrite = true ∧ (dgTelW a 1).len = 12 ∧
      (dgTelW a 1).arg 0 8 % 4 = 0 ∧ (dgTelW a 1).arg 0 8 + 4 ≤ 2 ^ 20) ∧
    ((∀ k, k < 84 → 2 ^ 20 - 4 ≠ 0x100 + 32 * k + 16) ∧ ∀ k, k < 96 → 2 ^ 20 - 4 ≠ 0x1000 + 16 * k) :=
  ⟨meets (by decide +kernel), by decide +kernel, by decide +kernel⟩

/-- R32: the serial number stands at 8; R74: reading port 95's YPSTAT clears its RETRY, and writing one clears an event. -/
theorem test_telread : answers (stY { retry := 3 } (dgTel (0x1000 + 16 * 95) 1)) .telread 0 .ok [(1, 3)] (fun t => (t.port 95).retry == 0) = true := by decide +kernel
theorem test_telwrite : answers (stY { events := 0x81 } (dgTelW (0x1000 + 16 * 95) (2 ^ 16))) .telwrite 0 .ok [] (fun t => (t.port 95).events == 1) = true := by
  decide +kernel

/-- A fibre stopped by TRAP, its record number 2, and the module with it and a datagram. -/
def fibT : Fibre := { fibA with st := .frozen, frozenBy := some (2, 0x0C) }
def stD (d : Datagram) (fa : Fibre := fibT) : State :=
  let s := stW (wgA fa fibB)
  { s with
    focus := none, rx := [d], funcs := fns
    parts := s.parts.map fun x => (x.1, { x.2 with faultQ := [(2, leBytes 64 (pc0 * 2 ^ 64))], diags := [(2, [7, 8])], image := some [4, 5, 6] }) }
/-- DIAG on partition 0's record 2. -/
def dgD (sub off : Nat) : Datagram := dg 0 0x23 [(1, sub), (1, 0), (2, 0), (4, 2), (8, off)]
/-- The partition frozen. -/
def thawing (s : State) : State := { s with tick := 50, parts := s.parts.map fun x => (x.1, { x.2 with frozen := true, frozenAt := [(0, 20)] }) }

theorem witness_DiagnosticCommandResult :
    (∀ x ∈ [(0, Instr.diagResume), (1, .diagContinue), (2, .discard), (3, .diagread), (4, .pfreeze), (5, .pthaw), (6, .dumpread)],
      acceptedB (stD (dgD x.1 1)) (dgD x.1 1) x.2 = true ∧ (dgD x.1 1).len = 16 ∧ (dgD x.1 1).zeros [(1, 1)] = true ∧ (dgD x.1 1).arg 2 2 < 32 ∧
        ((stD (dgD x.1 1)).part 0).st ≠ .free) ∧
    (let d : Datagram := { dgD 0 0 with func := 1 }
     let s : State := { stD d with parts := (stD d).parts.map fun x => (x.1, { x.2 with eventFn := some 1 }) }
     Accepted s d .diagResume ∧ (s.part 0).eventFn = some d.func) ∧
    (let s := stD (dgD 0 0)
     s.frozenFib 0 2 = some (0, 0, 0, 0x0C) ∧ s.outstanding 0 0 0 = false ∧ (s.wg 0).place = .resident ∧ FaultCode.trap.num = 0x0C ∧
       (s.part 0).faultQ.find? (fun y => y.1 == 2) = some (2, leBytes 64 (pc0 * 2 ^ 64)) ∧ (s.part 0).diags.find? (fun y => y.1 == 2) = some (2, [7, 8]) ∧
       (s.part 0).image = some [4, 5, 6] ∧ (s.part 0).frozen = false ∧ s.base.frozen = none ∧ ((thawing s).part 0).frozen = true) :=
  ⟨by decide +kernel, meets (by decide +kernel), by decide +kernel⟩

/-- R331: RESUME starts at the restart point; CONTINUE behind the word of the record (latches invalid, R332). R334: PTHAW shifts the clocks. -/
theorem test_resume : answers (stD (dgD 0 0) { fibT with restart := pc0 + 8, f := [(3, 1)] }) .diagResume 0 .ok [] (fun t =>
    (t.fib 0 0 0).st == .waiting && (t.fib 0 0 0).pcAt 15 == pc0 + 8 && (t.fib 0 0 0).flagAt 3 == 0) = true := by decide +kernel
theorem test_continue : answers (stD (dgD 1 0)) .diagContinue 0 .ok [] (fun t => (t.fib 0 0 0).pcAt 15 == pc0 + 1 && (t.fib 0 0 0).latches == []) = true := by
  decide +kernel
theorem test_thaw : answers (thawing (stD (dgD 5 0) { fibT with lastIssue := 15 })) .pthaw 0 .ok [] (fun t =>
    (t.fib 0 0 0).lastIssue == 45 && !(t.part 0).frozen) = true := by decide +kernel
theorem test_dumpread : answers (stD (dgD 6 1)) .dumpread 0 .ok [(1, 5), (1, 6)] = true := by decide +kernel

/-- A port in a state, with the link key, in the module. -/
def stT (st : PortSt) (f : Port → Port := id) : State := stY (linked (f { st := st, carrier := 3, lanes := 3, rxSeq := 65535 }))

theorem witness_PortTrainingResult :
    (∀ st ∈ [PortSt.down, .train, .ident, .active, .drain, .hold, .verify, .fault],
      ((stT st).port 95).st = st ∧ (stT st).portsQuiet ∧ Tab.get none ((stT st).port 95).rxKeys (ctlFlit 65535).kidx ≠ none ∧
        (ctlFlit 65535).seq = ((stT st).port 95).rxSeq ∧ (ctlFlit 65535).ok = true) ∧
    (∀ s ∈ [stT .train, stT .verify fun p => { p with lanes := 0 }],
      ((s.port 95).st = .train ∨ ((s.port 95).st = .verify ∧ (s.port 95).lanes = 0)) ∧ (s.port 95).carrier ≠ 0) ∧
    (∀ s ∈ [stT .ident, stT .verify fun p => { p with peer := 7, cmd := some (0, 9) }],
      let u : State := { s with funcs := [(0, { fnOf none with busy := [(9, 5, 4000)] })] }
      ((u.port 95).st = .ident ∨ ((u.port 95).st = .verify ∧ (u.port 95).lanes ≠ 0)) ∧ ((u.port 95).peer = 0 ∨ (u.port 95).peer = 7) ∧
        (u.func 0).busy.find? (fun b => b.1 == 9) = some (9, 5, 4000) ∧ (∀ r ∈ u.netReqs, r.port ≠ 95)) ∧
    ((stT .verify fun p => { p with peer := 7 }).port 95).peer ≠ 8 ∧
    ((stT .active fun p => { p with training := some 2 }).port 95).training = some 2 ∧ ((stT .active).port 95).training = none ∧
    ((stT .drain).port 95).quiescing = false ∧ ((stT .drain fun p => { p with quiescing := true }).port 95).quiescing = true := by
  and_intros <;> (try unfold State.portsQuiet) <;> decide +kernel

/-- R48, R50: training ends in the identities; the awaited one makes the port ACTIVE, another a FAULT that is reported. R62: two retrains
before the first completes. -/
theorem test_training : gives (stT .train fun p => { p with ownRate := 1, lanes := 0 }) (.trainingFlit ⟨95, ctlFlit 0⟩ 2) (fun t =>
    (t.port 95).st == .ident && (t.port 95).rate == 2 && (t.port 95).lanes == 3) = true := by decide +kernel
theorem test_mismatch : gives (stT .ident fun p => { p with peer := 7 }) (.identityFlit 95 (ctlFlit 0) 8) (fun t =>
    (t.port 95).st == .fault && (t.func 0).events.map (fun e => (leAt e.2 0 2, leAt e.2 16 4, leAt e.2 20 2)) == [(5, 0x0106, 95 + 256 * 11)]) = true := by
  decide +kernel
theorem test_retrain : gives (stT .active fun p => { p with training := some 1, heldRates := [2], replay := kept 1 }) (.retrainComplete 95) (fun t =>
    (t.port 95).rate == 1 && (t.port 95).training == some 2 && (t.port 95).retry == 1 && (t.port 95).replay.map (·.resends) == [1]) = true := by decide +kernel

/-- An ACTIVE port with the link key and a receive key for tag 255, index 1. -/
def pUp : Port := linked { st := .active, lanes := 3, carrier := 3, rxKeys := [(511, some 1)], rxSeq := 65535, fixed := true }
def flit (kidx seq : Nat) (ok : Bool) : Flit := ⟨255, kidx, 0, seq, 65535, 0, 0, ok, [msg 2 1 0, msg 1 1 0]⟩

theorem witness_PortTrafficResult :
    ((stY pUp).port 95).st = .active ∧ ((stY pUp).port 95).training = none ∧ Tab.get 0 (stY pUp).ttags (256 * 95 + 255) ≠ 0 ∧
    Tab.get none pUp.rxKeys (2 * 255 + 1) ≠ none ∧ Tab.get none pUp.rxKeys (2 * 255 + 0) = none ∧ (stY pUp).portsQuiet ∧
    ((flit 1 65535 true).ok = true ∧ (flit 1 65535 true).seq = pUp.rxSeq ∧ ((flit 1 65535 true).msgs.map Msg.granules).sum ≤ 15) ∧
    ((flit 1 0 true).seq ≠ pUp.rxSeq ∧ (flit 1 65535 false).ok = false) ∧ (Tab.get none pUp.rxKeys (ctlFlit 0).kidx ≠ none ∧
      Tab.get none pUp.rxKeys (ctlFlit 0 true 0 1).kidx = none ∧ (ctlFlit 65535).seq = pUp.rxSeq ∧ (ctlFlit 0).seq ≠ pUp.rxSeq) ∧
    (∀ m ∈ [15, 14], ((stY { pUp with misses := m }).port 95).misses = m) ∧
    (((kept 2).filter fun f => !seqUpTo f.seq 2) = [] ∧ ((kept 2 7).filter fun f => !seqUpTo f.seq 0) ≠ [] ∧ (∀ f ∈ kept 2 7, f.resends < 8) ∧
      ∃ f ∈ (kept 2 8).filter fun f => !seqUpTo f.seq 0, 8 ≤ f.resends) ∧
    (let p : Port := { pUp with rekeys := [(255, 1, false)], inUse := [(255, 1)] }
     p.rekeys = [(255, 1, false)] ∧ Tab.get 0 p.inUse 255 < 2 ∧ (∀ x ∈ kept 1, x.ttag = 255 → x.kidx = 1) ∧ ∃ x ∈ kept 1, x.ttag = 255 ∧ x.kidx ≠ 0) ∧
    (let p : Port := { pUp with inUse := [(255, 1)], fctr := [(511, 0xFFFFFFFF0000)] }
     Tab.get 0 p.inUse 255 = 1 ∧ 0xFFFFFFFF0000 ≤ Tab.get 0 p.fctr (2 * 255 + 1) ∧ 2 * 255 + 1 ∉ p.spent) ∧
    Tab.get false ({ pUp with rxNew := [(255, true)] } : Port).rxNew 255 = true ∧ 100 ≤ ({ pUp with silent := 100 } : Port).silent ∧
    pUp.carrier ≠ 0 ∧ (pUp.lanes &&& ~~~(1#2 <<< 1)) ≠ pUp.lanes ∧ (1#2 &&& ~~~(1#2 <<< 0)) = 0 := by
  and_intros <;> (try unfold State.portsQuiet) <;> decide +kernel

/-- R52, R58: flit 0 follows flit 65,535; a flit out of order is asked for again; the sixteenth miss is a FAULT. R58: the ninth resend too. -/
theorem test_flit : gives (stY pUp) (.messageFlit 95 (flit 1 65535 true)) (fun t => (t.port 95).rxSeq == 0 && t.inbox.map (fun x => x.2.2.chan) == [2]) = true := by
  decide +kernel
theorem test_flit_bad : gives (stY { pUp with txKeys := [] }) (.messageFlit 95 (flit 1 0 true)) (fun t =>
    (t.port 95).ctl == [.retry] && (t.port 95).rxSeq == 65535 && t.inbox == []) = true := by decide +kernel
theorem test_flit_miss : gives (stY { pUp with misses := 15 }) (.messageFlit 95 (flit 0 65535 true)) (fun t =>
    (t.port 95).st == .fault && (t.func 0).events.length == 1) = true := by decide +kernel
theorem test_resend : gives (stY { pUp with replay := kept 2 8 }) (.ackTimeout 95) (fun t =>
    (t.port 95).st == .fault && (t.port 95).replay.all (fun f => f.msgs.isEmpty)) = true := by decide +kernel

/-! ### Operations that perform, order points and line data -/

/-- An operation of fibre 0 with one access left of each given lane. -/
def opK (k : PipeKind) (accs : List LaneAcc) (dst : Option Operand := none) (regs : Nat := 1) : PipeOp :=
  { id := 4, wg := 0, slot := 0, fib := 0, pc := pc0, lanes := 0x8001, kind := k, accs := accs, dst := dst, regs := regs, flag := some 3 }
/-- An access of a lane to global memory, to the local store, to another module, and to a device page. -/
def aG (l pa : Nat) (x : Nat := 0) (y : Nat := 0) : LaneAcc := ⟨l, pa, .global, pa, x, y, false, 0⟩
def aL (l pa : Nat) (x : Nat := 0) : LaneAcc := ⟨l, pa, .localStore, pa, x, 0, false, 0⟩
def aPod (l m pa : Nat) (x : Nat := 0) : LaneAcc := ⟨l, pa, .pod m, pa, x, 0, false, 0⟩
def aD (l pa : Nat) (x : Nat := 0) : LaneAcc := ⟨l, pa, .device, pa, x, 0, false, 0⟩
/-- The module with that operation: die 0 holds line 0x3000 in M, module 2's line 0x3000 too, and memory holds 0x80 at 0x3000FF. -/
def stO (o : PipeOp) (k : Moesi := .m) : State :=
  let s := st { fibA with f := [(3, 2)] } fibB
  let s1 : State := { s with focus := none, pipe := [o], mem := [(0x3000FF, 0x80)], podLines := [] }
  (s1.setDieLine 0 0x3000 { st := k, fill := 0xF }).setPodLine 2 0x3000 { st := .m, fill := 0xF }

/-- `OneAccess`, decided. -/
def oneB (s : State) (o : PipeOp) (i : Nat) (a : LaneAcc) (sel : LaneAcc → Bool) : Bool :=
  decide (s.pipe.find? (fun x => x.id == o.id) = some o) && decide (o.accs[i]? = some a ∧ a.done = false) &&
  o.accs.zipIdx.all (fun x => sel x.1 == decide (x.2 = i)) && decide (s.accBlocked o i a = false ∧ s.accLost o a = false) &&
  s.accReady o a false &&
  match o.kind with | .load .. => decide (s.accBad o a = none) | .atomic _ => decide (s.firstBad o a = none) | _ => true

theorem one {s : State} {o : PipeOp} {i : Nat} {a : LaneAcc} {sel : LaneAcc → Bool} (e : oneB s o i a sel = true) : OneAccess s o i a sel := by
  rw [oneB, Bool.and_eq_true] at e
  obtain ⟨e, g⟩ := e
  simp only [Bool.and_eq_true, decide_eq_true_eq, List.all_eq_true] at e
  refine ⟨e.1.1.1.1, e.1.1.1.2, fun j b hb => ?_, e.1.2.1, e.1.2.2, e.2, ?_⟩
  · have h := e.1.1.2 (b, j) (List.mk_mem_zipIdx_iff_getElem?.2 hb)
    simp only [beq_iff_eq] at h
    simp [h]
  · cases h : o.kind <;> simp [h] at g ⊢ <;> exact g

/-- The operations of the tests: two lanes of a load at the ends of memory and of the local store, stores, an atomic, and stores to the
trigger windows of counters 63 of die 0 (add area and set area). -/
def oLd : PipeOp := opK (.load 1 true) [aG 0 0x3000FF, aG 15 0x300000] (some (.v 8))
def oLdL : PipeOp := opK (.load 4 false) [aL 0 4092] (some (.s 9))
def oStG : PipeOp := opK (.store 4) [aG 0 0x3000FC 0x11223344]
def oStL : PipeOp := opK (.store 8) [aL 15 4088 7]
def oStP : PipeOp := opK (.store 4) [aPod 0 2 0x3000FC 0x11223344]
def oCas : PipeOp := opK (.atomic ⟨.cas, false, false, false⟩) [aG 0 0x3000FC 0x80000000 5] (some (.v 8))
def oAdd : PipeOp := opK (.store 8) [aD 0 (0xF000000000 + 8 * 63) 3]
def oSet : PipeOp := opK (.store 8) [aD 0 (0xF000000000 + 0x8000 + 8 * 63) 3]

theorem witness_AccessPerforms :
    OneAccess (stO oLd) oLd 0 (aG 0 0x3000FF) (ofLanes 1 oLd) ∧ OneAccess (stO oLdL) oLdL 0 (aL 0 4092) (ofLanes 0xFFFF oLdL) ∧
    ((stO oLd).before oLd = [] ∧ (stO oLd).accs = []) ∧
    (∀ x ∈ [(oStG, aG 0 0x3000FC 0x11223344), (oStL, aL 15 4088 7), (oStP, aPod 0 2 0x3000FC 0x11223344)],
      OneAccess (stO x.1) x.1 0 x.2 (fun b => ofLanes 0xFFFF x.1 b && !b.atWindow) ∧ x.2.atWindow = false) ∧
    OneAccess (stO oCas) oCas 0 (aG 0 0x3000FC 0x80000000 5) (ofLanes 1 oCas) ∧
    (OneAccess (stO oAdd) oAdd 0 (aD 0 (0xF000000000 + 8 * 63) 3) (fun b => b.atWindow && !windowSets b.pa) ∧ windowSets (0xF000000000 + 8 * 63) = false) ∧
    OneAccess (stO oSet) oSet 0 (aD 0 (0xF000000000 + 0x8000 + 8 * 63) 3) (fun b => b.atWindow && windowSets b.pa) := by
  refine ⟨one (by decide +kernel), one (by decide +kernel), by decide +kernel, ?_, one (by decide +kernel), ⟨one (by decide +kernel), by decide +kernel⟩,
    one (by decide +kernel)⟩
  intro x hx
  simp only [List.mem_cons, List.mem_nil_iff, or_false] at hx
  rcases hx with rfl | rfl | rfl <;> exact ⟨one (by decide +kernel), by decide +kernel⟩

/-- R402: a load of one byte of two stays until the other is made. R403, R407: the bytes of a store; CAS that finds its value stores
the new one and returns the old. R209: the flag counts down at the end of the cycle. R177: the add area adds. -/
theorem test_load_first : gives (stO oLd) (.loadPerform 4 1) (fun t =>
    t.pipe.map (fun o => o.accs.map (fun a => (a.done, a.val))) == [[(true, 0xFFFFFF80), (false, 0)]] && (t.fib 0 0 0).vAt 8 0 == 0) = true := by decide +kernel
theorem test_load_all : gives (stO oLd) (.loadPerform 4 0x8001) (fun t =>
    t.pipe == [] && (t.fib 0 0 0).vAt 8 0 == 0xFFFFFF80 && (t.fib 0 0 0).flagAt 3 == 2 && (t.fib 0 0 0).timers.length == 1) = true := by decide +kernel
theorem test_store : gives (stO oStG) (.storePerform 4 0xFFFF) (fun t => t.mem == [(0x3000FC, 0x44), (0x3000FD, 0x33), (0x3000FE, 0x22), (0x3000FF, 0x11)]) = true := by
  decide +kernel
theorem test_cas : gives (stO oCas) (.atomicPerform 4 1) (fun t => t.mem == [(0x3000FC, 5)] && (t.fib 0 0 0).vAt 8 0 == 0x80000000) = true := by decide +kernel
theorem test_window_add : gives (stO oAdd) (.triggerWindowAdd 4) (fun t => (t.counter 0 63).value == 3 && t.mem == (stO oAdd).mem) = true := by decide +kernel

/-- A FACC of FP32 1.5 at an element without an entry; its line is pinned. -/
def oAcc : PipeOp := opK (.accum .f32) [aG 0 0x3000FC 0x3FC00000]
def stAcc (o : PipeOp) : State := (stO o).setHome 0x3000 { pinned := true }
def oClr : PipeOp := opK (.accClear .f32) [aG 0 0x3000FC]
def oDiv : PipeOp := opK (.divide 0x21) [⟨0, 0, .localStore, 0, 0, 0, true, 7⟩] (some (.v 8))
def oStbP : PipeOp := opK (.stb 4 0) [⟨0, 0, .broadcast, 63 * 2 ^ 40 + 2 ^ 21 - 4, 0x11223344, 0, false, 0⟩]
def stStb (tick : Nat) : State := { stO oStbP with tick := tick, bwins := [(63, some bw)] }
/-- Four table levels of address space 0; the fourth gives the 2-MiB page at 0x200000. -/
def stWalk (page : Nat) : State :=
  let e (a v : Nat) (m : Tab Byte) : Tab Byte := Memory.write m a (leBytes 8 v)
  { stO oDiv with
    mem := e 0x400000 (2 ^ 61 + 0x401000) (e 0x401000 (2 ^ 61 + 0x402000) (e 0x402000 (2 ^ 61 + 0x403000) (e 0x403008 (2 * 2 ^ 61 + 0x200000 + 0x1E) [])))
    parts := [(0, { st := .active, asidCount := 1, roots := [(0, 0x400000)] })], walks := [(0, 0, page)] }

theorem witness_OperationPerforms :
    (OneAccess (stAcc oAcc) oAcc 0 (aG 0 0x3000FC 0x3FC00000) (fun b => ofLanes 1 oAcc b && ofHalves 3 oAcc b) ∧ (∀ b ∈ oAcc.accs, (stAcc oAcc).clashes .f32 b = false) ∧
      (stAcc oAcc).sumsBad oAcc.accs = none ∧ (stAcc oAcc).roomFor .f32 oAcc.accs = true ∧ ((stAcc oAcc).accumulateAt 0x3000FC .f32 id).isSome = true ∧
      (stAcc oAcc).sliceUse (sliceOf 0x3000FC) + 7 ≤ 4096 ∧ (stAcc oAcc).accAt 0x3000FC = none) ∧
    (OneAccess (stO oClr) oClr 0 (aG 0 0x3000FC) (fun b => ofLanes 1 oClr b && ofHalves 3 oClr b) ∧ ∀ b ∈ oClr.accs, (stO oClr).clashes .f32 b = false) ∧
    (stO oDiv).pipe.find? (fun x => x.id == oDiv.id) = some oDiv ∧
    ((stStb 77).pipe.find? (fun x => x.id == oStbP.id) = some oStbP ∧ 0 + 3 ≤ (stStb 77).frame ∧ (stStb 76).frame < 0 + 3 ∧
      Tab.get none (stStb 77).bwins ((63 * 2 ^ 40 + 2 ^ 21 - 4) / 2 ^ 40) = some bw ∧ (∀ e ∈ bw.members, e < 80) ∧ (63 * 2 ^ 40 + 2 ^ 21 - 4) % 2 ^ 21 + 4 ≤ 2 ^ 21) ∧
    ((0, 0, 63) ∈ (stWalk 63).walks ∧ (stWalk 63).asidPart 0 = some 0 ∧ walk (stWalk 63) 0 0 (63 * 65536) = .leaf 21 ⟨.global, 0x200000, true, true, true, true⟩ ∧
      walk (stWalk 64) 0 0 (64 * 65536) = .fail 3 none ∧
      (match walk { stWalk 63 with failing := [(0x402000 / 64, true)] } 0 0 (63 * 65536) with | .fail _ bad => bad.isSome | _ => false) = true) := by
  refine ⟨⟨one (by decide +kernel), ?_⟩, ⟨one (by decide +kernel), ?_⟩, ?_, ?_, ?_⟩ <;> decide +kernel

theorem witness_OperationPerforms_full :
    let e : TlbEnt := ⟨0, 0, 1, 16, ⟨.global, 0, true, true, true, true⟩⟩
    let mine := (List.replicate 8192 e).filter fun x => x.die == 0
    mine = e :: List.replicate 8191 e ∧ 8192 ≤ mine.length := by
  have h : ∀ (e : TlbEnt) n, e.die = 0 → ((List.replicate (n + 1) e).filter fun x => x.die == 0) = e :: List.replicate n e := by
    intro e n he
    simp [he, List.replicate_succ]
  have len : ∀ (e : TlbEnt) n, e.die = 0 → ((List.replicate (n + 1) e).filter fun x => x.die == 0).length = n + 1 := fun e n he =>
    (congrArg List.length (h e n he)).trans (congrArg (· + 1) List.length_replicate)
  exact ⟨h _ 8191 rfl, Nat.le_of_eq (len _ 8191 rfl).symm⟩

/-- R286: an accumulate keeps memory and adds exactly. R251, R252: STB writes both replicas. R306: a division's flags become sticky. -/
theorem test_facc : gives (stAcc oAcc) (.accumulatePerform 4 ⟨1, 3⟩) (fun t =>
    (t.accAt 0x3000FC).map (fun e => e.n) == some (3 * 2 ^ 148) && t.mem == (stAcc oAcc).mem && t.pipe == []) = true := by decide +kernel
theorem test_stb : gives (stStb 77) (.stbPerform 4) (fun t =>
    Memory.read t.mem (983038 * 2 ^ 21 + 2 ^ 21 - 4) 4 == 0x11223344 && Memory.read t.mem (983039 * 2 ^ 21 + 2 ^ 21 - 4) 4 == 0x11223344) = true := by decide +kernel
theorem test_divide : gives (stO oDiv) (.divideComplete 4) (fun t => (t.fib 0 0 0).fpstat == 0x21 && (t.fib 0 0 0).vAt 8 0 == 7) = true := by decide +kernel

/-- A request of die 79 for line 0x3003 at its order point; die 5 holds the line. -/
def ord (k : OrderKind) : OrderReq := ⟨k, 0, 1, 79, 0x3003, 0xF, 0, 5⟩
def stOrd (k : OrderKind) (mine other : Moesi) (h : HomeOwner) : State :=
  let s : State := { tick := 77, orderQ := [ord k], mem := [(0x300300, 7)] }
  ((s.setDieLine 79 0x3003 { st := mine, dirty := if mine = .m then 1 else 0 }).setDieLine 5 0x3003 { st := other }).setHome 0x3003 { owner := h }

/-- The order points of the statement. -/
def ords : List (State × OrderKind) :=
  [(stOrd .rds .i .m (.em 5), .rds), (stOrd .rds .i .i .none, .rds), (stOrd .rdx .i .m (.em 5), .rdx), (stOrd .own .s .s .shared, .own),
   (stOrd .upg .s .s .shared, .upg), (stOrd .putm .m .i (.em 79), .putm), (stOrd .putm .s .s .shared, .putm), (stOrd .puto .o .s (.o 79), .puto),
   (stOrd .puto .i .m (.em 5), .puto), (stOrd .pin .i .m (.em 5), .pin), (stOrd .rds .s .o (.o 5), .rds), (stOrd .putm .o .s (.o 79), .putm)]

theorem witness_OrderPointResult :
    (∀ x ∈ ords, x.1.memWf = true ∧ x.1.nextOrdered 3 = some (ord x.2) ∧ (x.1.home 0x3003).pinned = false ∧ (ord x.2).line < 2 ^ 40 ∧ (ord x.2).die < 80 ∧
      ∀ o ∈ x.1.pipe, ∀ a ∈ o.accs, a.space = .global → lineOf a.pa ≠ 0x3003) ∧
    ords.map (fun x => (x.1.home 0x3003).owner == .none) = [false, true, false, false, false, false, false, false, false, false, false, false] ∧
    (let s := (stOrd .rds .i .i .none).setHome 0x3003 { pinned := true }
     (s.home 0x3003).pinned = true ∧ s.nextOrdered 3 = some (ord .rds)) := by
  refine ⟨?_, ?_, ?_⟩ <;> decide +kernel

/-- R246: RDS takes M to O and shares; RDX leaves one copy. R250: PUTM gives the line back. -/
theorem test_rds : gives (stOrd .rds .i .m (.em 5)) (.rds 3) (fun t =>
    (t.dieLine 5 0x3003).st == .o && (t.dieLine 79 0x3003).st == .s && t.mem == [(0x300300, 7)]) = true := by decide +kernel
theorem test_putm : gives (stOrd .putm .m .i (.em 79)) (.putm 3) (fun t => (t.dieLine 79 0x3003).st == .i && (t.home 0x3003).owner == .none) = true := by decide +kernel

/-- Line data for die 79, of two sectors; the home's record 4 waits for it. On the way, they have two dies to go. -/
def md : MeshData := { die := 79, line := 0x3003, sectors := 0x6, dirty := 0, fromHome := true, record := 4, place := 79 }
def mdFar (detour : Bool) : MeshData := { md with place := 77, ahead := [78, 79], detour := detour }
def stMesh : State :=
  let s : State := { mesh := [md], base := { remaps := [⟨3, 3, 87, 10⟩], dies := [(3, { st := 0, logical := some 3, group := 3 })] }, tick := 26 * 8 }
  (s.setDieLine 79 0x3003 { st := .s, fill := 1, waiting := true }).setHome 0x3003 { trans := [⟨.isD, 79, 4⟩] }

theorem witness_LineDataAndRemapResult :
    (stMesh.mesh.find? (fun x => x.die == 79 && x.line == 0x3003) = some md ∧ stMesh.meshReady md = true ∧ (stMesh.dieLine 79 0x3003).st ≠ .i) ∧
    (∀ v ∈ [[], [(linkKey 77 78, 208, 14)], [(linkKey 77 78, 208, 15)]], ∀ b ∈ [true, false],
      let s : State := { stMesh with mesh := [mdFar b], base := { stMesh.base with vc4 := v } }
      s.mesh.find? (fun x => x.die == 79 && x.line == 0x3003) = some (mdFar b) ∧ (mdFar b).ahead = 78 :: [79] ∧ s.departs (mdFar b) = true ∧
        ((mdFar b).detour = false ∨ (s.vc4Room 77 78 (mdFar b).flits = true ↔ v ≠ [(linkKey 77 78, 208, 15)]))) ∧
    (let s := stMesh.setHome 0x3003 { trans := [⟨.miA, 79, 3⟩, ⟨.isD, 79, 4⟩] }
     s.mesh.find? (fun x => x.die == 79 && x.line == 0x3003) = some md ∧ s.departs md = false) ∧
    (∀ k ∈ [TransKind.imAd, .smA, .omA, .miA], let s := ({ mesh := [md] } : State).setHome 0x3002 { trans := [⟨k, 79, 5⟩] }
     (s.home 0x3002).trans = ⟨k, 79, 5⟩ :: [] ∧ ∀ m ∈ s.mesh, m.die = 79 → m.line ≠ 0x3002) ∧
    (stMesh.base.remaps.find? (fun x => x.die == 3) = some ⟨3, 3, 87, 10⟩ ∧ (∀ x ∈ stMesh.base.remaps, x.die = 3 → x = ⟨3, 3, 87, 10⟩) ∧
      stMesh.frame < 10 ∧ 10 ≤ stMesh.frame + 2 ∧ (stMesh.die 3).silentFrom ≠ some (10 - 2) ∧ (stMesh.die 3).logical = some 3 ∧
      10 ≤ ({ stMesh with tick := 26 * 10 } : State).frame) := by
  and_intros <;> decide +kernel

/-- R235, R248: the sectors come in. R25: the die sends on its new group from the frame on. -/
theorem test_line_data : gives stMesh (.forwardedData 79 0x3003) (fun t =>
    (t.dieLine 79 0x3003).fill == 7 && !(t.dieLine 79 0x3003).waiting && t.mesh == []) = true := by decide +kernel
theorem test_remap : gives { stMesh with tick := 26 * 10 } (.remapFrame 3) (fun t => (t.die 3).group == 87 && t.base.remaps == []) = true := by decide +kernel

/-! ### Messages between modules -/

/-- The module with a message under tag 255 of port 95 (partition 0's), whose granule 1 holds 7 at 0x300000. -/
def stM (m : Msg) : State :=
  { inbox := [(95, 255, m)], ttags := [(256 * 95 + 255, 1)], owner := [(1, 1)], mem := [(0x300000, 7)]
    parts := [(0, { st := .active, cores := [(0, false)] })], base := { routes := [(1, 96), (2, 96)] }, ports := [(95, { st := .active, fixed := true, peer := 9 })] }
/-- The same with copies of line 0x3000 in other modules: presence bits, the exclusive holder plus one, answers awaited. -/
def stDir (m : Msg) (pres : BitVec 16) (excl : Nat := 0) (wait : BitVec 16 := 0) : State :=
  { stM m with podDir := [(0x3000, pres)], podExcl := [(0x3000, excl)], podAwait := if wait = 0 then [] else [(0x3000, wait)] }
/-- A coherent request of module 1 for the line, and its data, with the last byte modified. -/
def creq (opc : Nat) (mask : BitVec 256 := 0) : Msg := msg 2 opc 0x300000 0 0xF mask
def top : BitVec 256 := 1#256 <<< 255
def cdat : Msg := msg 4 1 0x300000 0 8 top (List.replicate 255 0 ++ [9])
/-- The same with that data held. -/
def stHeld (m : Msg) : State := { stDir m 2 with podHeld := [(95, 255, cdat)] }

/-- The same while a store to the line has performed ahead of a load that its POD scope orders before it (R261). -/
def stShut (m : Msg) : State :=
  let op (i : Nat) (k : PipeKind) (a : LaneAcc) : PipeOp :=
    { id := i, wg := 0, slot := 0, fib := 0, pc := pc0, lanes := 1, kind := k, accs := [a], qual := .acq, scope := .pod }
  { stDir m 2 with pipe := [op 1 (.load 4 false) ⟨0, 0x200000, .global, 0x200000, 0, 0, false, 0⟩,
    op 2 (if m.opc = 1 ∨ m.opc = 3 then .store 4 else .atomic ⟨.cas, false, false, false⟩) ⟨0, 0x300000, .global, 0x300000, 0, 0, true, 0⟩] }

theorem witness_PodHomeResult :
    (∀ k ∈ [1, 2, 3, 4, 5, 6], MsgComes { stM (creq k) with ttags := [] } 95 255 (creq k) 2 k ∧ State.podOwns { stM (creq k) with ttags := [] } 95 255 (creq k) = false) ∧
    (∀ k ∈ [1, 2, 3, 4, 6], MsgComes (stShut (creq k)) 95 255 (creq k) 2 k ∧ (stShut (creq k)).podOwns 95 255 (creq k) = true ∧
      (stShut (creq k)).awaited 0x3000 = 0 ∧ (stShut (creq k)).msgShut (creq k) = true) ∧
    (∀ k ∈ [1, 2, 3, 4, 6], let s := stDir (creq k) 2
      s.podOwns 95 255 (creq k) = true ∧ s.awaited 0x3000 = 0 ∧ s.msgShut (creq k) = false ∧ s.msgPart 95 255 = some 0 ∧
        s.podRoute 0 1 0x3000 = some (95, 255) ∧ (creq k).srcmod < 16 ∧ s.dirRoom 0x3000 = true ∧ (s.presence 0x3000).getLsbD 1 = true ∧
        (∀ j, j < 16 → j ≠ 1 → (s.presence 0x3000).getLsbD j = false) ∧ ∀ j, j < 4 → s.sectorFails (256 * 0x3000 + 64 * j) = false) ∧
    (∀ k ∈ [1, 3], ∀ j, j < 16 → j ≠ 1 → ((stDir (creq k) 0x8002).presence 0x3000).getLsbD j = true → Tab.get 0 (stDir (creq k) 0x8002).podExcl 0x3000 ≠ j + 1) ∧
    (((stDir (creq 4) 0).presence 0x3000).getLsbD 1 = false ∧ (stDir (creq 4) 0).dirRoom 0x3000 = true) ∧
    ((stDir (creq 5) 2 0 2).podOwns 95 255 (creq 5) = true ∧ ((stDir (creq 5) 2 0 2).awaited 0x3000).getLsbD 1 = true) ∧
    (let s : State := { stDir (creq 3) 2 with failing := [(0x3000 * 4 + 2, true)] }
     MsgComes s 95 255 (creq 3) 2 3 ∧ (creq 3).smask.getLsbD 2 = true ∧ s.sectorFails (256 * 0x3000 + 64 * 2) = true) ∧
    (∀ k ∈ [5, 6], (stHeld (creq k top)).podOwns 95 255 (creq k top) = true ∧
      (stHeld (creq k top)).heldWith (creq k top) (fun x => x.chan == 4) = some (95, 255, cdat) ∧
      (stDir (creq k top) 2).heldWith (creq k top) (fun x => x.chan == 4) = none) ∧
    (let s := stDir (creq 2) 4 3
     (s.presence 0x3000).getLsbD 2 = true ∧ s.podRoute (s.ownerOf (256 * 0x3000) - 1) 2 0x3000 = some (95, 255) ∧ s.awaited 0x3000 = 0 ∧
       Tab.get 0 s.podExcl 0x3000 = 2 + 1) ∧
    (∀ k ∈ [1, 2], let a : Msg := msg 6 k 0x300000
     let b : Msg := msg 6 k 0x300000 0 8
     MsgComes (stDir a 2 2 2) 95 255 a 6 k ∧ ((stDir a 2 2 2).awaited 0x3000).getLsbD a.srcmod = true ∧ a.smask = 0 ∧ b.smask ≠ 0 ∧
       (stDir b 2 2 2).heldWith b (fun y => y.chan == 4) = none ∧
       State.heldWith { stDir b 2 2 2 with podHeld := [(95, 255, cdat)] } b (fun y => y.chan == 4) = some (95, 255, cdat)) := by
  and_intros <;> (try simp only [MsgComes]) <;> decide +kernel

/-- What waits on port 95: channel, opcode and sectors of each message. -/
def sent (t : State) : List (Nat × Nat × Nat) := (t.port 95).waiting.map fun x => (x.2.chan, x.2.opc, x.2.smask.toNat)

/-- R67, R70: RDS grants a shared copy with its data; RDX of a line held elsewhere recalls it; WRS writes its bytes; BACKI ends a recall. -/
theorem test_creq_rds : gives (stDir (creq 1) 0x8002) .creqRds (fun t => sent t == [(3, 1, 0), (4, 1, 15)] && t.presence 0x3000 == 0x8002) = true := by decide +kernel
theorem test_creq_rdx_held : gives (stDir (creq 2) 4 3) .creqRdx (fun t => sent t == [(5, 1, 0)] && t.awaited 0x3000 == 4 && t.podHeld.length == 1) = true := by
  decide +kernel
theorem test_creq_wrs : gives (stHeld (creq 6 top)) .creqWrs (fun t => t.mem == [(0x300000, 7), (0x3000FF, 9)] && sent t == [(3, 3, 0)]) = true := by decide +kernel
theorem test_backi : gives (stDir (msg 6 1 0x300000) 2 2 2) .backi (fun t => t.presence 0x3000 == 0 && t.awaited 0x3000 == 0 && t.podHeld == []) = true := by
  decide +kernel

/-- This module's request for line 0x3000 of module 1, and its copy of the line with the first byte modified. -/
def pReq (opc : Nat) (granted : Option Nat) (data : Bool) : PodReq := ⟨5, 0, 1, 0x3000, opc, granted, data⟩
def stQ (m : Msg) (r : PodReq) (k : Moesi := .i) : State := State.setPodLine { stM m with podReqs := [r] } 1 0x3000 { st := k, dirty := 1, bytes := [(0, 6)] }
def crsp (k : Nat) : Msg := msg 3 k 0x300000
def snp (k : Nat) : Msg := msg 5 k 0x300000

theorem witness_PodRequesterResult :
    (∀ k ∈ [1, 2, 3], ∀ r ∈ [pReq k none true, pReq 4 none false, pReq k none false], MsgComes (stQ (crsp k) r) 95 255 (crsp k) 3 k ∧ r ∈ (stQ (crsp k) r).podReqs ∧
      r.line = (crsp k).addr / 256 ∧ (∀ y ∈ (stQ (crsp k) r).podReqs, y.mtag = (crsp k).mtag → y = r) ∧ r.mtag = (crsp k).mtag ∧ (stQ (crsp k) r).pipe = []) ∧
    (let r : PodReq := { pReq 1 none false with part := 1 }
     (stQ (crsp 3) r).msgPart 95 255 ≠ some r.part ∧ r.line = (crsp 3).addr / 256) ∧
    ((stQ (crsp 3) (pReq 1 none true)).msgPart 95 255 = some (pReq 1 none true).part ∧ cdat.intact = true ∧ Msg.intact { cdat with chk := 0 } = false) ∧
    ((stQ (snp 1) (pReq 1 none false) .m).msgPart 95 255 = some ((stQ (snp 1) (pReq 1 none false) .m).podLine 1 0x3000).part ∧
      State.msgPart { stQ (snp 1) (pReq 1 none false) with ttags := [] } 95 255 ≠ some 0) ∧
    (MsgComes (stQ cdat (pReq 2 (some 2) false)) 95 255 cdat 4 1 ∧ (pReq 2 (some 2) false).home = cdat.srcmod ∧ (pReq 2 (some 2) false).granted ≠ none) ∧
    (State.heldWith { stM cdat with podHeld := [(95, 255, creq 6 top)] } cdat (fun x => x.chan == 2 || x.chan == 6) = some (95, 255, creq 6 top) ∧
      (stM cdat).heldWith cdat (fun x => x.chan == 2 || x.chan == 6) = none ∧ (stM cdat).podReqs = []) ∧
    (∀ k ∈ [1, 2], ∀ st ∈ [Moesi.i, .s, .m], MsgComes (stQ (snp k) { pReq 1 none false with line := 0x3001 } st) 95 255 (snp k) 5 k) ∧
    (State.podAsked (stQ (snp 2) { pReq 1 none false with line := 0x3001 } .m) 1 0x3000 = false ∧ State.podAsked (stQ (snp 2) (pReq 1 none false) .m) 1 0x3000 = true) := by
  and_intros <;> (try simp only [MsgComes]) <;> decide +kernel

/-- R67: data merges beneath this module's bytes, and with the grant gives E or M. R70: a snoop sends modified bytes home. -/
theorem test_cdat : gives (stQ cdat (pReq 2 (some 2) false) .i) .cdatData (fun t =>
    (t.podLine 1 0x3000).st == .m && (t.podLine 1 0x3000).fill == 8 && (t.podLine 1 0x3000).bytes == [(0, 6), (255, 9)] && t.podReqs == []) = true := by decide +kernel
theorem test_binv : gives (stQ (snp 1) { pReq 1 none false with line := 0x3001 } .m) .binv (fun t =>
    decide (t.podLine 1 0x3000 = {}) && sent t == [(4, 1, 1), (6, 1, 1)]) = true := by decide +kernel

/-- The non-coherent requests: PUT of a line's last byte, GET of it, a 4-byte CAS, an ADD of type 5 (a dword), an FP32 accumulate, CADD. -/
def mPut : Msg := msg 7 1 0x300000 0 8 top (List.replicate 255 0 ++ [9])
def mGet : Msg := msg 7 2 0x3000FF 1 8
def mAtom : Msg := msg 7 3 0x300000 8 1 0 (pl [(8, 0x55), (8, 7)])
def mAdd : Msg := msg 7 4 0x300000 5 1 (byteMask 0 8) (pl [(8, 2 ^ 64 - 1), (248, 0)])
def mAcc : Msg := msg 7 4 0x300000 0 8 (byteMask 252 4) (pl [(252, 0), (4, 0x3FC00000)])
def mCadd (die : Nat) : Msg := msg 7 5 (4096 * die + 63) 5
/-- An outstanding request of entry 2 of die 0. -/
def nReq (dst : Option (Space × Nat)) : NetReq := { port := 95, ttag := 255, mtag := 5, who := .entry 0 2, dst := dst, len := 8 }
def stR (m : Msg) (dst : Option (Space × Nat)) : State := { stM m with netReqs := [nReq dst], entries := [(2, { st := .inflight, left := 2 })] }

/-- The first and the second part of an F64 element's images, a fenced counter add, and a request whose data are damaged. -/
def mImg (sm : BitVec 4) : Msg := msg 7 4 0x300000 0x83 sm 0 (List.replicate (if sm = 0xF then 256 else 64) 0)
def mFence : Msg := msg 7 5 63 (2 ^ 48 + 5)
def mBad : Msg := { mPut with chk := 0 }
/-- The work of a request on line 0x3000, and the module where it may be done: die 1 holds the line in M, or its home has it pinned. -/
def jobOf (m : Msg) (w : LineWork) : LineJob := ⟨1, 0, 0x3000, w, .sender 95 255 m⟩
def stHome (s : State) (pinned : Bool := false) : State :=
  (s.setDieLine 1 0x3000 { st := if pinned then .i else .m, fill := 0xF }).setHome 0x3000
    { pinned := pinned, owner := if pinned then .none else .em 1 }
def stJ (j : LineJob) (pinned : Bool := false) : State := { stHome (stM (msg 8 1 0)) pinned with inbox := [], jobs := [j] }
/-- The state after a request has arrived and the work that it made has been done. -/
def jobDone (o : Host.Outcome State Fault Refusal) : State :=
  match o with
  | .next t => t.jobStage.getD {}
  | _ => {}

theorem witness_NetworkMessageResult_arrival :
    (∀ x ∈ [(mPut, 1), (mGet, 2), (mAtom, 3), (mAdd, 4), (mAcc, 4)],
      MsgComes (stM x.1) 95 255 x.1 7 x.2 ∧ firstPart x.1 = false ∧ x.1.images = false ∧ x.1.intact = true ∧
        (stM x.1).msgPart 95 255 = some 0 ∧ State.msgPart { stM x.1 with ttags := [] } 95 255 = none) ∧
    (mBad.intact = false ∧ MsgComes (stM mBad) 95 255 mBad 7 1 ∧ (stM mBad).msgPart 95 255 = some 0) ∧
    (MsgComes (stM (mImg 0xF)) 95 255 (mImg 0xF) 7 4 ∧ firstPart (mImg 0xF) = true) ∧
    (let m := mImg 1
     let s : State := { stM m with podHeld := [(95, 255, mImg 0xF)] }
     MsgComes s 95 255 m 7 4 ∧ firstPart m = false ∧ m.images = true ∧ s.heldWith m firstPart = some (95, 255, mImg 0xF) ∧
       (mImg 0xF).intact = true ∧ m.intact = true ∧ s.msgPart 95 255 = some 0) ∧
    (MsgComes (stM mFence) 95 255 mFence 7 5 ∧ mFence.arg.getLsbD 48 = true ∧ (stM mFence).fenceFree 95 255 = true ∧
      State.fenceFree { stM mFence with jobs := [jobOf mPut (.put 1 [])] } 95 255 = false) ∧
    (∀ d ∈ [0, 79, 80], MsgComes (stM (mCadd d)) 95 255 (mCadd d) 7 5 ∧ (mCadd d).arg.getLsbD 48 = false ∧ (mCadd d).addr / 4096 = d ∧
      (stM (mCadd d)).isIsolated d = false) ∧
    (State.counterOwner { stM (mCadd 79) with ctrBlocks := [(64 * 79, 1)] } 79 63 = 0 + 1 ∧ (stM (mCadd 79)).counterOwner 79 63 ≠ 0 + 1) ∧
    (∀ k ∈ [1, 2, 3, 4], let m : Msg := msg 8 k 0x300008 3
     let s := stR m (some (.global, 0x300010))
     let r := nReq (some (.global, 0x300010))
     MsgComes s 95 255 m 8 k ∧ r ∈ s.netReqs ∧ r.held = [] ∧ (∀ y ∈ s.netReqs, y.port = 95 → y.ttag = 255 → y.mtag = m.mtag → y = r) ∧
       s.podReqs = [] ∧ (s.entry 0 2).st = .inflight ∧ m.intact = true) := by
  and_intros <;> (try simp only [MsgComes]) <;> decide +kernel

theorem witness_NetworkMessageResult_work :
    (∀ x ∈ [(mPut, LineWork.put top mPut.data), (mGet, .get 0x3000FF 1 none), (mAtom, .atom 0x300000 8 0x55 7 none),
        (mAdd, .accp 5 false (byteMask 0 8) mAdd.data)],
      let j := jobOf x.1 x.2
      ((jobHeads (stJ j).jobs).filter fun y => !(stJ j).jobFrozen y).find? (stJ j).jobGoes = some j ∧ j.line = lineOf x.1.addr ∧
        x.1.addr < dramBytes ∧ (stJ j).ownerOf (256 * j.line) = j.part + 1 ∧ (stJ j).homeGone x.1.addr = false ∧
        (stJ j).homeGone (256 * j.line) = false ∧ (stJ j).badSector x.1.addr 1 = none ∧ (stJ j).accs = [] ∧
        State.lineOwned { stJ j with owner := [] } 0 j.line = false) ∧
    (1 ≤ 1 ∧ mGet.addr % 256 + 1 ≤ 256 ∧ 8 % 16 ≤ 8 ∧ mAtom.addr % 4 = 0 ∧ mAdd.addr % 256 = 0) ∧
    (let j := jobOf mAcc (.accp 0 false (byteMask 252 4) mAcc.data)
     ((jobHeads (stJ j true).jobs).filter fun y => !(stJ j true).jobFrozen y).find? (stJ j true).jobGoes = some j ∧ afmtAcc 0 = some .f32 ∧
       252 % AccTy.f32.bytes = 0 ∧ (stJ j true).accClash 0x3000FC .f32 = false ∧ (stJ j true).sumBad 0x3000FC = none ∧
       (stJ j true).sliceUse (sliceOf 0x3000FC) + 7 ≤ 4096 ∧ (stJ j true).accAt 0x3000FC = none) ∧
    (let j : LineJob := ⟨0, 0, 0x3000, .store 0x300000 [1, 2], .waiter (.entry 0 2)⟩
     j.tells = .waiter (.entry 0 2) ∧ (stJ j).cutOff 0 0x300000 = false) := by
  and_intros <;> decide +kernel

/-- R73, R249: each request and its answer, once its work has been done: PUT's byte, CAS by function 8, a dword ADD that wraps, FP32 accumulate, and a counter add. -/
theorem test_put : (let t := jobDone (exec .nreqPut (stHome (stM mPut))); t.mem == [(0x300000, 7), (0x3000FF, 9)] && sent t == [(8, 1, 0)]) = true := by decide +kernel
theorem test_atom : (let t := jobDone (exec .nreqAtom (stHome (stM mAtom))); t.mem == [(0x300000, 0x55)] && (t.port 95).waiting.map (fun x => x.2.arg) == [7]) = true := by
  decide +kernel
theorem test_add : ((jobDone (exec .nreqAccp (stHome (stM mAdd)))).mem == [(0x300000, 6)]) = true := by decide +kernel
theorem test_accp : (let t := jobDone (exec .nreqAccp (stHome (stM mAcc) true))
  (t.accAt 0x3000FC).map (fun e => e.n) == some (3 * 2 ^ 148) && t.mem == [(0x300000, 7)]) = true := by decide +kernel
theorem test_cadd : gives { stM (mCadd 79) with ctrBlocks := [(64 * 79, 1)] } .nreqCadd (fun t => (t.counter 79 63).value == 5) = true := by decide +kernel
theorem test_gdata : gives (stR (msg 8 2 0x300008 0 1 0 (pl [(8, 0), (8, 0x1122), (240, 0)])) (some (.global, 0x300010))) .nrspGdata (fun t =>
    t.mem == [(0x300000, 7)] && t.jobs.map (fun j => (j.line, j.work)) == [(0x3000, .store 0x300010 (pl [(8, 0x1122)]))] && t.netReqs == []) = true := by decide +kernel

/-! ### Engines and the scheduler -/

/-- Lines that are served at their homes (R242). -/
def served (ls : List Nat) (s : State) : State := ls.foldl (fun s l => s.setHome l { pinned := true }) s
/-- A posted entry's image: kind, flags, RADDR, LEN, RCTR, OPND (R178); ASID 0, LADDR 0x200100, CCTR 62, PERIOD 10. -/
def entry (kind flags raddr len rctr opnd : Nat) : List Byte :=
  pl [(1, kind), (1, flags), (2, 63), (2, 62), (2, 0), (6, 1), (2, 0), (8, 0x200100), (8, raddr), (4, len), (4, rctr), (6, 10), (1, 0), (1, 0), (8, opnd), (8, 0)]
/-- The module with that entry as entry 16,383 of die 79 at the head of partition 0's queue; counters 0 to 63 of die 79 and counter 4,095
of die 0 are partition 0's, and address space 0 maps its granule 1. -/
def stE (x : Entry) : State :=
  { stWalk 0 with
    pipe := [], owner := [(1, 1)], mem := Memory.write (stWalk 0).mem 0x200100 [7, 8], ctrBlocks := [(63, 1), (64 * 79, 1), (64 * 79 + 63, 1)]
    netQ := [(32 * 79, [.entry 16383])], entries := [(16384 * 79 + 16383, x)] }
def ent (st : EntState) (img : List Byte) : Entry := { st := st, img := img, thresh := 1 }
/-- A PUT of two bytes within the granule, and a CADD of 5 to counter 4,095 of die 0. -/
def putImg : List Byte := entry 1 0 0x2001FE 2 0 0
def caddImg : List Byte := entry 5 0 0 0 4095 5

theorem witness_EngineResult_entries :
    (∀ x ∈ [ent .queued caddImg, ent .queued putImg, ent .inflight putImg, { ent .inflight (entry 1 1 0x200000 1 0 0) with rearm := true },
        ent .inflight (entry 1 2 0x200000 1 4095 0)],
      ((stE x).part 0).frozen = false ∧ (stE x).net 79 0 = .entry 16383 :: [] ∧ Tab.wf ({} : Entry) (stE x).entries = true ∧ (stE x).entry 79 16383 = x) ∧
    ((ent .queued putImg).brought = false ∧ (ent .inflight putImg).finish = none ∧ (ent .inflight putImg).status = 0) ∧
    (entKind caddImg = 5 ∧ entRctr caddImg / 4096 < 80 ∧ (stE (ent .queued caddImg)).counterOwner 0 4095 = 0 + 1 ∧ (stE (ent .queued caddImg)).isIsolated 0 = false) ∧
    (let s := stE (ent .queued putImg)
     entKind putImg = 1 ∧ entLaddr putImg % 256 + 2 ≤ 256 ∧ entRaddr putImg % 256 + 2 ≤ 256 ∧
       s.engXlat 0 (entAsid putImg) (entLaddr putImg) { rd := true } = some (.global, 0x200100) ∧
       s.engXlat 0 (entAsid putImg) (entRaddr putImg) { w := true } = some (.global, 0x2001FE) ∧ s.cutOff 79 0x200100 = false ∧ s.cutOff 79 0x2001FE = false ∧
       s.badSector 0x200100 2 = none ∧ s.freeIn 0x200100 2 false = true ∧ 0x2001FE % 256 + 2 ≤ 256) ∧
    (Entry.notes (ent .inflight (entry 1 2 0x200000 1 4095 0)) = true ∧ Entry.notes (ent .inflight putImg) = false ∧ entCctr putImg ≠ 0xFFFF ∧
      (stE (ent .inflight (entry 1 2 0x200000 1 4095 0))).engXlat 0 0 0x200000 {} = some (.global, 0x200000)) ∧
    (let r : Release := ⟨79, 0, [63], none⟩
     let s : State := { stE (ent .posted putImg) with releases := [r] }
     r ∈ s.releases ∧ (∀ y ∈ s.releases, y.die = r.die → y.part = r.part → y = r) ∧
       ∀ x ∈ s.entries, x.1 / 16384 = r.die → x.1 % 16384 / 256 ∈ r.blocks → x.2.st ≠ .queued ∧ x.2.st ≠ .inflight) := by
  and_intros <;> decide +kernel

/-- R181, R182: PUT sends its bytes to the home of their line, CADD raises its counter; R180: a rearmed entry is posted again, its threshold moved by PERIOD. -/
theorem test_entry_put : gives (stE (ent .queued putImg)) (.entryIssue 79 0) (fun t =>
    (t.entry 79 16383).st == .inflight && (t.entry 79 16383).left == 1 && t.jobs.map (fun j => (j.line, match j.work with
      | .put mask bs => (mask == byteMask 254 2, bs.drop 254)
      | _ => (false, []))) == [(0x2001, true, [7, 8])]) = true := by decide +kernel
theorem test_entry_complete : gives (stE { ent .inflight (entry 1 1 0x200000 1 0 0) with rearm := true }) (.entryComplete 79 0) (fun t =>
    (t.entry 79 16383).st == .posted && (t.entry 79 16383).thresh == 11 && (t.counter 79 62).value == 1 && t.net 79 0 == []) = true := by decide +kernel

/-- A command of the fixture's workgroup at the head of its queue. -/
def cmdK (k : CmdKind) (started : Bool := true) : Cmd := { id := 4, wg := 0, slot := 0, fib := 0, pc := pc0, lanes := 1, kind := k, started := started }
def stCopy (c : Cmd) : State := { st with focus := none, cores := [(0, { copyQ := [c] })] }
def stMat (c : Cmd) : State := { st with focus := none, cores := [(0, { matQ := [c] })] }
/-- A TLD of one 64-byte row at the page's end, a copy in the local store, MACCLD.Z, and an MMA of two INT8 tiles of ones and twos. -/
def cTld (started : Bool) : Cmd := cmdK (.tld 15 false 0x30FFC0 64 1 0) started
def cAcp : Cmd := cmdK (.acp 16 true true [(0, 0, 4080)])
def cAccZ : Cmd := cmdK (.maccld 3 .zero false 0 0)
def ones (n : Nat) : Tile := { data := Memory.write [] 0 (List.replicate 64 (BitVec.ofNat 8 n)) }
def cMma : Cmd := { cmdK (.mma 1 2 3 none 0 0 ⟨true, false, false⟩) with tiles := [ones 1, ones 2] }

/-- Every piece of a command has its place, decided. -/
theorem placedAll {s : State} {w : Workgroup} {k : CmdKind}
    (e : (k.pieces w).all (fun r => match s.placePiece w k r with
      | .at_ _ sp _ => !r.write || (match sp with | .remote _ => false | _ => true)
      | _ => false) = true) :
    ∀ r ∈ k.pieces w, ∃ g sp pa, s.placePiece w k r = .at_ g sp pa ∧ (r.write = true → ∀ m, sp ≠ .remote m) := by
  intro r hr
  have h := List.all_eq_true.1 e r hr
  revert h
  cases s.placePiece w k r with
  | at_ g sp pa =>
    intro h
    refine ⟨g, sp, pa, rfl, fun hw m hm => ?_⟩
    simp [hw, hm] at h
  | miss => simp
  | fault => simp

theorem witness_EngineResult_commands :
    (let s := stCopy (cTld false)
     (s.core 0).copyQ = cTld false :: [] ∧ (s.wg 0).lcore = 0 ∧ (cTld false).kind.pieces (s.wg 0) ≠ [] ∧
       ∀ r ∈ (cTld false).kind.pieces (s.wg 0), ∃ g sp pa, s.placePiece (s.wg 0) (cTld false).kind r = .at_ g sp pa ∧ (r.write = true → ∀ m, sp ≠ .remote m)) ∧
    (let c := cmdK (.maccld 3 .f32 false 0x300000 64) false
     let s := stMat c
     (s.core 0).matQ = c :: [] ∧ (s.core 0).copyQ = [] ∧ c.kind.pieces (s.wg 0) ≠ [] ∧
       ∀ r ∈ c.kind.pieces (s.wg 0), ∃ g sp pa, s.placePiece (s.wg 0) c.kind r = .at_ g sp pa ∧ (r.write = true → ∀ m, sp ≠ .remote m)) ∧
    (∀ c ∈ [cAcp, cAccZ, cMma], c.started = true ∧ c.sent = false ∧ c.trap = none ∧ c.nak = false ∧ c.closing = none) ∧
    ((stCopy cAcp).core 0).copyQ = cAcp :: [] ∧ ((stCopy cAcp).wg 0).localFails 0 16 = none ∧ ((stMat cAccZ).core 0).matQ = cAccZ :: [] ∧ ((stMat cMma).core 0).matQ = cMma :: [] ∧
    (((stMat cMma).wg 0).fmtSlot 0).format = some .int8 ∧ ternReserved .int8 (cMma.mmaTiles none).1 = none := by
  refine ⟨⟨by decide +kernel, by decide +kernel, by decide +kernel, placedAll (by decide +kernel)⟩,
    ⟨by decide +kernel, by decide +kernel, by decide +kernel, placedAll (by decide +kernel)⟩, ?_, ?_, ?_, ?_, ?_, ?_, ?_⟩ <;> decide +kernel

/-- R435: MMA of ones by twos over the 64 positions that hold data: 128.0 in element 0, 0, and nothing in element 1, 0 (R308). -/
theorem test_mma_sums :
    let w := (stMat cMma).wg 0
    let x := mmaSums w ⟨true, false, false⟩ 1 (w.fmtSlot 0) (w.fmtSlot 0) .int8 .int8 (ones 1) (ones 2) none
    x 0 0 = 0x43000000 ∧ x 1 0 = 0 := by decide +kernel

/-- A graph of a LAUNCH at 128 (one role of one fibre, two workgroups of one slot; R148 to R151) and the HEVENT at 704 that follows it, by
its bytes that are not zero; of that LAUNCH without its successor; of a HEVENT alone, and of a COPY alone (R143, R144). -/
def magic : Tab Byte := [(0, 0x4A), (1, 0x0C), (2, 0xA7), (3, 0xB1)]
def graph2 : Tab Byte :=
  magic ++
  [(4, 2), (8, 64), (64, 0x80), (68, 0xC0), (69, 2), (128, 1), (130, 1), (136, 0x40), (137, 2), (144, 0xC0), (145, 2), (192, 1), (194, 1), (196, 1), (198, 1),
   (204, 1), (234, 0x20), (242, 0x20), (248, 1), (260, 1), (262, 1), (640, 2), (644, 1), (648, 1), (704, 3), (705, 0xFF), (708, 1), (712, 0x80)]
def graphLast : Tab Byte := graph2.filter fun x => x.1 != 130 && x.1 != 144 && x.1 != 145
def graphEvent : Tab Byte := magic ++ [(4, 1), (8, 64), (64, 0x80), (128, 3), (129, 0xFF), (136, 0x80)]
def graphCopy : Tab Byte := magic ++ [(4, 1), (8, 64), (64, 0x80), (128, 2), (136, 0x80), (194, 0x20), (201, 1), (202, 0x20), (208, 64)]
/-- A run in which a node is as given. -/
def runOf (n : Nat) (x : NodeRun) (more : Tab NodeRun := []) : Run := { func := 1, tag := 5, seq := 3, nodes := (n, x) :: more }
/-- The module with a graph and its run; core 0 serves partition 0. -/
def stS (bs : Tab Byte) (r : Option Run) (q : List RunReq := []) : State :=
  { stE {} with
    graphs := [(7, some { units := 1, sealed := true, bytes := bs, run := r, queue := q })], cairn := [(0, { cfeat := 0xB })], netQ := [], funcs := fns
    parts := [(0, { st := .active, asidCount := 1, roots := [(0, 0x400000)], cores := [(0, false)], credit := 1 })], wgs := [], focus := none }
def gS (bs : Tab Byte) (r : Option Run) : Graph := { units := 1, sealed := true, bytes := bs, run := r }

theorem witness_SchedulerResult_runs :
    ((stS graph2 none [run1 1]).graph 7 = some { gS graph2 none with queue := [run1 1] } ∧ ((stS graph2 none [run1 1]).part 0).st = .active) ∧
    (∀ x ∈ [(graph2, 128), (graphEvent, 128), (graphCopy, 128)], let r := runOf x.2 { st := .ready }
     let s := stS x.1 (some r)
     s.graph 7 = some (gS x.1 (some r)) ∧ (r.node x.2).st = .ready ∧ s.kindLegal (gS x.1 (some r)) x.2 = true) ∧
    ((gS graph2 none).kind 128 = 1 ∧ (gS graphEvent none).kind 128 = 3 ∧ (gS graphEvent none).aux 128 = 0xFF ∧ (gS graphCopy none).kind 128 = 2 ∧
      (stS graph2 none).neverFits ((stS graph2 none).part 0) ((gS graph2 none).launch 128) ((gS graph2 none).launch 128).gang = false) ∧
    (let r := runOf 128 { st := .active, next := 2 } [(704, { remaining := 1 })]
     (r.node 128).out = 0 ∧ ((gS graph2 (some r)).launch 128).total ≤ (r.node 128).next ∧ (gS graph2 (some r)).succs 128 = [704] ∧
       ∃ o ∈ (gS graph2 (some r)).offsets, o ≠ 128 ∧ (r.node o).st ≠ .done ∧ (r.node o).st ≠ .skipped) ∧
    (let bs := graphLast
     let r := runOf 128 { st := .active, next := 2 } [(704, { st := .done })]
     (∀ o ∈ (gS bs (some r)).offsets, o ≠ 128 → (r.node o).st = .done ∨ (r.node o).st = .skipped) ∧ (gS bs (some r)).succs 128 = [] ∧
       ((stS bs (some r)).func r.func).part ≠ none) ∧
    (match (stS graph2 (some (runOf 128 { st := .active }))).decision with
     | some (_, _, y, [(_, lc)]) => decide (lc / 48 = 0 ∧ y.saved = [] ∧ y.handle = 7 ∧ y.node = 128)
     | _ => false) = true := by
  and_intros <;> decide +kernel

/-- R98: the run starts with its root READY; R163, R165: a decision places workgroup 0; R155, R156: the last node ends the run with an event. -/
theorem test_run_start : gives (stS graph2 none [⟨1, 5, 9, [(224, 8, 0x55)]⟩]) (.runStart 7) (fun t =>
    (t.graph 7).any fun x => x.queue.isEmpty && x.run.any (fun r => (r.node 128).st == .ready && (r.node 704).st == .waiting && r.seq == 9)) = true := by decide +kernel
theorem test_dispatch : gives (stS graph2 (some (runOf 128 { st := .active }))) (.dispatchDecision 0) (fun t =>
    decide ((t.wg 0).launch.codeBase = 0x200000) && (t.wg 0).node == 128 && (t.wg 0).index == 0 && t.nextWg == 1 &&
    (t.graph 7).any (fun x => x.run.any fun r => (r.node 128).next == 1 && (r.node 128).out == 1)) = true := by decide +kernel
theorem test_node_done : gives (stS graph2 (some (runOf 128 { st := .active, next := 2 } [(704, { remaining := 1 })]))) (.nodeDone 7 128) (fun t =>
    (t.graph 7).any fun x => x.run.any fun r => (r.node 128).st == .done && (r.node 704).st == .ready) = true := by decide +kernel

/-- The fixture's workgroup under a SUSPEND, with a save area; and with both fibres BLOCKED on barrier 5 for 2^16 cycles. -/
def stPre : State :=
  let w := wgA { fibA with restart := pc0, livein := live1, arrival := none } fibB
  { served ((List.range 48).map fun k => 0x2000 + k) (stE {}) with
    wgs := [(0, some { w with launch := { w.launch with saveAddr := 0x200000, saveCnt := 1, localBytes := 0, tiles := 0, roles := [{ vregs := 1, count := 2 }] } })]
    parts := [(0, { st := .suspending, asidCount := 1, roots := [(0, 0x400000)], cores := [(0, false)] })] }
def stDog : State :=
  let fb : Fibre := { fibA with st := .blocked, block := some (.barrier 5) }
  let s := stBar { expected := 3 } fb fb
  { s with
    focus := none, wgs := [(0, some { wgA fb fb with bars := [(5, { expected := 3, arrived := 2, count := 2 ^ 16 })] })]
    parts := s.parts.map fun x => (x.1, { x.2 with wdog := 16 }) }
/-- Fibre 0 waits for its flag F0 under PASS; fibre 1 can go. -/
def stHand : State :=
  let w := (encode (.nop ⟨true, 7, false, 1, 0, none, false⟩ (g v0))).getD 0
  { stW (wgA { fibA with f := [(0, 1)] } fibB) [w, wayptWord] with focus := none }

theorem witness_SchedulerResult_workgroups :
    ((stPre.wg 0).place = .resident ∧ stPre.preemptReady (stPre.wg 0) = true ∧ stPre.leavers (stPre.wg 0) = [0] ∧
      (stPre.recordPieces (stPre.wg 0).part (stPre.wg 0).launch (stPre.freeRecord (stPre.wg 0))).isSome = true ∧
      (stPre.leaveRoom (stPre.wg 0)).all (fun q => stPre.storeReady (stPre.wg 0).die q.1 q.2) = true ∧
      (stPre.fib 0 0 0).st = .current ∧ (stPre.fib 0 0 0).arrival = none ∧ Tab.wf 0 (stPre.fib 0 0 0).v = true) ∧
    (stDog.runs (stDog.wg 0) = true ∧ (stDog.expired (stDog.wg 0)).map (fun x => (x.1, x.2.1, x.2.2.1)) = some (.bar 5, 0, 0) ∧ stDog.pipe = [] ∧
      (stDog.part 0).faultQ = []) ∧
    ((stHand.slot 0 0).current = some 0 ∧ stHand.handOffTo 0 0 = some 1) := by
  refine ⟨?_, ?_, ?_⟩ <;> decide +kernel

/-- R333 to R335: the expired barrier's record has code 0x0D and its object; R207: the hand-off. -/
theorem test_watchdog : gives stDog (.watchdogExpiry 0) (fun t =>
    (t.part 0).faultQ.map (fun q => (leAt q.2 48 8)) == [1 + 256 * 5] && (Tab.get none t.wgs 0).isNone) = true := by decide +kernel
theorem test_hand_off : gives stHand (.handOff 0 0) (fun t =>
    (t.slot 0 0).current == some 1 && (t.fib 0 0 0).st == .waiting && (t.fib 0 0 0).latches == [] && (t.fib 0 0 1).st == .current) = true := by decide +kernel

/-! ### The Ethernet port and the module -/

/-- A host request on queue pair 1,023 of function 1 under key 77, and the module with window 4,095 over the first two pages of granule 1. -/
def rq (key va : Nat) (data : List Byte := []) (len : Nat := 8) : RdmaReq := ⟨1, 1023, BitVec.ofNat 32 key, va, len, data, 5, 7, false⟩
def stN (qp : Qp := {}) (ops : List HostOp := []) : State :=
  { served [0x2001, 0x20FF, 0x2100, 0x21FF] (stE {}) with
    netQ := [], mem := (stE {}).mem ++ [], funcs := [(1, { fnOf (some 0) with windows := [(4095, some ⟨7, 77, 0x200000, 0x20000, 0⟩)], qps := [(1023, qp)], ip4 := 9, ip6 := 10 })], hostOps := ops
    cores := [(0, { copyQ := [{ cmdK (.acp 16 false true []) with left := 2 }] })] }
/-- A transfer of command 4 of core 0 that waits for its answer. -/
def hop (dst : Option (Space × Nat)) : HostOp := { func := 1, qp := 1023, tag := 3, who := .cmd 0 4, index := 0, offset := 0, dst := dst, len := 8, msg := .read 1 1023 3 77 0x10 8, sent := true }

theorem witness_EthernetResult :
    (stN.base.ethDown = false ∧ ((1 : Nat) < 64) ∧ ((1023 : Nat) < 1024)) ∧
    (∀ q ∈ [rq 78 0x200000 [1], rq 77 0x20FFFF [1], rq 77 0x21FFF8, rq 77 0x200004], (stN.qp q.func q.qp).error = false ∧ q.ecn = false ∧ stN.rdmaHeld = [] ∧ stN.ethStopped = false ∧
      (stN.func q.func).part = some 0) ∧
    ((stN.func 1).windows.find? fun x => match x.2 with | some w => w.key == 78 | none => false) = none ∧
    ((stN.func 1).windows.find? fun x => match x.2 with | some w => w.key == 77 | none => false) = some (4095, some ⟨7, 77, 0x200000, 0x20000, 0⟩) ∧
    (∀ x ∈ [(0x20FFFF, 1), (0x21FFF8, 8)], 0x200000 ≤ x.1 ∧ x.1 + x.2 ≤ 0x200000 + 0x20000 ∧ x.1 % 65536 + x.2 ≤ 65536 ∧
      stN.engXlat 0 0 x.1 { rd := true, w := true, a := true } = some (.global, x.1) ∧ stN.engXlat 0 0 x.1 { w := true } = some (.global, x.1) ∧
      stN.engXlat 0 0 x.1 { rd := true } = some (.global, x.1) ∧ stN.storeReady (homeDie x.1) x.1 x.2 = true ∧ stN.freeIn x.1 x.2 false = true ∧
      stN.homeGone x.1 = false ∧ x.1 % 2 ^ 21 + x.2 ≤ 2 ^ 21 ∧ stN.badSector x.1 x.2 = none) ∧
    (9216 < 9217 ∧ ({ stN with base := { ethDown := true, pfc := 0x80 } } : State).base.pauses.getLsbD 0 = false ∧
      State.ethStopped { stN with base := { pfc := 0xFF, pauses := 1 } } = true ∧ (0x80#8).getLsbD 7 = true ∧ (0x80#8).getLsbD 0 = false) ∧
    (let s : State := { stN with rdmaHeld := [{ kind := .write, req := rq 77 0x200000 [1], pieces := [(0x200000, 1)] }] }
     (∃ x ∈ s.rdmaHeld, x.on 1 1023 = true) ∧ 1 ≤ (rq 77 0x20FFFF [1]).data.length) ∧
    (let s : State := { stN with owner := [(1, 1)], base := { dies := [(3, { st := 3, logical := some 79 })], isolated := List.range 80 } }
     s.homeGone 0x20FFFF = true ∧ s.engXlat 0 0 0x20FFFF { w := true } = some (.global, 0x20FFFF)) ∧
    (∀ d ∈ [none, some (Space.global, 0x200000)], (stN {} [hop d]).hostOp? 1 1023 3 = some (hop d) ∧ (hop d).who = .cmd 0 4 ∧
      ∃ c ∈ ((stN {} [hop d]).core 0).copyQ, c.id = 4) := by
  and_intros <;> decide +kernel

/-- R83, R84: a WRITE over a page boundary lands; one under no key is a NAK and an ACCESS event; Compare-Swap that differs leaves memory. R82: a
congestion notification halves the rate. -/
theorem test_rdma_write : gives stN (.rdmaWrite (rq 77 0x20FFFF [1, 2])) (fun t =>
    Memory.read t.mem 0x20FFFF 2 == 0x0201 && decide (t.ethOut = [.ack 1 1023])) = true := by decide +kernel
theorem test_rdma_denied : gives stN (.rdmaWrite (rq 78 0x200000 [1])) (fun t => decide (t.ethOut = [.nakAccess 1 1023]) && t.mem == stN.mem) = true := by decide +kernel
theorem test_compare_swap : gives stN (.compareSwap (rq 77 0x200100)) (fun t =>
    decide (t.ethOut = [.atomicResp 1 1023 0x0807]) && t.mem == stN.mem) = true := by decide +kernel
theorem test_cnp : gives (stN { rate := 81920 }) (.cnp 1 1023) (fun t => (t.qp 1 1023).rate == 40960) = true := by decide +kernel

/-- The module with two good dies and a spare: cores 0 and 47 of logical die 0 in service. -/
def stW2 (d : Die := {}) : State :=
  { base := { ready := true, dies := [(3, { d with st := 0, logical := some 0, group := 3 }), (4, { st := 0, logical := some 1, group := 4 }), (5, { st := 2, group := 84 })] }
    funcs := fns, cairn := [(0, { cfeat := 0xB }), (47, { cfeat := 0xB })] }
/-- A check of routes that all passes. -/
def rc : RouteCheck := ⟨true, true, [], []⟩
def hot (x : Int) : Half := BitVec.ofInt 16 x

theorem witness_ModuleEventResult :
    (stW2.base.frozen = none ∧ (0xFC#8 ≠ stW2.base.lantern) ∧ ((List.range 8).filter fun k => (0xFC#8).getLsbD k).length = 6 ∧
      ((List.range 8).filter fun k => (0xF8#8).getLsbD k).length < 6) ∧
    (760 - 80 ≤ (hot 680).toInt ∧ 840 + 80 ≤ (hot 920).toInt ∧ (840 : Int) ≤ (([hot 840] : List Half).getD 0 0).toInt ∧
      ∀ k, k < 8 → k ≠ 6 → ((([] : List Half).getD k 0).toInt ≤ (if k = 5 then 760 else 840) - 40)) ∧
    ((stW2.die 3).logical = some 0 ∧ 64 * 5 < dramBytes ∧ homeDie (64 * 5) = 0 ∧ Tab.get false stW2.reported 5 = false ∧ stW2.homeLost (64 * 5) = false) ∧
    ((stW2.cairnOf 47).serv = .inService ∧ (stW2.cairnOf 47).cfeat.getLsbD 0 = true) ∧
    (stW2.base.pendingTable = none ∧ stW2.base.isolated = [] ∧ stW2.mesh = [] ∧ stW2.base.deferred = []) ∧
    (let s : State := { stW2 with base := { stW2.base with isolated := [1], pendingTable := some ⟨false, false, [0], []⟩ } }
     s.base.isolated ≠ [] ∧ s.regionOf [0] ≠ s.base.isolated ∧ s.base.pendingTable ≠ none) ∧
    (((stW2.die 3).st = 0 ∨ (stW2.die 3).st = 2) ∧ ((stW2.die 5).st = 0 ∨ (stW2.die 5).st = 2) ∧ (stW2.die 5).logical = none) ∧
    (stW2.base.oldTable = none ∧ rc.unionAcyclic = true ∧ stW2.base.staging.verified = none ∧ stW2.base.fieldFenced = [] ∧ (840 : Int) ≤ (hot 840).toInt ∧
      (hot 670).toInt < 760 - 80) ∧
    (stW2.base.remaps = [] ∧ stW2.frame + 8 ≤ 8 ∧ (∀ y ∈ stW2.base.dies, y.2.group = 85 → y.2.st = 3) ∧ ∃ y ∈ stW2.base.dies, y.2.group = 84 ∧ y.2.st ≠ 3) := by
  and_intros <;> decide +kernel

/-- R30: a junction at its limit adds a throttle step; R36, R37: a scrub marks its sector; R138: a quarantined core; R141: a fenced die; R25: the
spare group 85; R104: a reset with firmware that fails goes to recovery. -/
theorem test_throttle : gives (stW2 { kTherm := 8 }) (.thermalThrottle 3 [hot 840]) (fun t => (t.die 3).kTherm == 8 && (t.die 3).hot == 1) = true := by decide +kernel
theorem test_scrub : gives stW2 (.dramScrub 3 ⟨[5], [], []⟩ 2) (fun t => t.sectorFails (64 * 5) && (t.die 3).soft == 2 &&
    (t.func 0).events.map (fun e => leAt e.2 24 8) == [64 * 5]) = true := by decide +kernel
theorem test_quarantine : gives stW2 (.quarantine 47 2) (fun t => (t.cairnOf 47).serv == .quarantined) = true := by decide +kernel
theorem test_fence : gives stW2 (.fieldFence 3 ⟨1, rc⟩) (fun t =>
    (t.die 3).st == 3 && t.base.fieldFenced == [3] && t.base.isolated.contains 0 && (t.cairnOf 47).serv == .fenced && t.isIsolated 0) = true := by decide +kernel
theorem test_remap_announced : gives stW2 (.remap 3 ⟨8, rc⟩) (fun t => t.base.remaps == [⟨3, 3, 85, 8⟩]) = true := by decide +kernel
theorem test_module_reset : gives { stW2 with mem := [(5, 1)], tick := 99 } (.moduleReset ⟨false, 0xFF, [], [], rc, 0, []⟩) (fun t =>
    t.base.recovery && !t.base.ready && t.mem == [] && t.funcs.all fun f => f.2.part.isNone) = true := by decide +kernel

end Sys2Proof.Tests
end

/-!
# Reserved encodings (R342, R364)

A word is read by cutting it into fields and written by laying fields side by side. The two are inverse on every word that decodes, so
such a word is the one that its instruction is encoded as, and every code in it is an assigned one.
-/

section
namespace Sys2Proof.Machine

/-! ### Fields of a number -/

/-- The fields of a number from bit `lo` up, of the given widths: what `unpackFields` cuts, by bit positions. -/
def fieldsFrom (x : Nat) : Nat → List Nat → List Nat
  | _, [] => []
  | lo, w :: ws => field x lo w :: fieldsFrom x (lo + w) ws

theorem unpackFields_div (ws : List Nat) (x lo : Nat) : unpackFields ws (x / 2 ^ lo) = fieldsFrom x lo ws := by
  induction ws generalizing lo with
  | nil => rfl
  | cons w ws ih => rw [unpackFields, Nat.div_div_eq_div_mul, ← Nat.pow_add, ih]; rfl

theorem unpackFields_eq (ws : List Nat) (x : Nat) : unpackFields ws x = fieldsFrom x 0 ws := by
  simpa using unpackFields_div ws x 0

theorem packFields_fieldsFrom (ws : List Nat) (x lo : Nat) :
    packFields (ws.zip (fieldsFrom x lo ws)) = field x lo ws.sum := by
  induction ws generalizing lo with
  | nil => simp [packFields, field, Nat.mod_one]
  | cons w ws ih =>
    rw [fieldsFrom, List.zip_cons_cons, packFields, ih, List.sum_cons]
    unfold field
    rw [Nat.mod_mod, Nat.pow_add, Nat.pow_add, Nat.mod_mul, Nat.div_div_eq_div_mul]

theorem field_zero (x n : Nat) : field x 0 n = x % 2 ^ n := by rw [field, Nat.pow_zero, Nat.div_one]

/-- Laying all fields of a number side by side gives the number. -/
theorem packFields_whole (ws : List Nat) {x : Nat} (hx : x < 2 ^ ws.sum) : packFields (ws.zip (fieldsFrom x 0 ws)) = x := by
  rw [packFields_fieldsFrom, field_zero, Nat.mod_eq_of_lt hx]

theorem field_lt (x lo w : Nat) : field x lo w < 2 ^ w := Nat.mod_lt _ (Nat.two_pow_pos w)

theorem field_mod {x n lo w : Nat} (h : lo + w ≤ n) : field (x % 2 ^ n) lo w = field x lo w := by
  obtain ⟨k, rfl⟩ := Nat.exists_eq_add_of_le h
  unfold field
  rw [Nat.pow_add, Nat.pow_add, Nat.mul_assoc, Nat.mod_mul_right_div_self, Nat.mod_mul_right_mod]

theorem field_field {x a n lo w : Nat} (h : lo + w ≤ n) : field (field x a n) lo w = field x (a + lo) w :=
  calc field (x / 2 ^ a % 2 ^ n) lo w = field (x / 2 ^ a) lo w := field_mod h
    _ = field x (a + lo) w := by unfold field; rw [Nat.div_div_eq_div_mul, ← Nat.pow_add]

/-! ### The codes of the fields, read and written -/

/-- What the reader of an `n`-bit field accepts, its writer gives back. -/
abbrev Inverts (n : Nat) {α : Type} (read : Nat → Option α) (write : α → Nat) : Prop :=
  ∀ k < 2 ^ n, ∀ m ∈ read k, write m = k

theorem operand_inverts : Inverts 10 Dec.operand Enc.operand := by decide +kernel

theorem perm_inverts : Inverts 4 Dec.perm Enc.perm := by decide

theorem operand_of_reserved {n : Nat} (hn : n < 2 ^ 10) (h : reservedOperand n) : Dec.operand n = none := by
  have table : ∀ k < 2 ^ 10, reservedOperand k → Dec.operand k = none := by
    unfold reservedOperand
    decide +kernel
  exact table n hn h

theorem encBit_bit {n : Nat} (h : n < 2) : Enc.bit (Dec.bit n) = n :=
  match n, h with
  | 0, _ => rfl
  | 1, _ => rfl

theorem setf_ok {n : Nat} {f : Option (Fin 12)} (h : Dec.setf n = .ok f) : n ≤ 12 ∧ Enc.setf f = n := by
  unfold Dec.setf at h
  split at h
  · rename_i h0
    cases h
    rw [beq_iff_eq] at h0
    exact ⟨by omega, h0.symm⟩
  split at h
  · rename_i h0 h1
    cases h
    rw [beq_iff_eq] at h0
    simp only [Enc.setf, Fin.val_ofNat]
    omega
  · cases h

theorem dst_ok {n : Nat} {x : Operand} (h : Dec.dst n = .ok x) : Dec.operand n = some x := by
  unfold Dec.dst at h
  split at h <;> cases h
  assumption

theorem mod_ok {α : Type} {f : Nat → Option α} {n : Nat} {m : α} (h : Dec.mod f n = .ok m) : f n = some m := by
  unfold Dec.mod at h
  split at h <;> cases h
  assumption

theorem src_ok {o p : Nat} {x : Src} (h : Dec.src o p = .ok x) : Dec.operand o = some x.op ∧ Dec.perm p = some x.perm := by
  unfold Dec.src at h
  split at h <;> cases h
  exact ⟨‹_›, ‹_›⟩

theorem encOperand_of_dst {b lo : Nat} {x : Operand} (h : Dec.dst (field b lo 10) = .ok x) : Enc.operand x = field b lo 10 :=
  operand_inverts _ (field_lt ..) _ (dst_ok h)

theorem encOperand_of_src {b lo p : Nat} {x : Src} (h : Dec.src (field b lo 10) p = .ok x) : Enc.operand x.op = field b lo 10 :=
  operand_inverts _ (field_lt ..) _ (src_ok h).1

theorem encPerm_of_src {b o lo : Nat} {x : Src} (h : Dec.src o (field b lo 4) = .ok x) : Enc.perm x.perm = field b lo 4 :=
  perm_inverts _ (field_lt ..) _ (src_ok h).2

theorem toNat_ofNat_field (b lo n : Nat) : (BitVec.ofNat n (field b lo n)).toNat = field b lo n := by
  rw [BitVec.toNat_ofNat, Nat.mod_eq_of_lt (field_lt ..)]

theorem val_ofNat_field (b lo : Nat) : (Fin.ofNat 8 (field b lo 3)).val = field b lo 3 :=
  Nat.mod_eq_of_lt (field_lt b lo 3)

theorem bind_ok {ε α β : Type} {x : Except ε α} {f : α → Except ε β} {r : β} (h : (x >>= f) = .ok r) :
    ∃ a, x = .ok a ∧ f a = .ok r := by
  cases x with
  | error => cases h
  | ok a => exact ⟨a, rfl, h⟩

/-! ### The forms (R343, R344) -/

/-- The opcode is in the opcode map, in a form with its source operands at these places. -/
abbrev AssignedAt (opc : Nat) (places : List Nat) : Prop :=
  (∃ r ∈ opcodeRanges, r.1 ≤ opc ∧ opc ≤ r.2) ∧ sourcePlaces opc = places

/-- Body `b` under an assigned opcode reads as instruction `i`: the word of the instruction has exactly this body, and every operand
field of the opcode's form holds an assigned code. -/
structure Reads (opc : Nat) (h : Sched) (b : Nat) (i : Instr) : Prop where
  assigned : ∃ r ∈ opcodeRanges, r.1 ≤ opc ∧ opc ≤ r.2
  word : encode i = some (Enc.word opc h b)
  dest : ∃ x, Dec.dst (field b 51 10) = .ok x
  sources : ∀ p ∈ sourcePlaces opc, ∃ x, Dec.src (field b p 10) (field b (p - 4) 4) = .ok x
  target : opc ∈ bForms → i.wellFormed = true → field b 9 3 < 5

section
variable {α : Type} {dm : Nat → Option α} {em : α → Nat} {opc b : Nat} {h : Sched} {i : Instr}

/-- A form with a source operand is not the B-form, and needs no branch target. -/
theorem Reads.of_body {body p : Nat} {ps : List Nat} {d : Operand} (ha : AssignedAt opc (p :: ps))
    (hw : encode i = some (Enc.word opc h body)) (hb : body = b) (hd : Dec.dst (field b 51 10) = .ok d)
    (hs : ∀ q ∈ p :: ps, ∃ x, Dec.src (field b q 10) (field b (q - 4) 4) = .ok x) : Reads opc h b i := by
  refine ⟨ha.1, hb ▸ hw, ⟨d, hd⟩, ha.2 ▸ hs, fun hf => ?_⟩
  have hp := ha.2
  rw [sourcePlaces, if_pos hf] at hp
  cases hp

theorem gForm_reads {k : GOps → α → Instr} (ha : AssignedAt opc [41, 27, 13]) (hm : Inverts 9 dm em)
    (hk : ∀ o m, encode (k o m) = some (Enc.word opc h (Enc.gBody o (em m)))) (hb : b < 2 ^ 61)
    (e : Dec.gForm dm k b = .ok i) : Reads opc h b i := by
  rw [Dec.gForm, unpackFields_eq] at e
  obtain ⟨d, hd, e⟩ := bind_ok e
  obtain ⟨sa, hsa, e⟩ := bind_ok e
  obtain ⟨sb, hsb, e⟩ := bind_ok e
  obtain ⟨sc, hsc, e⟩ := bind_ok e
  obtain ⟨m, hmm, e⟩ := bind_ok e
  cases e
  refine .of_body ha (hk _ m) ?_ hd (by simpa using ⟨⟨sa, hsa⟩, ⟨sb, hsb⟩, ⟨sc, hsc⟩⟩)
  rw [Enc.gBody, hm _ (field_lt ..) _ (mod_ok hmm), encOperand_of_src hsa, encPerm_of_src hsa, encOperand_of_src hsb,
    encPerm_of_src hsb, encOperand_of_src hsc, encPerm_of_src hsc, encOperand_of_dst hd]
  exact packFields_whole [9, 4, 10, 4, 10, 4, 10, 10] hb

theorem iForm_reads {k : IOps → α → Instr} (ha : AssignedAt opc [41]) (hm : Inverts 5 dm em)
    (hk : ∀ o m, encode (k o m) = some (Enc.word opc h (Enc.iBody o (em m)))) (hb : b < 2 ^ 61)
    (e : Dec.iForm dm k b = .ok i) : Reads opc h b i := by
  rw [Dec.iForm, unpackFields_eq] at e
  obtain ⟨d, hd, e⟩ := bind_ok e
  obtain ⟨sa, hsa, e⟩ := bind_ok e
  obtain ⟨m, hmm, e⟩ := bind_ok e
  cases e
  refine .of_body ha (hk _ m) ?_ hd (by simpa using ⟨sa, hsa⟩)
  rw [Enc.iBody, hm _ (field_lt ..) _ (mod_ok hmm), encOperand_of_src hsa, encPerm_of_src hsa, encOperand_of_dst hd,
    toNat_ofNat_field b (0 + 5)]
  exact packFields_whole [5, 32, 4, 10, 10] hb

theorem mForm_reads {k : MOps → α → Instr} (ha : AssignedAt opc [41, 27]) (hm : Inverts 9 dm em)
    (hk : ∀ o m, encode (k o m) = some (Enc.word opc h (Enc.mBody o (em m)))) (hb : b < 2 ^ 61)
    (e : Dec.mForm dm k b = .ok i) : Reads opc h b i := by
  rw [Dec.mForm, unpackFields_eq] at e
  obtain ⟨d, hd, e⟩ := bind_ok e
  obtain ⟨sa, hsa, e⟩ := bind_ok e
  obtain ⟨sb, hsb, e⟩ := bind_ok e
  obtain ⟨m, hmm, e⟩ := bind_ok e
  cases e
  refine .of_body ha (hk _ m) ?_ hd (by simpa using ⟨⟨sa, hsa⟩, ⟨sb, hsb⟩⟩)
  rw [Enc.mBody, hm _ (field_lt ..) _ (mod_ok hmm), encOperand_of_src hsa, encPerm_of_src hsa, encOperand_of_src hsb,
    encPerm_of_src hsb, encOperand_of_dst hd, toNat_ofNat_field b (0 + 9)]
  exact packFields_whole [9, 14, 4, 10, 4, 10, 10] hb

theorem xForm_reads {k : XOps → α → Instr} (ha : AssignedAt opc [41, 27, 13]) (hm : Inverts 3 dm em)
    (hk : ∀ o m, encode (k o m) = some (Enc.word opc h (Enc.xBody o (em m)))) (hb : b < 2 ^ 61)
    (e : Dec.xForm dm k b = .ok i) : Reads opc h b i := by
  rw [Dec.xForm, unpackFields_eq] at e
  obtain ⟨d, hd, e⟩ := bind_ok e
  obtain ⟨sa, hsa, e⟩ := bind_ok e
  obtain ⟨sb, hsb, e⟩ := bind_ok e
  obtain ⟨sc, hsc, e⟩ := bind_ok e
  obtain ⟨m, hmm, e⟩ := bind_ok e
  cases e
  refine .of_body ha (hk _ m) ?_ hd (by simpa using ⟨⟨sa, hsa⟩, ⟨sb, hsb⟩, ⟨sc, hsc⟩⟩)
  rw [Enc.xBody, hm _ (field_lt ..) _ (mod_ok hmm), encOperand_of_src hsa, encPerm_of_src hsa, encOperand_of_src hsb,
    encPerm_of_src hsb, encOperand_of_src hsc, encPerm_of_src hsc, encOperand_of_dst hd, val_ofNat_field, val_ofNat_field]
  exact packFields_whole [3, 3, 3, 4, 10, 4, 10, 4, 10, 10] hb

theorem yForm_reads {k : YOps → Instr} (ha : AssignedAt opc [41])
    (hk : ∀ o, encode (k o) = some (Enc.word opc h (Enc.yBody o))) (hb : b < 2 ^ 61)
    (e : Dec.yForm k b = .ok i) : Reads opc h b i := by
  rw [Dec.yForm, unpackFields_eq] at e
  split at e
  · rename_i hf
    simp only [fieldsFrom, Nat.zero_add, Nat.reduceAdd, List.cons.injEq, and_true] at hf
    obtain ⟨h0, rfl, rfl, rfl, rfl⟩ := hf
    obtain ⟨d, hd, e⟩ := bind_ok e
    obtain ⟨sa, hsa, e⟩ := bind_ok e
    cases e
    refine .of_body ha (hk _) ?_ hd (by simpa using ⟨sa, hsa⟩)
    rw [Enc.yBody, ← h0, encOperand_of_src hsa, encPerm_of_src hsa, encOperand_of_dst hd, toNat_ofNat_field]
    exact packFields_whole [23, 14, 4, 10, 10] hb
  · cases e

theorem bForm_reads {k : BOps → Instr} (ha : AssignedAt opc [])
    (hk : ∀ o, encode (k o) = some (Enc.word opc h (Enc.bBody o)))
    (ht : ∀ o, (k o).wellFormed = true → o.off.toNat % 8 < 5) (hb : b < 2 ^ 61)
    (e : Dec.bForm k b = .ok i) : Reads opc h b i := by
  rw [Dec.bForm, unpackFields_eq] at e
  split at e
  · rename_i hf
    simp only [fieldsFrom, Nat.zero_add, Nat.reduceAdd, List.cons.injEq, and_true] at hf
    obtain ⟨h0, rfl, rfl⟩ := hf
    obtain ⟨d, hd, e⟩ := bind_ok e
    cases e
    refine ⟨ha.1, (hk _).trans (congrArg (some <| Enc.word opc h ·) ?_), ⟨d, hd⟩, by simp [ha.2], fun _ hw => ?_⟩
    · rw [Enc.bBody, ← h0, encOperand_of_dst hd, toNat_ofNat_field]
      exact packFields_whole [9, 42, 10] hb
    · have hslot := ht _ hw
      have hsub : field (field b 9 42) 0 3 = field b 9 3 := field_field (by decide)
      rw [toNat_ofNat_field] at hslot
      rwa [← hsub, field_zero]
  · cases e

end

/-- Both forms of CVT have the one encoding (R390). -/
theorem encode_cvtForm (h : Sched) (o : GOps) (m : ModCvt) :
    encode (Dec.cvtForm h o m) = some (Enc.word 0x0A0 h (Enc.gBody o (Enc.modCvt m))) := by
  unfold Dec.cvtForm
  split <;> rfl

theorem bra_target {h : Sched} {o : BOps} (hw : (Instr.bra h o).wellFormed = true) : o.off.toNat % 8 < 5 :=
  of_decide_eq_true (Bool.and_eq_true_iff.mp (Bool.and_eq_true_iff.mp hw).1).2

theorem call_target {h : Sched} {o : BOps} (hw : (Instr.call h o).wellFormed = true) : o.off.toNat % 8 < 5 :=
  of_decide_eq_true (Bool.and_eq_true_iff.mp (Bool.and_eq_true_iff.mp hw).1).2

/-- The opcode map row by row: each assigned opcode reads its form, with a MOD field that its writer gives back. -/
theorem decodeBody_reads {opc b : Nat} {h : Sched} {i : Instr} (hb : b < 2 ^ 61) (e : decodeBody opc h b = .ok i) :
    Reads opc h b i := by
  unfold decodeBody at e
  split at e
  any_goals exact gForm_reads (by decide) (by decide +kernel) (fun _ _ => rfl) hb e
  any_goals exact iForm_reads (by decide) (by decide) (fun _ _ => rfl) hb e
  any_goals exact mForm_reads (by decide) (by decide +kernel) (fun _ _ => rfl) hb e
  any_goals exact xForm_reads (by decide) (by decide) (fun _ _ => rfl) hb e
  any_goals exact yForm_reads (by decide) (fun _ => rfl) hb e
  · exact gForm_reads (by decide) (by decide +kernel) (encode_cvtForm h) hb e
  · exact bForm_reads (by decide) (fun _ => rfl) (fun _ => bra_target) hb e
  · exact bForm_reads (by decide) (fun _ => rfl) (fun _ => call_target) hb e
  · cases e

/-! ### Whole words -/

theorem sched_ok {x : Nat} {h : Sched} (hx : x < 2 ^ 25) (e : Dec.sched x = .ok h) : field x 1 4 ≤ 12 ∧ Enc.sched h = x := by
  rw [Dec.sched, unpackFields_eq] at e
  obtain ⟨f, hf, e⟩ := bind_ok e
  cases e
  obtain ⟨hle, hf⟩ := setf_ok hf
  refine ⟨hle, ?_⟩
  rw [Enc.sched, hf, encBit_bit (field_lt ..), encBit_bit (field_lt ..), encBit_bit (field_lt ..), val_ofNat_field, val_ofNat_field,
    toNat_ofNat_field]
  exact packFields_whole [1, 4, 3, 12, 1, 3, 1] hx

/-- A word that decodes: its scheduling fields and its body read, and the instruction is a legal one. -/
theorem decodeWord_ok {w : Nat} {i : Instr} (e : decodeWord w = .ok i) :
    i.wellFormed = true ∧ ∃ h, Dec.sched (field w 61 25) = .ok h ∧ Reads (wordOpcode w) h (field w 0 61) i := by
  obtain ⟨h, hs, e⟩ := bind_ok e
  obtain ⟨j, hj, e⟩ := bind_ok e
  split at e <;> cases e
  rw [← field_zero w 61] at hj
  exact ⟨‹_›, h, hs, decodeBody_reads (field_lt ..) hj⟩

/-- A word that decodes is the one that its instruction is encoded as: no bit of it is ignored. -/
theorem encode_of_decodeWord {w : Nat} {i : Instr} (hw : w < 2 ^ 96) (e : decodeWord w = .ok i) : encode i = some w := by
  obtain ⟨-, h, hs, hr⟩ := decodeWord_ok e
  rw [hr.word, Enc.word, (sched_ok (field_lt ..) hs).2]
  exact congrArg some (packFields_whole [61, 25, 10] hw)

theorem le_of_mem_sourcePlaces {opc p : Nat} (h : p ∈ sourcePlaces opc) : p ≤ 41 := by
  unfold sourcePlaces at h
  repeat' split at h
  all_goals simp only [List.mem_cons, List.not_mem_nil, or_false] at h <;> omega

/-- A word with a reserved encoding is no instruction (R364). -/
theorem decodeWord_of_reserved {w : Nat} (hw : w < 2 ^ 96) (hres : ReservedWord w) (i : Instr) : decodeWord w ≠ .ok i := by
  intro e
  obtain ⟨hwf, h, hs, hr⟩ := decodeWord_ok e
  have hfield {lo n : Nat} (hn : lo + n ≤ 61) : field (field w 0 61) lo n = field w lo n := by
    rw [field_field hn, Nat.zero_add]
  rcases hres with hopc | hsetf | hdst | ⟨p, hp, hsrc⟩ | ⟨hb, hslot⟩ | hnone
  · obtain ⟨r, hmem, h1, h2⟩ := hr.assigned
    have := hopc r hmem
    omega
  · have hle : field (field w 61 25) 1 4 ≤ 12 := (sched_ok (field_lt ..) hs).1
    rw [field_field (by decide)] at hle
    exact absurd hle (Nat.not_le.mpr hsetf)
  · obtain ⟨x, hx⟩ := hr.dest
    have ho := dst_ok hx
    rw [hfield (by decide), operand_of_reserved (field_lt ..) hdst] at ho
    cases ho
  · obtain ⟨x, hx⟩ := hr.sources p hp
    obtain ⟨ho, hq⟩ := src_ok hx
    have hle := le_of_mem_sourcePlaces hp
    rw [hfield (by omega)] at ho hq
    rcases hsrc with hc | hc
    · rw [operand_of_reserved (field_lt ..) hc] at ho
      cases ho
    · rw [hc] at hq
      cases hq
  · have hlt := hr.target hb hwf
    rw [hfield (by decide)] at hlt
    omega
  · exact hnone i hwf (encode_of_decodeWord hw e)

end Sys2Proof.Machine
end

section
namespace Sys2Proof.Machine

/-! ### Taking a fault (R227, R329) -/

/-- Only the event queues of host functions and the Ethernet messages differ: what an event changes (R99, R100). -/
def SameButEvents (s t : State) : Prop := t = { s with funcs := t.funcs, ethWait := t.ethWait, ethOut := t.ethOut }

theorem SameButEvents.trans {s t u : State} (a : SameButEvents s t) (b : SameButEvents t u) : SameButEvents s u := by
  unfold SameButEvents at *
  rw [b, a]

theorem SameButEvents.wgs {s t : State} (h : SameButEvents s t) : t.wgs = s.wgs := by rw [h]

theorem SameButEvents.part {s t : State} (h : SameButEvents s t) (p : Nat) : t.part p = s.part p := by rw [h]; rfl

theorem State.send_events (s : State) (m : EthMsg) : SameButEvents s (s.send m) := by
  unfold State.send
  split <;> rfl

theorem State.event_events (s : State) (fn kind part : Nat) (body : List Byte) : SameButEvents s (s.event fn kind part body) := by
  unfold State.event
  extract_lets f n s1
  split
  · rfl
  split
  · rfl
  split
  · exact SameButEvents.trans (t := s1) rfl (State.send_events ..)
  · rfl

/-- The fault queue of a partition once a record has come: full of held records, it loses the new one (R329). -/
def State.recordsAfter (s : State) (part n : Nat) (r : List Byte) : List (Nat × List Byte) :=
  let q := (s.part part).faultQ
  let room := if q.length < 4096 then q else dropFree (s.recordHeld part) q
  if 4096 ≤ room.length then q else room ++ [(n, r)]

theorem State.recordsAfter_room {s : State} {part : Nat} (n : Nat) (r : List Byte) (h : (s.part part).faultQ.length < 4096) :
    s.recordsAfter part n r = (s.part part).faultQ ++ [(n, r)] := by
  unfold State.recordsAfter
  simp only [if_pos h, if_neg (Nat.not_le.mpr h)]

/-- A record that comes changes its partition's record number and fault queue, and the events that tell of it. -/
theorem State.queueRecord_events (s : State) (part n : Nat) (r : List Byte) :
    SameButEvents (s.modPart part fun p => { p with frseq := n, faultQ := s.recordsAfter part n r }) (s.queueRecord part n r) := by
  unfold State.queueRecord
  extract_lets q room lost s1 s2
  have h2 : SameButEvents s1 s2 := by
    unfold s2
    split
    · rfl
    · exact State.event_events ..
  show SameButEvents s1 _
  split
  · exact h2.trans (State.event_events ..)
  · exact h2

/-- A fibre that leaves CURRENT keeps all but its latches and what it had opened in its cycle (R207). -/
theorem State.leaveCurrent_fib_same (s : State) (w k j : Nat) :
    (s.leaveCurrent w k j).fib w k j = { s.fib w k j with latches := [], pairOpen := false, second := [] } := by
  unfold State.leaveCurrent State.fib
  rw [State.slot_setSlot_same]
  split <;> exact SlotSt.fib_setFib_same ..

theorem State.leaveCurrent_fib_other (s : State) (w k j a b c : Nat) (h : (a, b, c) ≠ (w, k, j)) :
    (s.leaveCurrent w k j).fib a b c = s.fib a b c := by
  unfold State.leaveCurrent State.fib
  by_cases hs : a ≠ w ∨ b ≠ k
  · rw [State.slot_setSlot_other _ _ _ _ _ _ hs]
  · obtain ⟨rfl, rfl⟩ : a = w ∧ b = k := by omega
    have hj : c ≠ j := fun e => h (by rw [e])
    rw [State.slot_setSlot_same]
    split <;> exact (SlotSt.fib_setFib ..).trans (if_neg hj)

theorem State.leaveCurrent_current (s : State) (w k j : Nat) : ((s.leaveCurrent w k j).slot w k).current ≠ some j := by
  unfold State.leaveCurrent
  rw [State.slot_setSlot_same]
  split
  · simp
  · rename_i h
    simpa [SlotSt.setFib] using h

/-- The focus fibre FROZEN by the record of the given number, before the record is queued (R227). -/
def State.freezeFibre (s : State) (f : Focus) (n : Nat) (code : FaultCode) : State :=
  (s.leaveCurrent f.wg f.slot f.fib).modFibOf f fun fb => { fb with st := .frozen, block := none, frozenBy := some (n, code.num) }

theorem State.freezeFibre_fibOf (s : State) (f : Focus) (n : Nat) (code : FaultCode) :
    (s.freezeFibre f n code).fibOf f = { s.fibOf f with
      latches := [], pairOpen := false, second := [], st := .frozen, block := none, frozenBy := some (n, code.num) } := by
  rw [State.freezeFibre, State.fibOf_modFibOf, State.fibOf, State.leaveCurrent_fib_same]
  rfl

theorem State.freezeFibre_other (s : State) (f : Focus) (n : Nat) (code : FaultCode) (w k j : Nat)
    (h : (w, k, j) ≠ (f.wg, f.slot, f.fib)) : (s.freezeFibre f n code).fib w k j = s.fib w k j := by
  rw [← State.leaveCurrent_fib_other s _ _ _ _ _ _ h]
  refine State.fib_setFib_other _ _ _ _ _ _ _ _ ?_
  have hne : ¬ (w = f.wg ∧ k = f.slot ∧ j = f.fib) := fun ⟨hw, hk, hj⟩ => h (by rw [hw, hk, hj])
  omega

theorem State.freezeFibre_current (s : State) (f : Focus) (n : Nat) (code : FaultCode) :
    ((s.freezeFibre f n code).slot f.wg f.slot).current ≠ some f.fib := by
  rw [State.freezeFibre, State.modFibOf, State.modFib, State.setFib, State.slot_setSlot_same]
  exact s.leaveCurrent_current f.wg f.slot f.fib

theorem State.slot_of_wgs {s t : State} (h : t.wgs = s.wgs) (w k : Nat) : t.slot w k = s.slot w k := by
  rw [State.slot, State.wg, h]
  rfl

theorem State.fib_of_wgs {s t : State} (h : t.wgs = s.wgs) (w k j : Nat) : t.fib w k j = s.fib w k j := by
  rw [State.fib, State.slot_of_wgs h]
  rfl

/-- A CURRENT fibre in its place that takes a fault is FROZEN with its record, and its slot passes (R227). -/
theorem State.faultAt_taken {s : State} {f : Focus} (hp : s.inPlace f) (act : Lanes) (tr : Trap) :
    FaultTaken s (s.faultAt f act tr) f act tr := by
  obtain ⟨-, -, hst, -⟩ := hp
  let p := (s.wg f.wg).part
  let n := (s.part p).frseq + 1
  let r := faultRecord s (s.wg f.wg) f.slot f.fib f.pc act 0 0 n tr
  let u := s.freezeFibre f n tr.code
  have hrun : s.faultAt f act tr =
      { (u.queueRecord p n r).dropFail (s.wg f.wg).die (s.wg f.wg).launch.asid tr.addr with focus := none } := by
    have hlive : ((s.fib f.wg f.slot f.fib).st == .frozen || (s.fib f.wg f.slot f.fib).st == .exited) = false := by
      rw [show (s.fib f.wg f.slot f.fib).st = .current from hst]; rfl
    rw [State.faultAt, State.raiseFault, hlive]
    rfl
  have hq := u.queueRecord_events p n r
  rw [hrun]
  generalize u.queueRecord p n r = q at hq
  have hfib : q.fibOf f = _ := (State.fib_of_wgs hq.wgs ..).trans (s.freezeFibre_fibOf f n tr.code)
  obtain ⟨hregs, hpc, hrestart⟩ : SameRegs (s.fibOf f) (q.fibOf f) ∧ (q.fibOf f).pc = (s.fibOf f).pc ∧
      (q.fibOf f).restart = (s.fibOf f).restart ∧ (q.fibOf f).livein = (s.fibOf f).livein := by
    rw [hfib]; exact ⟨⟨rfl, rfl, rfl, rfl⟩, rfl, rfl, rfl⟩
  have hpart : q.part p = { s.part p with frseq := n, faultQ := u.recordsAfter p n r } :=
    (hq.part p).trans (State.part_setPart_same ..)
  have hsame : q.mem = s.mem ∧ q.accs = s.accs ∧ q.pipe = s.pipe ∧ q.counters = s.counters ∧ q.tick = s.tick := by
    rw [hq]; exact ⟨rfl, rfl, rfl, rfl, rfl⟩
  exact {
    frozen := congrArg Fibre.st hfib
    by_ := congrArg Fibre.frozenBy hfib
    regs := hregs
    pcs := hpc
    restart := hrestart
    latches := congrArg Fibre.latches hfib
    slot := fun hc => s.freezeFibre_current f n tr.code ((congrArg SlotSt.current (State.slot_of_wgs hq.wgs ..)).symm.trans hc)
    others := fun w k j h => (State.fib_of_wgs hq.wgs ..).trans (s.freezeFibre_other f n tr.code w k j h)
    memory := hsame
    number := congrArg Partition.frseq hpart
    record := fun h => (congrArg Partition.faultQ hpart).trans (State.recordsAfter_room n r h) }

/-! ### A word that passes its lanes by (R14, R324) -/

theorem Fibre.afterIssue_flagAt_idle (fb : Fibre) (f : Focus) (h : Sched) (sh : Shape) (conv : Bool) (tick : Nat)
    (latch : Option (List Dword)) (n : Nat) : (fb.afterIssue f h sh 0 conv tick latch).flagAt n = fb.flagAt n := by
  unfold Fibre.afterIssue
  cases h.setf <;> rfl

/-- With no active lane a plain word only issues: its lanes move on and no flag counts. -/
theorem State.afterIssue_passedBy {s : State} {f : Focus} {h : Sched} (hp : s.inPlace f) (conv : Bool) (latch : Option (List Dword)) :
    PassedBy s (((issueCtx s f h).put (issueCtx s f h).fb).afterIssue f h {} 0 conv latch) f := by
  obtain ⟨-, -, hst, -⟩ := hp
  have hfib : ((issueCtx s f h).put (issueCtx s f h).fb).fibOf f = { s.fibOf f with clk := (issueCtx s f h).fb.clk } :=
    (State.fib_setFib_same ..).trans (issueCtx_fb s f h)
  refine ⟨(SameMachine.setFib s _ _ _ _).trans (State.afterIssue_machine ..), .of_setFib s f _ _ (State.afterIssue_fibres ..),
    ?_, fun l hl => ?_, fun n => ?_, ?_⟩ <;> rw [State.afterIssue_fibOf, hfib]
  · rw [Fibre.afterIssue_same]; exact ⟨rfl, rfl, rfl, rfl⟩
  · exact Fibre.afterIssue_pcAt _ _ _ _ _ _ _ _ rfl rfl rfl l hl
  · exact Fibre.afterIssue_flagAt_idle ..
  · rw [Fibre.afterIssue_same]; exact ⟨hst, rfl⟩

/-! ### Words that are no instruction, at issue (R324, R326, R342, R364) -/

theorem fetchLine_of_fetchWord {s : State} {wg : Workgroup} {pc w lw : Nat} (h : fetchWord s wg pc = .word w lw) :
    ∃ bits, fetchLine s wg (pcLine pc) = .word bits lw ∧ field bits (96 * (pc % 8)) 96 = w := by
  unfold fetchWord at h
  split at h
  · rename_i hl
    cases h
    exact ⟨_, hl, rfl⟩
  · rename_i hne
    exact absurd h (hne _ _)

/-- The word is no instruction: its line has reserved bits set, or it decodes to nothing. -/
def NoInstruction (w lw : Nat) : Prop := lineReserved lw = true ∨ ∀ i, decodeWord w ≠ .ok i

theorem State.standsAt_illegal {s : State} {wg : Workgroup} {pc w lw : Nat} (h : fetchWord s wg pc = .word w lw)
    (hw : NoInstruction w lw) : s.standsAt wg pc = .illegal (rawSched w) (wordOpcode w) := by
  obtain ⟨bits, hl, rfl⟩ := fetchLine_of_fetchWord h
  unfold State.standsAt
  simp only [hl]
  rcases hw with hr | hd
  · rw [if_pos hr]
  · split
    · rfl
    · split
      · rename_i i hi
        exact absurd hi (hd i)
      · rfl

/-- The trap of a word that is no instruction: ILLEGAL_OP with its opcode as DETAIL (R328, R364). -/
def illegalTrap (w : Nat) : Trap := ⟨.illegalOp, 0xFF, 0, wordOpcode w⟩

/-- Whichever way the step came to a lane set, a word there that is no instruction issues with its trap as its only effect. -/
theorem step_illegal {s : State} {f : Focus} {w lw : Nat} (hc : s.comes f w lw) (hw : NoInstruction w lw) :
    step s = issue (rawSched w) {} (fun _ => .trap (illegalTrap w)) { s with focus := some f } := by
  obtain ⟨hquiet, ⟨hfrozen, hpower⟩, hoffer, hword, -⟩ := hc
  have hat (first : Bool) : s.issueAt f first =
      .answer (issue (rawSched w) {} (fun _ => .trap (illegalTrap w)) { s with focus := some f }) := by
    unfold State.issueAt
    rw [State.standsAt_illegal hword hw]
    rfl
  have hown : s.chooseOwn = .answer (issue (rawSched w) {} (fun _ => .trap (illegalTrap w)) { s with focus := some f }) := by
    unfold State.chooseOwn
    rcases hoffer with ⟨h1, h2, h3, h4, h5⟩ | ⟨x, k, j, h1, h2⟩ | ⟨h1, x, k, j, h2, h3⟩
    · simp only [h1, h2, h3, h4, h5, hat]
    · simp only [h1, h2, hat]
    · simp only [h1, h2, h3, hat]
  have hchoose : s.choose = s.chooseOwn := by
    unfold State.choose
    simp [hquiet, hfrozen, hpower]
  rw [step, hchoose, hown]

theorem illegalIn_of_noInstruction {w lw : Nat} (hw : NoInstruction w lw) : IllegalIn w lw := by
  intro s f hc hp
  let s1 : State := { s with focus := some f }
  have hp1 : s1.inPlace f := hp
  refine ⟨fun hact => ?_, fun hact => ?_⟩ <;> rw [step_illegal hc hw]
  · exact ⟨_, issue_trap ⟨rfl, hact⟩ rfl, State.faultAt_taken hp1 _ _⟩
  · exact ⟨_, issue_idle rfl hact, State.afterIssue_passedBy hp1 _ _⟩

/-- Settles O33: a word with a reserved encoding decodes to nothing, and a word that is no instruction, by itself or by its line,
takes ILLEGAL_OP where a lane is active and passes where none is. -/
theorem reservedEncodingsFault : Obligations.ReservedEncodingsFault := by
  refine ⟨fun w hw hres => ?_, fun w lw _ hline => illegalIn_of_noInstruction (.inl hline)⟩
  have hno := decodeWord_of_reserved hw hres
  exact ⟨hno, fun lw => illegalIn_of_noInstruction (.inr hno)⟩

end Sys2Proof.Machine
end

/-!
# Legal words by their fields (R343, R345, R352 to R355)

What a word that decodes says of its MOD field and its operands: the decoder cuts the fields, and the rules on operands restrict them.
-/

section
namespace Sys2Proof.Machine

theorem ite_of_iff {α : Type} {p q : Prop} [Decidable p] [Decidable q] (h : p ↔ q) (x y : α) :
    (if p then x else y) = if q then x else y :=
  ite_congr (propext h) (fun _ => rfl) fun _ => rfl

/-! ### Bits of a field -/

theorem testBit_field (x lo n i : Nat) : (field x lo n).testBit i = (decide (i < n) && x.testBit (lo + i)) := by
  rw [field, Nat.testBit_mod_two_pow, Nat.testBit_div_two_pow, Nat.add_comm]

theorem decBit_field (w lo : Nat) : Dec.bit (field w lo 1) = w.testBit lo := by
  rw [Nat.testBit_eq_decide_div_mod_eq]
  unfold Dec.bit field
  rw [Nat.pow_one, Nat.mod_mod]
  rfl

theorem nil_some {n : Nat} {u : Unit} (h : Dec.nil n = some u) : n = 0 := by
  unfold Dec.nil at h
  split at h
  · exact beq_iff_eq.mp ‹_›
  · cases h

/-! ### Legal words by their form (R343, R344) -/

theorem Instr.operandsOk_of_wellFormed {i : Instr} (h : i.wellFormed = true) : i.operandsOk = true := by
  unfold Instr.wellFormed at h
  split at h
  · exact (Bool.and_eq_true_iff.mp h).1
  · cases h

/-- A word that decodes: the instruction that its body reads as, with legal operands. -/
theorem decodeWord_body {w opc : Nat} {i : Instr} (e : decodeWord w = .ok i) (ho : wordOpcode w = opc) :
    i.operandsOk = true ∧ ∃ h, decodeBody opc h (field w 0 61) = .ok i := by
  obtain ⟨h, -, e⟩ := bind_ok e
  obtain ⟨j, hj, e⟩ := bind_ok e
  split at e <;> cases e
  exact ⟨Instr.operandsOk_of_wellFormed ‹_›, h, by rw [field_zero, ← ho]; exact hj⟩

section
variable {α : Type} {dm : Nat → Option α} {opc w : Nat} {i : Instr}

/-- A legal word of a G-form opcode: its instruction, its MOD field and its first operand's field (R343). -/
theorem gWord {k : Sched → GOps → α → Instr} (hk : ∀ h b, decodeBody opc h b = Dec.gForm dm (k h) b)
    (e : decodeWord w = .ok i) (ho : wordOpcode w = opc) :
    ∃ h o m, i = k h o m ∧ (k h o m).operandsOk = true ∧ dm (field w 0 9) = some m ∧
      Dec.operand (field w 41 10) = some o.a.op := by
  obtain ⟨hok, h, hb⟩ := decodeWord_body e ho
  rw [hk, Dec.gForm, unpackFields_eq] at hb
  obtain ⟨d, hd, hb⟩ := bind_ok hb
  obtain ⟨sa, hsa, hb⟩ := bind_ok hb
  obtain ⟨sb, hsb, hb⟩ := bind_ok hb
  obtain ⟨sc, hsc, hb⟩ := bind_ok hb
  obtain ⟨m, hm, hb⟩ := bind_ok hb
  cases hb
  have hmod := mod_ok hm
  have hsrc := (src_ok hsa).1
  rw [field_field (by decide)] at hmod hsrc
  exact ⟨h, _, m, rfl, hok, hmod, hsrc⟩

/-- The same for an I-form opcode (R344). -/
theorem iWord {k : Sched → IOps → α → Instr} (hk : ∀ h b, decodeBody opc h b = Dec.iForm dm (k h) b)
    (e : decodeWord w = .ok i) (ho : wordOpcode w = opc) :
    ∃ h o m, i = k h o m ∧ (k h o m).operandsOk = true ∧ dm (field w 0 5) = some m := by
  obtain ⟨hok, h, hb⟩ := decodeWord_body e ho
  rw [hk, Dec.iForm, unpackFields_eq] at hb
  obtain ⟨d, hd, hb⟩ := bind_ok hb
  obtain ⟨sa, hsa, hb⟩ := bind_ok hb
  obtain ⟨m, hm, hb⟩ := bind_ok hb
  cases hb
  have hmod := mod_ok hm
  rw [field_field (by decide)] at hmod
  exact ⟨h, _, m, rfl, hok, hmod⟩


/-- A legal word of a G-form opcode without a MOD field. -/
theorem gWordNil {k : Sched → GOps → Instr} (hk : ∀ h b, decodeBody opc h b = Dec.gForm Dec.nil (fun o _ => k h o) b)
    (e : decodeWord w = .ok i) (ho : wordOpcode w = opc) :
    ∃ h o, i = k h o ∧ (k h o).operandsOk = true ∧ field w 0 9 = 0 := by
  obtain ⟨h, o, m, hi, hok, hm, -⟩ := gWord (k := fun h o (_ : Unit) => k h o) hk e ho
  exact ⟨h, o, hi, hok, nil_some hm⟩

/-- A legal word of an I-form opcode without a MOD field. -/
theorem iWordNil {k : Sched → IOps → Instr} (hk : ∀ h b, decodeBody opc h b = Dec.iForm Dec.nil (fun o _ => k h o) b)
    (e : decodeWord w = .ok i) (ho : wordOpcode w = opc) :
    ∃ h o, i = k h o ∧ (k h o).operandsOk = true ∧ field w 0 5 = 0 := by
  obtain ⟨h, o, m, hi, hok, hm⟩ := iWord (k := fun h o (_ : Unit) => k h o) hk e ho
  exact ⟨h, o, hi, hok, nil_some hm⟩

end

/-! ### MOD fields (R355, R374, R379, R393) -/

section
variable {w : Nat}

theorem modN_field {m : ModN} (hm : Dec.modN (field w 0 9) = some m) :
    field w 0 5 = 0 ∧ m.sat = w.testBit 5 ∧ [NType.i32, .ui32, .i64, .ui64][field w 6 3]? = some m.ty := by
  unfold Dec.modN at hm
  rw [unpackFields_eq] at hm
  split at hm
  · rename_i hf
    simp only [fieldsFrom, field_field, Nat.zero_add, Nat.reduceAdd, Nat.reduceLeDiff, List.cons.injEq, and_true] at hf
    obtain ⟨h0, rfl, rfl⟩ := hf
    obtain ⟨t, ht, rfl⟩ := Option.map_eq_some_iff.mp hm
    exact ⟨h0, decBit_field w 5, ht⟩
  · cases hm

theorem flag_field {dw : Bool} (hm : Dec.flag (field w 0 9) = some dw) : dw = w.testBit 0 ∧ field w 1 8 = 0 := by
  unfold Dec.flag at hm
  split at hm <;> cases hm
  rename_i h2
  have hbit : w.testBit 0 = decide (w % 2 = 1) := Nat.testBit_zero w
  unfold field at *
  rw [hbit]
  constructor
  · rw [Bool.eq_iff_iff, beq_iff_eq, decide_eq_true_iff]
    omega
  · omega

theorem modScan_field {m : ModScan} (hm : Dec.modScan (field w 0 9) = some m) :
    [NType.i32, .ui32, .i64, .ui64][field w 6 3]? = some m.ty ∧
      [ScanOp.add, .min, .max, .and, .or, .xor][field w 3 3]? = some m.op ∧ m.excl = w.testBit 2 ∧ field w 0 2 = 0 := by
  unfold Dec.modScan at hm
  rw [unpackFields_eq] at hm
  split at hm
  · rename_i hf
    simp only [fieldsFrom, field_field, Nat.zero_add, Nat.reduceAdd, Nat.reduceLeDiff, List.cons.injEq, and_true] at hf
    obtain ⟨h0, rfl, rfl, rfl⟩ := hf
    split at hm <;> cases hm
    rename_i ht hp
    exact ⟨ht, hp, decBit_field w 2, h0⟩
  · cases hm

theorem modPset_field {m : ModPset} (hm : Dec.modPset (field w 0 9) = some m) :
    m.mask = w.testBit 0 ∧ m.d = w.testBit 1 ∧ field w 2 7 = 0 := by
  unfold Dec.modPset at hm
  rw [unpackFields_eq] at hm
  split at hm
  · rename_i hf
    simp only [fieldsFrom, field_field, Nat.zero_add, Nat.reduceAdd, Nat.reduceLeDiff, List.cons.injEq, and_true] at hf
    obtain ⟨rfl, rfl, h0⟩ := hf
    cases hm
    exact ⟨decBit_field w 0, decBit_field w 1, h0⟩
  · cases hm

/-- PLOG's MOD field has its operation in [2:0] and zeros above. -/
theorem plogOp_field {m : PlogOp} (hm : Dec.plogOp (field w 0 9) = some m) :
    [PlogOp.and, .or, .xor, .andn, .not, .mov][field w 0 3]? = some m ∧ field w 3 6 = 0 := by
  unfold Dec.plogOp Dec.pick at hm
  have hlt : field w 0 9 < 6 := (List.getElem?_eq_some_iff.mp hm).1
  have hlow : field w 0 3 = field w 0 9 := by unfold field at *; omega
  exact ⟨hlow ▸ hm, by unfold field at *; omega⟩

end

/-! ### Operand rules (R345, R352, R353) -/

theorem and_four {a b c d : Bool} (h : (a && b && c && d) = true) : a = true ∧ b = true ∧ c = true ∧ d = true := by
  simpa only [Bool.and_eq_true, and_assoc] using h

theorem eq_zero_of_no {x : Src} (h : WF.no x = true) : x = Src.zero := beq_iff_eq.mp h

theorem eq_p_of_pred {x : Src} (h : WF.pred x = true) : ∃ n, x = ⟨.p n, .none⟩ := by
  unfold WF.pred at h
  split at h
  · exact ⟨_, rfl⟩
  · cases h

theorem eq_a_of_aReg {x : Src} (h : WF.aReg x = true) : ∃ n, x = ⟨.a n, .none⟩ := by
  unfold WF.aReg at h
  split at h
  · exact ⟨_, rfl⟩
  · cases h

theorem eq_p_of_dP {d : Operand} (h : WF.dP d = true) : ∃ n, d = .p n ∧ n.val < 7 := by
  cases d with
  | p n => exact ⟨n, rfl, of_decide_eq_true h⟩
  | _ => cases h

theorem eq_v_of_dV {regs : Nat} {d : Operand} (h : WF.dV regs d = true) : ∃ n, d = .v n := by
  cases d with
  | v n => exact ⟨n, rfl⟩
  | _ => cases h

theorem eq_s_of_dS {d : Operand} (h : WF.dS d = true) : ∃ n, d = .s n := by
  cases d with
  | s n => exact ⟨n, rfl⟩
  | _ => cases h

theorem eq_a_of_dA {d : Operand} (h : WF.dA d = true) : ∃ n, d = .a n := by
  cases d with
  | a n => exact ⟨n, rfl⟩
  | _ => cases h

theorem eq_vs_of_dVS {wide : Bool} {d : Operand} (h : WF.dVS wide d = true) : (∃ n, d = .v n) ∨ ∃ n, d = .s n :=
  (Bool.or_eq_true_iff.mp h).imp eq_v_of_dV eq_s_of_dS

/-- A source that is alike in all lanes: an S register, an immediate or a special other than LANEID, without a permutation. -/
def UniformSrc (x : Src) : Prop :=
  x.perm = .none ∧ ((∃ n, x.op = .s n) ∨ (∃ k, x.op = .imm k) ∨ ∃ k, x.op = .sp k ∧ k ≠ .laneId)

theorem uniformSrc_of_val {wide : Bool} {x : Src} (h : WF.val wide true x = true) : UniformSrc x := by
  obtain ⟨op, p⟩ := x
  obtain ⟨hp, hk⟩ := Bool.and_eq_true_iff.mp h
  cases op with
  | s n => exact ⟨beq_iff_eq.mp hp, .inl ⟨n, rfl⟩⟩
  | imm k => exact ⟨beq_iff_eq.mp hp, .inr (.inl ⟨k, rfl⟩)⟩
  | sp k =>
    refine ⟨beq_iff_eq.mp hp, .inr (.inr ⟨k, rfl, ?_⟩)⟩
    rintro rfl
    cases hk
  | _ => cases hk

/-- What a legal word of layout N has beside its destination (R345, R370 to R372): unused sources are zero. -/
theorem intOp_fields {n : Nat} {sat : Bool} {o : GOps} {m : ModN} (h : WF.intOp n sat o m = true) :
    (n < 2 → o.b = Src.zero) ∧ (n < 3 → o.c = Src.zero) ∧ (sat = false → m.sat = false) := by
  obtain ⟨h, hsat⟩ := Bool.and_eq_true_iff.mp h
  obtain ⟨-, -, hb, hc⟩ := and_four h
  refine ⟨fun hn => ?_, fun hn => ?_, fun hs => ?_⟩
  · rw [if_neg (by omega)] at hb
    exact eq_zero_of_no hb
  · rw [if_neg (by omega)] at hc
    exact eq_zero_of_no hc
  · simpa only [hs, Bool.false_or, Bool.not_eq_true'] using hsat

end Sys2Proof.Machine
end

/-!
# Values of operands (R13, R349 to R353, R366)

An operand read at n bits is an n-bit number, and its signed reading is that of the library's bit vectors.
-/

section
namespace Sys2Proof.Machine

/-! ### Values that an operand read gives (R348 to R353, R366) -/

theorem cast_two_pow (n : Nat) : ((2 ^ n : Nat) : Int) = 2 ^ n := Int.natCast_pow 2 n

theorem int_two_pow_pos (n : Nat) : (0 : Int) < 2 ^ n := by
  rw [← cast_two_pow]
  exact Int.natCast_pos.mpr (Nat.two_pow_pos n)

theorem wrap_cast (n : Nat) (x : Int) : (wrap n x : Int) = x % 2 ^ n :=
  Int.toNat_of_nonneg (Int.emod_nonneg x (Int.ne_of_gt (int_two_pow_pos n)))

theorem wrap_lt (n : Nat) (x : Int) : wrap n x < 2 ^ n := by
  have hlt := Int.emod_lt_of_pos x (int_two_pow_pos n)
  rw [← wrap_cast, ← cast_two_pow] at hlt
  exact Int.ofNat_lt.mp hlt

/-- An operand read as an n-bit integer is an n-bit number. -/
theorem Ctx.rdAt_lt (c : Ctx) (k n : Nat) (x : Src) (l q : Nat) : c.rdAt k (.int n) x l q < 2 ^ n := by
  have hpos : 0 < 2 ^ n := Nat.two_pow_pos n
  unfold Ctx.rdAt
  cases x.op with
  | v m =>
    by_cases h : n = 64
    · subst h
      simp only [RdTy.bits, beq_self_eq_true, if_true]
      omega
    · simp only [RdTy.bits, beq_iff_eq, if_neg h]
      exact Nat.mod_lt _ hpos
  | imm i => exact wrap_lt n _
  | a m => exact wrap_lt n _
  | s | sp | l | w => exact Nat.mod_lt _ hpos
  | p | t | acc | b | c => exact hpos

theorem Ctx.rd_lt (c : Ctx) (k n : Nat) (x : Src) (l : Nat) : c.rd k (.int n) x l < 2 ^ n := c.rdAt_lt ..

/-! ### Integers of an n-bit type (R13, R370) -/

theorem intBits_pos (t : NType) : 0 < intBits t := by cases t <;> decide

/-- The signed reading of an n-bit number is that of the library's bit vectors. -/
theorem sextInt_eq_toInt {n : Nat} (hn : 0 < n) (x : Nat) : sextInt n x = (BitVec.ofNat n x).toInt := by
  have hhalf := Nat.two_pow_pred_add_two_pow_pred hn
  rw [BitVec.toInt_eq_toNat_cond, BitVec.toNat_ofNat]
  unfold sextInt
  simp only [show 2 * (x % 2 ^ n) < 2 ^ n ↔ x % 2 ^ n < 2 ^ (n - 1) by omega]
  push_cast
  rfl

theorem wrap_eq_toNat (n : Nat) (x : Int) : wrap n x = (BitVec.ofInt n x).toNat := by
  rw [BitVec.toNat_ofInt, wrap]
  norm_cast

/-- An integer in the range of its type is read back from its n bits. -/
theorem intOf_wrap {n : Nat} {signed : Bool} {x : Int} (hn : 0 < n) (hlo : intMin n signed ≤ x) (hhi : x ≤ intMax n signed) :
    intOf n signed (wrap n x) = x := by
  have hhalf := Nat.two_pow_pred_add_two_pow_pred hn
  cases signed with
  | false =>
    have hx : x < 2 ^ n := Int.lt_of_le_sub_one hhi
    show ((wrap n x % 2 ^ n : Nat) : Int) = x
    rw [Nat.mod_eq_of_lt (wrap_lt n x), wrap_cast, Int.emod_eq_of_lt hlo hx]
  | true =>
    simp only [intMin, intMax, if_true] at hlo hhi
    show sextInt n (wrap n x) = x
    rw [sextInt_eq_toInt hn, wrap_eq_toNat, BitVec.ofNat_toNat, BitVec.setWidth_eq, BitVec.toInt_ofInt]
    have hcast := congrArg (Nat.cast (R := Int)) hhalf
    rw [Int.natCast_add, cast_two_pow, cast_two_pow] at hcast
    apply Int.bmod_eq_of_le <;> rw [cast_two_pow] <;> omega

theorem intMin_le_intOf {n : Nat} (hn : 0 < n) (signed : Bool) (x : Nat) : intMin n signed ≤ intOf n signed x := by
  cases signed with
  | false => exact Int.natCast_nonneg _
  | true =>
    show -2 ^ (n - 1) ≤ sextInt n x
    rw [sextInt_eq_toInt hn]
    exact BitVec.le_toInt _

theorem intOf_le_intMax {n : Nat} (hn : 0 < n) (signed : Bool) (x : Nat) : intOf n signed x ≤ intMax n signed := by
  cases signed with
  | false =>
    have hlt : ((x % 2 ^ n : Nat) : Int) < (2 ^ n : Nat) := Int.ofNat_lt.mpr (Nat.mod_lt _ (Nat.two_pow_pos n))
    rw [cast_two_pow] at hlt
    exact Int.le_sub_one_of_lt hlt
  | true =>
    show sextInt n x ≤ 2 ^ (n - 1) - 1
    rw [sextInt_eq_toInt hn]
    exact Int.le_sub_one_of_lt BitVec.toInt_lt

theorem intMin_le_intMax {n : Nat} (hn : 0 < n) (signed : Bool) : intMin n signed ≤ intMax n signed :=
  Int.le_trans (intMin_le_intOf hn signed 0) (intOf_le_intMax hn signed 0)

/-- The model's result of an exact integer is clamped or wrapped as R370 says. -/
theorem arithRule_intFinish {n : Nat} (hn : 0 < n) (signed sat : Bool) (x : Int) :
    arithRule n signed sat x (intFinish n signed sat x) := by
  have hr := intMin_le_intMax hn signed
  cases sat with
  | false => exact ⟨wrap_lt n x, wrap_cast n x⟩
  | true =>
    refine ⟨wrap_lt n _, ?_⟩
    show intOf n signed (wrap n _) = _
    rw [intOf_wrap hn] <;> omega

end Sys2Proof.Machine
end

/-!
# Integer arithmetic (R370)
-/

section
namespace Sys2Proof.Machine

/-! ### Words of layout N (R355, R370 to R372) -/

/-- A legal word of an opcode with layout N and `n` sources; `sat` tells that it takes SAT. -/
theorem intWord {opc n : Nat} {sat : Bool} {c : Sched → GOps → ModN → Instr}
    (hk : ∀ h b, decodeBody opc h b = Dec.gForm Dec.modN (c h) b)
    (hw : ∀ h o m, (c h o m).operandsOk = WF.intOp n sat o m) :
    WordsOf opc fun w i => ∃ h o m, i = c h o m ∧ field w 0 5 = 0 ∧ m.sat = w.testBit 5 ∧
      [NType.i32, .ui32, .i64, .ui64][field w 6 3]? = some m.ty ∧ (n < 2 → o.b = Src.zero) ∧ (n < 3 → o.c = Src.zero) ∧
      (sat = false → m.sat = false) := by
  intro w i e ho
  obtain ⟨h, o, m, hi, hok, hm, -⟩ := gWord hk e ho
  rw [hw] at hok
  obtain ⟨h0, hsat, hty⟩ := modN_field hm
  exact ⟨h, o, m, hi, h0, hsat, hty, intOp_fields hok⟩

/-- A word of such an opcode with SAT set where the instruction takes none is no instruction. -/
theorem illegal_of_sat {opc n w : Nat} {c : Sched → GOps → ModN → Instr}
    (hk : ∀ h b, decodeBody opc h b = Dec.gForm Dec.modN (c h) b)
    (hw : ∀ h o m, (c h o m).operandsOk = WF.intOp n false o m) (ho : wordOpcode w = opc) (hs : w.testBit 5 = true) :
    IllegalWord w := by
  refine fun lw => illegalIn_of_noInstruction (.inr fun i e => ?_)
  obtain ⟨h, o, m, -, -, hsat, -, -, -, hno⟩ := intWord hk hw w i e ho
  rw [hno rfl, hs] at hsat
  cases hsat

/-! ### Integer arithmetic (R370) -/

theorem natAbs_eq_ite (a : Int) : (a.natAbs : Int) = if a < 0 then -a else a := by split <;> omega

/-- The model runs each row of the table of integer arithmetic on the row's exact function. -/
theorem exec_integerArithmetic {h : Sched} {o : GOps} {m : ModN} (s : State) :
    ∀ x ∈ integerArithmetic h o m, exec x.1 s = arithInstr x.2.1 h o m x.2.2 s := by
  simp only [integerArithmetic, List.mem_cons, List.not_mem_nil, or_false, forall_eq_or_imp, forall_eq]
  refine ⟨rfl, rfl, rfl, rfl, rfl, rfl, rfl, ?_, rfl⟩
  simp only [exec_iabs, execIabs, natAbs_eq_ite]

/-- An integer instruction writes what its function gives of the operands' values. -/
theorem intInstr_results {s : State} {f : Focus} {h : Sched} {o : GOps} {m : ModN} {n : Nat} (g : Nat → Nat → Nat → Nat)
    (hr : s.wordReady f h (usesOf o n m.ty.wide m.ty.wide)) :
    ∃ t, intInstr n h o m g s = .next t ∧ Results s t f h 4 o.d (intBits m.ty) m.ty.signed fun l =>
      g ((issueCtx s f h).rd 0 (.int (intBits m.ty)) o.a l) ((issueCtx s f h).rd 1 (.int (intBits m.ty)) o.b l)
        ((issueCtx s f h).rd 2 (.int (intBits m.ty)) o.c l) :=
  issue_guarded (fun c l => g (c.rd 0 (.int (intBits m.ty)) o.a l) (c.rd 1 (.int (intBits m.ty)) o.b l)
    (c.rd 2 (.int (intBits m.ty)) o.c l)) hr

/-- The same for an instruction on integers: its result is the exact one, finished. -/
theorem arithInstr_results {s : State} {f : Focus} {h : Sched} {o : GOps} {m : ModN} {n : Nat} (g : Int → Int → Int → Int)
    (hr : s.wordReady f h (usesOf o n m.ty.wide m.ty.wide)) :
    let v (l k : Nat) (y : Src) : Int := intOf (intBits m.ty) m.ty.signed ((issueCtx s f h).rd k (.int (intBits m.ty)) y l)
    ∃ t, arithInstr n h o m g s = .next t ∧ Results s t f h 4 o.d (intBits m.ty) m.ty.signed fun l =>
      intFinish (intBits m.ty) m.ty.signed m.sat (g (v l 0 o.a) (v l 1 o.b) (v l 2 o.c)) :=
  intInstr_results (fun a b c => intFinish (intBits m.ty) m.ty.signed m.sat
    (g (intOf (intBits m.ty) m.ty.signed a) (intOf (intBits m.ty) m.ty.signed b) (intOf (intBits m.ty) m.ty.signed c))) hr

/-- Settles O1: the words by their fields, and each result by the clamping or wrapping of the row's exact integer. -/
theorem integerArithmeticResult : Obligations.IntegerArithmeticResult := by
  refine ⟨fun k hk => ?_, fun w _ hopc hs => ?_, fun s f h o m x hx hr => ?_⟩
  · obtain rfl | rfl | rfl | rfl | rfl | rfl | rfl | rfl | rfl :
        k = 0 ∨ k = 1 ∨ k = 2 ∨ k = 3 ∨ k = 4 ∨ k = 5 ∨ k = 6 ∨ k = 7 ∨ k = 8 := by omega
    all_goals
      intro w i e ho
      obtain ⟨h, o, m, hi, h0, hsat, hty, hb, hc, -⟩ := intWord (fun _ _ => rfl) (fun _ _ _ => rfl) w i e ho
      exact ⟨h, o, m, _, rfl, hi, h0, hsat, hty, hb, hc⟩
  · rcases hopc with ho | ho | ho <;> exact illegal_of_sat (fun _ _ => rfl) (fun _ _ _ => rfl) ho hs
  · rw [exec_integerArithmetic s x hx]
    obtain ⟨t, ht, hres⟩ := arithInstr_results x.2.2 hr
    exact ⟨t, _, ht, hres, fun l _ => arithRule_intFinish (intBits_pos m.ty) ..⟩

end Sys2Proof.Machine
end

/-!
# Logic, shifts, bit fields and counts (R371, R372)

Each row of the tables is met by the number that the model computes, bit by bit; the instructions then write that number.
-/

section
namespace Sys2Proof.Machine

/-! ### Bits of logic, shifts and rotations (R371) -/

section
variable {n a b c : Nat}

/-- Bits of the model's numbers, one by one: a number with no bit from `n` up has n bits. -/
theorem bitsRule_of_testBit {p : Nat → Bool} {r : Nat} (h : ∀ i, r.testBit i = (decide (i < n) && p i)) : bitsRule n p r := by
  refine ⟨Nat.lt_pow_two_of_testBit _ fun i hi => ?_, fun i hi => ?_⟩
  · rw [h, decide_eq_false (by omega), Bool.false_and]
  · rw [h, decide_eq_true hi, Bool.true_and]

theorem testBit_complement (hb : b < 2 ^ n) (i : Nat) : (2 ^ n - 1 - b).testBit i = (decide (i < n) && !b.testBit i) := by
  rw [Nat.sub_sub, Nat.add_comm, Nat.testBit_two_pow_sub_succ hb]

theorem bitsRule_not (ha : a < 2 ^ n) : bitsRule n (fun i => !a.testBit i) (2 ^ n - 1 - a) :=
  bitsRule_of_testBit (testBit_complement ha)

theorem bitsRule_and (ha : a < 2 ^ n) : bitsRule n (fun i => a.testBit i && b.testBit i) (a &&& b) :=
  ⟨Nat.lt_of_le_of_lt Nat.and_le_left ha, fun i _ => Nat.testBit_and a b i⟩

theorem bitsRule_andn (ha : a < 2 ^ n) (hb : b < 2 ^ n) :
    bitsRule n (fun i => a.testBit i && !b.testBit i) (a &&& (2 ^ n - 1 - b)) := by
  refine ⟨Nat.lt_of_le_of_lt Nat.and_le_left ha, fun i hi => ?_⟩
  rw [Nat.testBit_and, testBit_complement hb, decide_eq_true hi, Bool.true_and]

theorem bitsRule_or (ha : a < 2 ^ n) (hb : b < 2 ^ n) : bitsRule n (fun i => a.testBit i || b.testBit i) (a ||| b) :=
  ⟨Nat.or_lt_two_pow ha hb, fun i _ => Nat.testBit_or a b i⟩

theorem bitsRule_xor (ha : a < 2 ^ n) (hb : b < 2 ^ n) : bitsRule n (fun i => a.testBit i != b.testBit i) (a ^^^ b) :=
  ⟨Nat.xor_lt_two_pow ha hb, fun i _ => Nat.testBit_xor a b i⟩

theorem bitsRule_shl (a k n : Nat) : bitsRule n (fun i => decide (k ≤ i) && a.testBit (i - k)) (a * 2 ^ k % 2 ^ n) :=
  bitsRule_of_testBit fun i => by rw [Nat.testBit_mod_two_pow, Nat.testBit_mul_two_pow]

theorem bitsRule_shr (ha : a < 2 ^ n) (k : Nat) :
    bitsRule n (fun i => decide (i + k < n) && a.testBit (i + k)) (a / 2 ^ k) := by
  refine ⟨Nat.lt_of_le_of_lt (Nat.div_le_self ..) ha, fun i _ => ?_⟩
  show _ = (decide (i + k < n) && a.testBit (i + k))
  rw [Nat.testBit_div_two_pow, ← Nat.testBit_mod_two_pow, Nat.mod_eq_of_lt ha]

/-- A sign-extended number, bit by bit. -/
theorem testBit_wrap_sextInt {w x i : Nat} (hw : 0 < w) (hi : i < n) :
    (wrap n (sextInt w x)).testBit i = x.testBit (min i (w - 1)) := by
  rw [sextInt_eq_toInt hw, wrap_eq_toNat, BitVec.testBit_toNat]
  show (BitVec.signExtend n (BitVec.ofNat w x)).getLsbD i = _
  rw [BitVec.getLsbD_signExtend, BitVec.msb_eq_getLsbD_last, BitVec.getLsbD_ofNat, BitVec.getLsbD_ofNat, decide_eq_true hi,
    decide_eq_true (by omega : w - 1 < w)]
  by_cases h : i < w
  · rw [if_pos h, decide_eq_true h, Nat.min_eq_left (by omega)]; rfl
  · rw [if_neg h, Nat.min_eq_right (by omega)]; rfl

/-- The arithmetic shift is that of the library's bit vectors. -/
theorem bitsRule_sar (hn : 0 < n) (a k : Nat) :
    bitsRule n (fun i => a.testBit (min (i + k) (n - 1))) (wrap n (sextInt n a / 2 ^ k)) := by
  refine ⟨wrap_lt n _, fun i hi => ?_⟩
  have hshift : wrap n (sextInt n a / 2 ^ k) = ((BitVec.ofNat n a).sshiftRight k).toNat := by
    rw [sextInt_eq_toInt hn, wrap_eq_toNat, BitVec.sshiftRight_eq, Int.shiftRight_eq_div_pow]
    norm_cast
  show _ = a.testBit (min (i + k) (n - 1))
  rw [hshift, BitVec.testBit_toNat, BitVec.getLsbD_sshiftRight, BitVec.msb_eq_getLsbD_last, BitVec.getLsbD_ofNat,
    BitVec.getLsbD_ofNat, decide_eq_false (by omega : ¬ n ≤ i), decide_eq_true (by omega : n - 1 < n)]
  by_cases h : k + i < n
  · rw [if_pos h, decide_eq_true h, Nat.min_eq_left (by omega), Nat.add_comm]; rfl
  · rw [if_neg h, Nat.min_eq_right (by omega)]; rfl

/-- A rotation, bit by bit: the low bits come from the top of the number. -/
theorem testBit_rotateLeft (ha : a < 2 ^ n) (hn : 0 < n) (b i : Nat) :
    (rotateLeft n a b).testBit i =
      if i < b % n then a.testBit (i + (n - b % n)) else decide (i < n) && a.testBit (i - b % n) := by
  unfold rotateLeft
  have hk : b % n < n := Nat.mod_lt _ hn
  generalize b % n = k at *
  have hsplit : 2 ^ n = 2 ^ (n - k) * 2 ^ k := by rw [← Nat.pow_add]; congr 1; omega
  have hhigh : a * 2 ^ k % 2 ^ n = 2 ^ k * (a % 2 ^ (n - k)) := by rw [hsplit, Nat.mul_mod_mul_right, Nat.mul_comm]
  have hlow : a / 2 ^ (n - k) < 2 ^ k := Nat.div_lt_of_lt_mul (hsplit ▸ ha)
  simp only
  rw [hhigh, Nat.testBit_two_pow_mul_add _ hlow, Nat.testBit_div_two_pow, Nat.testBit_mod_two_pow]
  congr 3
  exact propext (by omega)

theorem bitsRule_rol (ha : a < 2 ^ n) (hn : 0 < n) (b : Nat) :
    bitsRule n (fun i => a.testBit ((i + n - b % n) % n)) (rotateLeft n a b) := by
  have hk : b % n < n := Nat.mod_lt _ hn
  refine bitsRule_of_testBit fun i => ?_
  rw [testBit_rotateLeft ha hn]
  generalize b % n = k at *
  by_cases hi : i < k
  · rw [if_pos hi, decide_eq_true (by omega : i < n), Nat.mod_eq_of_lt (by omega), Bool.true_and]
    congr 1
    omega
  · rw [if_neg hi]
    by_cases hin : i < n
    · rw [show i + n - k = i - k + n by omega, Nat.add_mod_right, Nat.mod_eq_of_lt (by omega)]
    · rw [decide_eq_false hin, Bool.false_and, Bool.false_and]

/-- Rotating right by k is rotating left by what is left of the width. -/
theorem bitsRule_ror (ha : a < 2 ^ n) (hn : 0 < n) (b : Nat) :
    bitsRule n (fun i => a.testBit ((i + b % n) % n)) (rotateLeft n a (n - b % n)) := by
  obtain ⟨hlt, hbits⟩ := bitsRule_rol ha hn (n - b % n)
  refine ⟨hlt, fun i hi => (hbits i hi).trans ?_⟩
  show a.testBit ((i + n - (n - b % n) % n) % n) = a.testBit ((i + b % n) % n)
  have hk : b % n < n := Nat.mod_lt _ hn
  generalize b % n = k at *
  by_cases h0 : k = 0
  · rw [h0, Nat.sub_zero, Nat.mod_self, Nat.sub_zero, Nat.add_mod_right, Nat.add_zero]
  · rw [Nat.mod_eq_of_lt (by omega : n - k < n)]
    congr 2
    omega

end

/-! ### Bit fields and bytes (R372) -/

section
variable {n a b c : Nat}

theorem bitAt_eq_testBit (x i : Nat) : bitAt x i = x.testBit i := by
  rw [Nat.testBit_eq_decide_div_mod_eq]
  rfl

theorem revBits_lt (x n : Nat) : revBits x n < 2 ^ n := by
  induction n generalizing x with
  | zero => exact Nat.one_pos
  | succ n ih =>
    have hrest := ih (x / 2)
    have hbit : x % 2 * 2 ^ n ≤ 1 * 2 ^ n := Nat.mul_le_mul_right _ (Nat.le_of_lt_succ (Nat.mod_lt x Nat.two_pos))
    rw [revBits, Nat.pow_succ]
    omega

theorem testBit_revBits (x : Nat) {n i : Nat} (hi : i < n) : (revBits x n).testBit i = x.testBit (n - 1 - i) := by
  induction n generalizing x with
  | zero => omega
  | succ n ih =>
    rw [revBits, Nat.mul_comm, Nat.testBit_two_pow_mul_add _ (revBits_lt _ n)]
    by_cases h : i < n
    · rw [if_pos h, ih (x / 2) h, ← Nat.testBit_succ]
      congr 1
      omega
    · obtain rfl : i = n := by omega
      rw [if_neg h, Nat.sub_self, Nat.add_sub_cancel, Nat.sub_self, Nat.testBit_zero, Nat.testBit_zero, Nat.mod_mod]

/-- BFX takes the field, cut at the width, and extends it by the type. -/
theorem bitsRule_bitExtract (signed : Bool) (a b : Nat) :
    bitsRule n (extractedBit n signed a b) (bitExtract n signed a b) := by
  unfold bitExtract bitsRule extractedBit
  have hpos : field b 0 8 = b % 256 := field_zero b 8
  have hlen : field b 8 8 = b / 256 % 256 := rfl
  simp only [hpos, hlen, beq_iff_eq, Bool.or_eq_true, decide_eq_true_iff]
  generalize b % 256 = pos
  generalize b / 256 % 256 = len
  by_cases hnone : len = 0 ∨ n ≤ pos
  · simp only [if_pos hnone]
    exact ⟨Nat.two_pow_pos n, fun i _ => Nat.zero_testBit i⟩
  simp only [if_neg hnone]
  generalize hw : min len (n - pos) = w
  have hw0 : 0 < w := by omega
  have hwn : w ≤ n := by omega
  cases signed with
  | false =>
    refine ⟨Nat.lt_of_lt_of_le (field_lt ..) (Nat.pow_le_pow_right Nat.two_pos hwn), fun i hi => ?_⟩
    rw [if_neg Bool.false_ne_true, testBit_field, Bool.false_and]
    by_cases h : i < w
    · rw [if_pos h, decide_eq_true h, Bool.true_and]
    · rw [if_neg h, decide_eq_false h, Bool.false_and]
  | true =>
    refine ⟨wrap_lt n _, fun i hi => ?_⟩
    rw [if_pos rfl, testBit_wrap_sextInt hw0 hi, testBit_field, decide_eq_true (by omega), Bool.true_and, Bool.true_and]
    by_cases h : i < w
    · rw [if_pos h, Nat.min_eq_left (by omega)]
    · rw [if_neg h, Nat.min_eq_right (by omega), Nat.add_sub_assoc hw0]

/-- BFI lays the field of `a` over `c`. -/
theorem bitsRule_bitInsert (hc : c < 2 ^ n) (a b : Nat) : bitsRule n (insertedBit a b c) (bitInsert n a b c) := by
  unfold bitInsert insertedBit
  have hpos : field b 0 8 = b % 256 := field_zero b 8
  have hlen : field b 8 8 = b / 256 % 256 := rfl
  simp only [hpos, hlen]
  generalize b % 256 = pos
  generalize b / 256 % 256 = len
  by_cases hout : n ≤ pos
  · rw [if_pos hout]
    exact ⟨hc, fun i hi => by simp only; rw [if_neg (by omega)]⟩
  rw [if_neg hout]
  generalize hw : min len (n - pos) = w
  have hnest : c % 2 ^ pos + 2 ^ pos * (a % 2 ^ w) + 2 ^ (pos + w) * (c / 2 ^ (pos + w)) =
      2 ^ pos * (2 ^ w * (c / 2 ^ (pos + w)) + a % 2 ^ w) + c % 2 ^ pos := by
    rw [Nat.pow_add, Nat.mul_add, ← Nat.mul_assoc]
    omega
  have hbits (i : Nat) : (2 ^ pos * (2 ^ w * (c / 2 ^ (pos + w)) + a % 2 ^ w) + c % 2 ^ pos).testBit i =
      if pos ≤ i ∧ i < pos + w then a.testBit (i - pos) else c.testBit i := by
    rw [Nat.testBit_two_pow_mul_add _ (Nat.mod_lt _ (Nat.two_pow_pos pos)),
      Nat.testBit_two_pow_mul_add _ (Nat.mod_lt _ (Nat.two_pow_pos w)), Nat.testBit_mod_two_pow, Nat.testBit_mod_two_pow,
      Nat.testBit_div_two_pow]
    by_cases h1 : i < pos
    · rw [if_pos h1, if_neg (by omega), decide_eq_true h1, Bool.true_and]
    rw [if_neg h1]
    by_cases h2 : i < pos + w
    · rw [if_pos (by omega), if_pos (by omega), decide_eq_true (by omega), Bool.true_and]
    · rw [if_neg (by omega), if_neg (by omega)]
      congr 1
      omega
  rw [hnest]
  refine ⟨Nat.lt_pow_two_of_testBit _ fun i hi => ?_, fun i hi => ?_⟩
  · rw [hbits, if_neg (by omega)]
    exact Nat.testBit_lt_two_pow (Nat.lt_of_lt_of_le hc (Nat.pow_le_pow_right Nat.two_pos hi))
  · rw [hbits]
    exact ite_of_iff (by omega) _ _

/-- Bytes laid side by side, bit by bit. -/
theorem testBit_bytes (N : Nat) (y : Nat → Nat) (hy : ∀ k, y k < 2 ^ 8) (i : Nat) :
    ((List.range N).foldr (fun k x => y k + 256 * x) 0).testBit i =
      (decide (i < 8 * N) && (y (i / 8)).testBit (i % 8)) := by
  induction N generalizing y i with
  | zero => rw [List.range_zero, List.foldr_nil, Nat.zero_testBit, decide_eq_false (by omega), Bool.false_and]
  | succ N ih =>
    rw [List.range_succ_eq_map, List.foldr_cons, List.foldr_map, Nat.add_comm,
      show (256 : Nat) = 2 ^ 8 by rfl, Nat.testBit_two_pow_mul_add _ (hy 0)]
    by_cases h : i < 8
    · rw [if_pos h, decide_eq_true (by omega), Nat.div_eq_of_lt h, Nat.mod_eq_of_lt h, Bool.true_and]
    · rw [if_neg h]
      have := ih (fun k => y (k + 1)) (fun k => hy (k + 1)) (i - 8)
      simp only [Nat.succ_eq_add_one]
      rw [show (2 : Nat) ^ 8 = 256 by rfl, this, show (i - 8) / 8 + 1 = i / 8 by omega, show (i - 8) % 8 = i % 8 by omega]
      congr 2
      exact propext (by omega)

end

/-! ### Byte selection and counts (R372) -/

section
variable {n a b c : Nat}

/-- Selector `k` of PRMB, by its place in `c`. -/
theorem field_selector (c k m : Nat) : field c (4 * k) m = c / 16 ^ k % 2 ^ m := by
  rw [field, Nat.pow_mul]

/-- A byte of a number that lies above another one. -/
theorem testBit_pair (ha : a < 2 ^ n) (b j : Nat) :
    (a + 2 ^ n * b).testBit j = if j < n then a.testBit j else b.testBit (j - n) := by
  rw [Nat.add_comm, Nat.testBit_two_pow_mul_add _ ha]

/-- The byte that a selector of a 32-bit PRMB gives: a byte of {b, a}, or copies of its top bit. -/
def selectedByte (src c k : Nat) : Nat :=
  let y := field src (8 * field c (4 * k) 3) 8
  if bitAt c (4 * k + 3) then (if bitAt y 7 then 255 else 0) else y

theorem selectedByte_lt (src c k : Nat) : selectedByte src c k < 2 ^ 8 := by
  unfold selectedByte
  simp only
  split
  · split <;> decide
  · exact field_lt ..

theorem testBit_selectedByte (src c k : Nat) {i : Nat} (hi : i < 8) :
    (selectedByte src c k).testBit i = if c.testBit (4 * k + 3) then src.testBit (8 * (c / 16 ^ k % 8) + 7)
      else src.testBit (8 * (c / 16 ^ k % 8) + i) := by
  have hones : (255 : Nat).testBit i = true := by
    rw [show (255 : Nat) = 2 ^ 8 - 1 by rfl, Nat.testBit_two_pow_sub_one, decide_eq_true hi]
  unfold selectedByte
  simp only [bitAt_eq_testBit, testBit_field, field_selector, Nat.reducePow, Nat.reduceLT, decide_true, Bool.true_and]
  split
  · split
    · rw [hones, ‹src.testBit _ = true›]
    · rw [Nat.zero_testBit, eq_false_of_ne_true ‹¬ src.testBit _ = true›]
  · rw [testBit_field, decide_eq_true hi, Bool.true_and]

theorem bitsRule_byteSelect32 (ha : a < 2 ^ 32) (b c : Nat) : bitsRule 32 (permutedBit 32 a b c) (byteSelect 32 a b c) := by
  refine bitsRule_of_testBit fun i => ?_
  show ((List.range 4).foldr (fun k x => selectedByte (a + 2 ^ 32 * b) c k + 256 * x) 0).testBit i = _
  rw [testBit_bytes 4 _ (selectedByte_lt _ c), testBit_selectedByte _ _ _ (Nat.mod_lt _ (by decide)), testBit_pair ha,
    testBit_pair ha]
  rfl

theorem bitsRule_byteSelect64 (ha : a < 2 ^ 64) (b c : Nat) : bitsRule 64 (permutedBit 64 a b c) (byteSelect 64 a b c) := by
  refine bitsRule_of_testBit fun i => ?_
  show ((List.range 8).foldr (fun k x => field (a + 2 ^ 64 * b) (8 * field c (4 * k) 4) 8 + 256 * x) 0).testBit i = _
  rw [testBit_bytes 8 _ (fun _ => field_lt ..), testBit_field, decide_eq_true (Nat.mod_lt _ (by decide) : i % 8 < 8),
    Bool.true_and, testBit_pair ha, field_selector]
  rfl

/-- PRMB takes each byte of its result from {b, a}. -/
theorem bitsRule_byteSelect (t : NType) (ha : a < 2 ^ intBits t) (b c : Nat) :
    bitsRule (intBits t) (permutedBit (intBits t) a b c) (byteSelect (intBits t) a b c) := by
  cases t with
  | i32 | ui32 => exact bitsRule_byteSelect32 ha b c
  | i64 | ui64 => exact bitsRule_byteSelect64 ha b c

theorem popCount_eq_length (x n : Nat) : popCount x n = ((List.range n).filter fun i => x.testBit i).length := by
  induction n generalizing x with
  | zero => rfl
  | succ n ih =>
    rw [popCount, ih, List.range_succ_eq_map, ← List.countP_eq_length_filter, ← List.countP_eq_length_filter,
      List.countP_cons, List.countP_map, Nat.add_comm]
    congr 1
    · simp only [Function.comp_def, Nat.succ_eq_add_one, Nat.testBit_succ]
    · rw [Nat.testBit_zero]
      simp only [decide_eq_true_iff]
      split <;> omega

/-- The zeros above the top bit of a number, counted. -/
theorem leadingZeros_spec (ha : a < 2 ^ n) :
    leadingZeros n a ≤ n ∧ (∀ i, n - leadingZeros n a ≤ i → i < n → a.testBit i = false) ∧
      (leadingZeros n a < n → a.testBit (n - 1 - leadingZeros n a) = true) := by
  unfold leadingZeros
  by_cases h0 : a = 0
  · subst h0
    exact ⟨Nat.le_refl _, fun i _ _ => Nat.zero_testBit i, fun h => absurd h (Nat.lt_irrefl n)⟩
  · have hlog : a.log2 < n := (Nat.log2_lt h0).mpr ha
    rw [if_neg (fun h => h0 (beq_iff_eq.mp h))]
    refine ⟨by omega, fun i hi _ => ?_, fun _ => ?_⟩
    · exact Nat.testBit_lt_two_pow (Nat.lt_of_lt_of_le Nat.lt_log2_self (Nat.pow_le_pow_right Nat.two_pos (by omega)))
    · rw [show n - 1 - (n - 1 - a.log2) = a.log2 by omega]
      exact Nat.testBit_log2 h0

/-- The zeros below the lowest bit of a number, counted. -/
theorem trailingZeros_spec (a n : Nat) :
    trailingZeros a n ≤ n ∧ (∀ i, i < trailingZeros a n → a.testBit i = false) ∧
      (trailingZeros a n < n → a.testBit (trailingZeros a n) = true) := by
  induction n generalizing a with
  | zero => exact ⟨Nat.le_refl _, fun i hi => absurd hi (Nat.not_lt_zero i), fun h => absurd h (Nat.lt_irrefl 0)⟩
  | succ n ih =>
    obtain ⟨hle, hzeros, hone⟩ := ih (a / 2)
    rw [trailingZeros]
    by_cases h : a % 2 = 1
    · rw [if_pos (beq_iff_eq.mpr h)]
      exact ⟨by omega, fun i hi => absurd hi (Nat.not_lt_zero i), fun _ => by rw [Nat.testBit_zero, decide_eq_true h]⟩
    · rw [if_neg (fun h1 => h (beq_iff_eq.mp h1))]
      refine ⟨by omega, fun i hi => ?_, fun hlt => ?_⟩
      · cases i with
        | zero => rw [Nat.testBit_zero, decide_eq_false h]
        | succ i => rw [Nat.testBit_succ, hzeros i (by omega)]
      · rw [Nat.add_comm, Nat.testBit_succ, hone (by omega)]

end

/-! ### The tables of logic, bit-field and count instructions (R371, R372) -/

section
variable (h : Sched) (o : GOps) (m : ModN)

/-- The model runs instruction `i` on a function of `k` operands of its width that meets `p`. -/
def RunsBy (i : Instr) (k : Nat) (p : Nat → Nat → Nat → Nat → Prop) : Prop :=
  ∃ g, (∀ s, exec i s = intInstr k h o m g s) ∧
    ∀ a b c, a < 2 ^ intBits m.ty → b < 2 ^ intBits m.ty → c < 2 ^ intBits m.ty → p a b c (g a b c)

theorem integerLogic_runs : ∀ x ∈ integerLogic (intBits m.ty) h o m,
    RunsBy h o m x.1 x.2.1 fun a b _ r => bitsRule (intBits m.ty) (x.2.2 a b) r := by
  have hn := intBits_pos m.ty
  simp only [integerLogic, List.mem_cons, List.not_mem_nil, or_false, forall_eq_or_imp, forall_eq]
  simp only [RunsBy, exec_and, exec_or, exec_xor, exec_andn, exec_not, exec_shl, exec_shr, exec_sar, exec_rol, exec_ror,
    execAnd, execOr, execXor, execAndn, execNot, execShl, execShr, execSar, execRol, execRor]
  exact ⟨⟨_, fun _ => rfl, fun _ _ _ ha _ _ => bitsRule_and ha⟩,
    ⟨_, fun _ => rfl, fun _ _ _ ha hb _ => bitsRule_or ha hb⟩,
    ⟨_, fun _ => rfl, fun _ _ _ ha hb _ => bitsRule_xor ha hb⟩,
    ⟨_, fun _ => rfl, fun _ _ _ ha hb _ => bitsRule_andn ha hb⟩,
    ⟨_, fun _ => rfl, fun _ _ _ ha _ _ => bitsRule_not ha⟩,
    ⟨_, fun _ => rfl, fun a _ _ _ _ _ => bitsRule_shl a _ _⟩,
    ⟨_, fun _ => rfl, fun _ _ _ ha _ _ => bitsRule_shr ha _⟩,
    ⟨_, fun _ => rfl, fun a _ _ _ _ _ => bitsRule_sar hn a _⟩,
    ⟨_, fun _ => rfl, fun _ b _ ha _ _ => bitsRule_rol ha hn b⟩,
    ⟨_, fun _ => rfl, fun _ b _ ha _ _ => bitsRule_ror ha hn b⟩⟩

theorem bitsRule_revBits (n a : Nat) : bitsRule n (fun i => a.testBit (n - 1 - i)) (revBits a n) :=
  ⟨revBits_lt a n, fun _ hi => testBit_revBits a hi⟩

theorem integerFields_run : ∀ x ∈ integerFields (intBits m.ty) h o m,
    RunsBy h o m x.1 x.2.1 fun a b c r => bitsRule (intBits m.ty) (x.2.2 a b c) r := by
  simp only [integerFields, List.mem_cons, List.not_mem_nil, or_false, forall_eq_or_imp, forall_eq]
  simp only [RunsBy, exec_brev, exec_bfx, exec_bfi, exec_prmb, execBrev, execBfx, execBfi, execPrmb]
  exact ⟨⟨_, fun _ => rfl, fun a _ _ _ _ _ => bitsRule_revBits _ a⟩,
    ⟨_, fun _ => rfl, fun a b _ _ _ _ => bitsRule_bitExtract _ a b⟩,
    ⟨_, fun _ => rfl, fun a b _ _ _ hc => bitsRule_bitInsert hc a b⟩,
    ⟨_, fun _ => rfl, fun _ b c ha _ _ => bitsRule_byteSelect m.ty ha b c⟩⟩

theorem integerCounts_run : ∀ x ∈ integerCounts (intBits m.ty) h o m, RunsBy h o m x.1 1 fun a _ _ r => x.2 a r := by
  simp only [integerCounts, List.mem_cons, List.not_mem_nil, or_false, forall_eq_or_imp, forall_eq]
  simp only [RunsBy, exec_popc, exec_clz, exec_ctz, execPopc, execClz, execCtz]
  exact ⟨⟨_, fun _ => rfl, fun a _ _ _ _ _ => popCount_eq_length a _⟩,
    ⟨_, fun _ => rfl, fun _ _ _ ha _ _ => leadingZeros_spec ha⟩,
    ⟨_, fun _ => rfl, fun a _ _ _ _ _ => trailingZeros_spec a _⟩⟩

end

/-- What such an instruction writes: a value that meets its rule, in every active lane. -/
theorem RunsBy.results {s : State} {f : Focus} {h : Sched} {o : GOps} {m : ModN} {i : Instr} {k : Nat}
    {p : Nat → Nat → Nat → Nat → Prop} (hi : RunsBy h o m i k p) (hr : s.wordReady f h (usesOf o k m.ty.wide m.ty.wide)) :
    let v (l j : Nat) (y : Src) : Nat := (issueCtx s f h).rd j (.int (intBits m.ty)) y l
    ∃ t val, exec i s = .next t ∧ Results s t f h 4 o.d (intBits m.ty) m.ty.signed val ∧
      ∀ l ∈ activeLanes s f h, p (v l 0 o.a) (v l 1 o.b) (v l 2 o.c) (val l) := by
  obtain ⟨g, hexec, hg⟩ := hi
  obtain ⟨t, ht, hres⟩ := intInstr_results g hr
  exact ⟨t, _, (hexec s).trans ht, hres, fun l _ => hg _ _ _ (Ctx.rd_lt ..) (Ctx.rd_lt ..) (Ctx.rd_lt ..)⟩

theorem field_zero_six {w : Nat} (h0 : field w 0 5 = 0) (h5 : w.testBit 5 = false) : field w 0 6 = 0 := by
  rw [Nat.testBit_eq_decide_div_mod_eq, decide_eq_false_iff_not] at h5
  unfold field at *
  omega

/-- A legal word of an opcode with layout N and no SAT. -/
theorem bitWord {opc n : Nat} {c : Sched → GOps → ModN → Instr}
    (hk : ∀ h b, decodeBody opc h b = Dec.gForm Dec.modN (c h) b)
    (hw : ∀ h o m, (c h o m).operandsOk = WF.intOp n false o m) :
    WordsOf opc fun w i => ∃ h o m, i = c h o m ∧ field w 0 6 = 0 ∧ m.sat = false ∧
      [NType.i32, .ui32, .i64, .ui64][field w 6 3]? = some m.ty ∧ (n < 2 → o.b = Src.zero) ∧ (n < 3 → o.c = Src.zero) := by
  intro w i e ho
  obtain ⟨h, o, m, hi, h0, hsat, hty, hb, hc, hno⟩ := intWord hk hw w i e ho
  exact ⟨h, o, m, hi, field_zero_six h0 (hsat.symm.trans (hno rfl)), hno rfl, hty, hb, hc⟩

/-- Settles O2: the words by their fields, and each row of the three tables by the bits of its result. -/
theorem integerLogicAndBitResult : Obligations.IntegerLogicAndBitResult := by
  refine ⟨fun k hk => ?_, fun k hk => ?_, fun s f h o m => ⟨fun x hx => ?_, fun x hx => ?_, fun x hx => ?_⟩⟩
  · obtain rfl | rfl | rfl | rfl | rfl | rfl | rfl | rfl | rfl | rfl :
        k = 0 ∨ k = 1 ∨ k = 2 ∨ k = 3 ∨ k = 4 ∨ k = 5 ∨ k = 6 ∨ k = 7 ∨ k = 8 ∨ k = 9 := by omega
    all_goals
      intro w i e ho
      obtain ⟨h, o, m, hi, h0, hsat, hty, hb, hc⟩ := bitWord (fun _ _ => rfl) (fun _ _ _ => rfl) w i e ho
      exact ⟨h, o, m, _, rfl, hi, h0, hsat, hty, hb, hc (by decide)⟩
  · rcases Nat.lt_or_ge k 3 with h3 | h3
    · obtain rfl | rfl | rfl : k = 0 ∨ k = 1 ∨ k = 2 := by omega
      all_goals
        intro w i e ho
        obtain ⟨h, o, m, hi, h0, hsat, hty, hb, hc⟩ := bitWord (fun _ _ => rfl) (fun _ _ _ => rfl) w i e ho
        exact ⟨h, o, m, h0, hsat, hty, fun _ => ⟨hb (by decide), hc (by decide), _, rfl, hi⟩, fun hk => absurd hk (by decide)⟩
    · obtain rfl | rfl | rfl | rfl : k = 3 ∨ k = 4 ∨ k = 5 ∨ k = 6 := by omega
      all_goals
        intro w i e ho
        obtain ⟨h, o, m, hi, h0, hsat, hty, hb, hc⟩ := bitWord (fun _ _ => rfl) (fun _ _ _ => rfl) w i e ho
        exact ⟨h, o, m, h0, hsat, hty, fun hk => absurd hk (by decide), fun _ => ⟨_, rfl, hi, hb, hc⟩⟩
  · exact (integerLogic_runs h o m x hx).results
  · exact (integerFields_run h o m x hx).results
  · exact (integerCounts_run h o m x hx).results

end Sys2Proof.Machine
end

/-!
# Lane operations (R377 to R380)
-/

section
namespace Sys2Proof.Machine

/-- A checked instruction with a fixed-latency result, where its checks pass: it answers a next state that holds the values which its
body gives. -/
theorem issue_values {s : State} {f : Focus} {h : Sched} {u : Uses} {lat : Nat} {d : Operand} {bits : Nat} {signed : Bool}
    {val : Ctx → Nat → Nat} (hr : s.wordReady f h u) :
    ∃ t v, issue h { lat := lat } (fun c => c.guarded u (c.result h lat d bits signed (val c))) s = .next t ∧
      Results s t f h lat d bits signed v ∧ ∀ l ∈ activeLanes s f h, v l = val (issueCtx s f h) l := by
  obtain ⟨t, ht, hres⟩ := issue_guarded val hr
  exact ⟨t, _, ht, hres, fun _ _ => rfl⟩

/-- The steps and identities of scans and reductions, on numbers of the type's width (R379). -/
theorem scanStep_rules {n : Nat} (hn : 0 < n) (a b : Nat) (sg : Bool) :
    scanStep .add n sg a b = (a + b) % 2 ^ n ∧ scanStep .and n sg a b = a &&& b ∧ scanStep .or n sg a b = a ||| b ∧
    scanStep .xor n sg a b = a ^^^ b ∧ intOf n sg (scanStep .min n sg a b) = min (intOf n sg a) (intOf n sg b) ∧
    intOf n sg (scanStep .max n sg a b) = max (intOf n sg a) (intOf n sg b) ∧
    scanUnit .add n sg = 0 ∧ scanUnit .or n sg = 0 ∧ scanUnit .xor n sg = 0 ∧ scanUnit .and n sg = 2 ^ n - 1 ∧
    intOf n sg (scanUnit .min n sg) = intMax n sg ∧ intOf n sg (scanUnit .max n sg) = intMin n sg := by
  have hr := intMin_le_intMax hn sg
  refine ⟨rfl, rfl, rfl, rfl, ?_, ?_, rfl, rfl, rfl, rfl, intOf_wrap hn hr (Int.le_refl _), intOf_wrap hn (Int.le_refl _) hr⟩
  · simp only [scanStep, decide_eq_true_iff]
    split <;> omega
  · simp only [scanStep, decide_eq_true_iff]
    split <;> omega

/-- The lanes up to a lane, or below it, that a scan combines (R379). -/
theorem scan_lanes (ls : List Nat) (excl : Bool) (l : Nat) :
    (ls.filter fun k => decide (k < l) || (k == l && !excl)) = ls.filter fun k => decide (if excl then k < l else k ≤ l) := by
  refine List.filter_congr fun k _ => ?_
  rw [Bool.eq_iff_iff]
  cases excl with
  | false =>
    simp only [Bool.not_false, Bool.and_true, Bool.or_eq_true, decide_eq_true_eq, beq_iff_eq, Bool.false_eq_true, if_false]
    omega
  | true => simp only [Bool.not_true, Bool.and_false, Bool.or_false, if_true]

theorem maskOf_toNat_testBit (ls : List Nat) (q : Nat) (hls : ∀ x ∈ ls, x < 16) :
    (maskOf ls).toNat.testBit q = true ↔ q ∈ ls := by
  rw [BitVec.testBit_toNat]
  by_cases hq : q < 16
  · rw [show (maskOf ls).getLsbD q = ls.contains q from laneIn_maskOf ls q hq, List.contains_iff_mem]
  · rw [BitVec.getLsbD_of_ge _ _ (by omega)]
    exact iff_of_false Bool.false_ne_true fun h => hq (hls q h)

/-- What VOTE gives over the active lanes, by its mode (R378). -/
theorem Ctx.vote_eq (c : Ctx) (o : GOps) (m : ModVote) (l : Nat) :
    let bit (q : Nat) : Bool := c.rdPredAt o.a l q
    let v (q : Nat) : Nat := c.rdAt 0 (.int (if m.d then 64 else 32)) o.a l q
    match m.mode with
    | .any => c.vote o m l = if ∃ q ∈ lanesOf c.act, bit q = true then 1 else 0
    | .all => c.vote o m l = if ∀ q ∈ lanesOf c.act, bit q = true then 1 else 0
    | .ballot => c.vote o m l < 2 ^ 16 ∧ ∀ q, (c.vote o m l).testBit q = true ↔ q ∈ lanesOf c.act ∧ bit q = true
    | .uni => c.vote o m l = if ∀ q ∈ lanesOf c.act, ∀ r ∈ lanesOf c.act, v q = v r then 1 else 0 := by
  obtain ⟨mode, d⟩ := m
  cases mode with
  | any => exact ite_of_iff List.any_eq_true _ _
  | all => exact ite_of_iff List.all_eq_true _ _
  | ballot =>
    refine ⟨BitVec.isLt _, fun q => ?_⟩
    show (maskOf ((lanesOf c.act).filter (c.rdPredAt o.a l))).toNat.testBit q = true ↔ _
    rw [maskOf_toNat_testBit, List.mem_filter]
    exact fun x hx => ((mem_lanesOf _ _).mp (List.mem_filter.mp hx).1).1
  | uni =>
    refine ite_of_iff ?_ _ _
    rw [List.all_eq_true]
    simp only [beq_iff_eq]
    constructor
    · exact fun h q hq r hr => (h q hq).trans (h r hr).symm
    · intro h q hq
      refine h q hq _ ?_
      unfold Ctx.lane0
      cases hls : lanesOf c.act with
      | nil => rw [hls] at hq; cases hq
      | cons x xs => exact List.mem_cons_self

/-- A legal LPERM has a plain V register as its first source. -/
theorem lpermWord : WordsOf 0x050 fun w i =>
    ∃ h o dw, i = .lperm h o dw ∧ dw = w.testBit 0 ∧ field w 1 8 = 0 ∧ (∃ n, o.a = ⟨.v n, .none⟩) ∧ o.c = Src.zero := by
  intro w i e ho
  obtain ⟨h, o, dw, hi, hok, hm, -⟩ := gWord (k := .lperm) (fun _ _ => rfl) e ho
  obtain ⟨hok, hv⟩ := Bool.and_eq_true_iff.mp hok
  obtain ⟨-, -, hc, hperm⟩ := and_four hok
  obtain ⟨hdw, hz⟩ := flag_field hm
  obtain ⟨n, hn⟩ := eq_v_of_dV hv
  have ha : o.a = ⟨.v n, .none⟩ := by rw [← hn, ← beq_iff_eq.mp hperm]
  exact ⟨h, o, dw, hi, hdw, hz, ⟨n, ha⟩, eq_zero_of_no hc⟩

theorem iscanWord : WordsOf 0x052 fun w i => ∃ h o m, i = .iscan h o m ∧
    [NType.i32, .ui32, .i64, .ui64][field w 6 3]? = some m.ty ∧
    [ScanOp.add, .min, .max, .and, .or, .xor][field w 3 3]? = some m.op ∧ m.excl = w.testBit 2 ∧ field w 0 2 = 0 ∧
    (∃ n, o.d = .v n) ∧ o.b = Src.zero ∧ o.c = Src.zero := by
  intro w i e ho
  obtain ⟨h, o, m, hi, hok, hm, -⟩ := gWord (k := .iscan) (fun _ _ => rfl) e ho
  obtain ⟨hd, -, hb, hc⟩ := and_four hok
  obtain ⟨hty, hop, hx, h0⟩ := modScan_field hm
  exact ⟨h, o, m, hi, hty, hop, hx, h0, eq_v_of_dV hd, eq_zero_of_no hb, eq_zero_of_no hc⟩

/-- Settles O4: the words by their fields, and each operation by its value over the active lanes. -/
theorem laneOperationResult : Obligations.LaneOperationResult := by
  refine ⟨lpermWord, iscanWord, fun n hn a b _ _ sg => scanStep_rules (by omega) a b sg, fun s f h o dw hr => ?_,
    fun s f h o m hr => ?_, fun s f h o m hr => ?_, fun s f h o m hr => ?_⟩
  · rw [exec_lperm]
    exact issue_values hr
  · rw [exec_vote]
    obtain ⟨t, ht, hres⟩ := issue_guarded (fun c l => c.vote o m l) hr
    exact ⟨t, _, ht, hres, fun l _ => (issueCtx s f h).vote_eq o m l⟩
  · rw [exec_iscan, execIscan]
    simp only [scan_lanes]
    exact issue_values hr
  · rw [exec_lred]
    exact issue_resultF hr.1 (guarded_ok _ _ _ hr.2)

end Sys2Proof.Machine
end

/-!
# Affine registers (R381)
-/

section
namespace Sys2Proof.Machine

/-- The focus fibre of an issue that has put a fibre there. -/
theorem Ctx.put_fibOf (s : State) (f : Focus) (h : Sched) (fb : Fibre) : ((issueCtx s f h).put fb).fibOf f = fb :=
  State.fib_setFib_same ..

/-- The fibre that a write of an affine register leaves before the rest of the issue; under NWB it writes none (R354). -/
def Ctx.affineFibre (c : Ctx) (h : Sched) (n : Fin 16) (x : Affine) : Fibre :=
  if h.nwb then c.fb else c.fb.writeA n.val 4 c.f.lanes x

theorem Ctx.affineResult_eq (c : Ctx) (h : Sched) (n : Fin 16) (x : Affine) : c.affineResult h (.a n) x =
    .done (c.put (c.affineFibre h n x))
      (some (latchVals c.act fun l => wrap 64 (x.base.toNat + (l : Int) * x.stride.toInt))) := rfl

theorem Ctx.affineFibre_same (c : Ctx) (h : Sched) (n : Fin 16) (x : Affine) :
    c.affineFibre h n x = { c.fb with a := (c.affineFibre h n x).a, hist := (c.affineFibre h n x).hist } := by
  unfold Ctx.affineFibre
  split <;> rfl

theorem Ctx.affineFibre_aAt (c : Ctx) (h : Sched) (n : Fin 16) (x : Affine) (k : Nat) :
    (c.affineFibre h n x).aAt k = if k = n.val ∧ h.nwb = false then x else c.fb.aAt k := by
  unfold Ctx.affineFibre
  cases h.nwb with
  | true => rw [if_pos rfl, if_neg (fun hk => Bool.noConfusion hk.2)]
  | false =>
    rw [if_neg Bool.false_ne_true, Fibre.aAt_writeA]
    exact ite_of_iff (and_iff_left rfl).symm _ _

/-- Instruction `i` writes A`n`, once for all lanes, and nothing else but its latch; under NWB not even A`n` (R210, R354, R381). -/
def WritesAffine (s : State) (f : Focus) (h : Sched) (i : Instr) (n : Fin 16) (x : Affine) : Prop :=
  ∃ t, exec i s = .next t ∧ IssuedOnly s t f h ∧ (t.fibOf f).status = (s.fibOf f).status ∧
    (t.fibOf f).v = (s.fibOf f).v ∧ (t.fibOf f).s = (s.fibOf f).s ∧ (t.fibOf f).p = (s.fibOf f).p ∧
    ∀ k, (t.fibOf f).aAt k = if k = n.val ∧ h.nwb = false then x else (s.fibOf f).aAt k

theorem writesAffine_of_body {s : State} {f : Focus} {h : Sched} {i : Instr} {body : Ctx → Res} {n : Fin 16} {x : Affine}
    (he : exec i s = issue h { lat := 4 } body s) (hi : s.issues f h)
    (hb : body (issueCtx s f h) = (issueCtx s f h).affineResult h (.a n) x) : WritesAffine s f h i n x := by
  rw [Ctx.affineResult_eq] at hb
  have hsame := (issueCtx s f h).affineFibre_same h n x
  have ha := (issueCtx s f h).affineFibre_aAt h n x
  rw [issueCtx_fb] at hsame ha
  refine ⟨_, he.trans (issue_done hi hb), issuedOnly_put s f h _ _ _ hi rfl rfl rfl (by rw [hsame]), ?_⟩
  rw [State.afterIssue_fibOf, Ctx.put_fibOf, Fibre.afterIssue_same]
  exact ⟨by rw [hsame], by rw [hsame], by rw [hsame], by rw [hsame], ha⟩

/-- Words of the affine instructions: A registers where R381 reads a register, uniform sources elsewhere. -/
theorem asetWord : WordsOf 0x058 fun w i => ∃ h o n, i = .aset h o ∧ o.d = .a n ∧ UniformSrc o.a ∧ field w 0 5 = 0 := by
  intro w i e ho
  obtain ⟨h, o, hi, hok, h0⟩ := iWordNil (k := .aset) (fun _ _ => rfl) e ho
  obtain ⟨hd, ha⟩ := Bool.and_eq_true_iff.mp hok
  obtain ⟨n, hn⟩ := eq_a_of_dA hd
  exact ⟨h, o, n, hi, hn, uniformSrc_of_val ha, h0⟩

theorem aaddWord : WordsOf 0x059 fun w i => ∃ h o n, i = .aadd h o ∧ o.d = .a n ∧ (∃ n, o.a = ⟨.a n, .none⟩) ∧
    (∃ n, o.b = ⟨.a n, .none⟩) ∧ o.c = Src.zero ∧ field w 0 9 = 0 := by
  intro w i e ho
  obtain ⟨h, o, hi, hok, h0⟩ := gWordNil (k := .aadd) (fun _ _ => rfl) e ho
  obtain ⟨hd, ha, hb, hc⟩ := and_four hok
  obtain ⟨n, hn⟩ := eq_a_of_dA hd
  exact ⟨h, o, n, hi, hn, eq_a_of_aReg ha, eq_a_of_aReg hb, eq_zero_of_no hc, h0⟩

theorem asclWord : WordsOf 0x05A fun w i => ∃ h o n, i = .ascl h o ∧ o.d = .a n ∧ (∃ n, o.a = ⟨.a n, .none⟩) ∧
    field w 0 5 = 0 := by
  intro w i e ho
  obtain ⟨h, o, hi, hok, h0⟩ := iWordNil (k := .ascl) (fun _ _ => rfl) e ho
  obtain ⟨hd, ha⟩ := Bool.and_eq_true_iff.mp hok
  obtain ⟨n, hn⟩ := eq_a_of_dA hd
  exact ⟨h, o, n, hi, hn, eq_a_of_aReg ha, h0⟩

theorem aoffWord : WordsOf 0x05B fun w i => ∃ h o n, i = .aoff h o ∧ o.d = .a n ∧ (∃ n, o.a = ⟨.a n, .none⟩) ∧
    UniformSrc o.b ∧ o.c = Src.zero ∧ field w 0 9 = 0 := by
  intro w i e ho
  obtain ⟨h, o, hi, hok, h0⟩ := gWordNil (k := .aoff) (fun _ _ => rfl) e ho
  obtain ⟨hd, ha, hb, hc⟩ := and_four hok
  obtain ⟨n, hn⟩ := eq_a_of_dA hd
  exact ⟨h, o, n, hi, hn, eq_a_of_aReg ha, uniformSrc_of_val hb, eq_zero_of_no hc, h0⟩

theorem aexpWord : WordsOf 0x05C fun w i => ∃ h o dw n, i = .aexp h o dw ∧ o.d = .v n ∧ (∃ n, o.a = ⟨.a n, .none⟩) ∧
    o.b = Src.zero ∧ o.c = Src.zero ∧ dw = w.testBit 0 ∧ field w 1 8 = 0 := by
  intro w i e ho
  obtain ⟨h, o, dw, hi, hok, hm, -⟩ := gWord (k := .aexp) (fun _ _ => rfl) e ho
  obtain ⟨hd, ha, hb, hc⟩ := and_four hok
  obtain ⟨n, hn⟩ := eq_v_of_dV hd
  obtain ⟨hdw, hz⟩ := flag_field hm
  exact ⟨h, o, dw, n, hi, hn, eq_a_of_aReg ha, eq_zero_of_no hb, eq_zero_of_no hc, hdw, hz⟩

/-- An affine register read as a value gives each lane its own base + lane * stride (R349, R381). -/
theorem Ctx.rd_affine (c : Ctx) (k w : Nat) (n : Fin 16) (l : Nat) : (c.rd k (.int w) ⟨.a n, .none⟩ l : Int) =
    ((c.readA l n).base.toNat + (l : Int) * (c.readA l n).stride.toInt) % 2 ^ w :=
  wrap_cast w _

/-- Settles O5: the words by their fields, each affine write as one write of the register, and AEXP by the value of an A source. -/
theorem affineRegisterResult : Obligations.AffineRegisterResult := by
  refine ⟨⟨asetWord, aaddWord, asclWord, aoffWord, aexpWord⟩, fun s f h => ⟨fun o n hd hr => ?_, fun o n hd hr => ?_,
    fun o n hd hr => ?_, fun o n hd hr => ?_, fun o dw n ha hr => ?_⟩⟩
  · exact writesAffine_of_body (exec_aset ..) hr.1 ((guarded_ok _ _ _ hr.2).trans (by rw [hd]))
  · exact writesAffine_of_body (exec_aadd ..) hr.1 ((guarded_ok _ _ _ hr.2).trans (by rw [hd]; rfl))
  · exact writesAffine_of_body (exec_ascl ..) hr.1 ((guarded_ok _ _ _ hr.2).trans (by rw [hd]; rfl))
  · exact writesAffine_of_body (exec_aoff ..) hr.1 ((guarded_ok _ _ _ hr.2).trans (by rw [hd]; rfl))
  · rw [exec_aexp]
    obtain ⟨t, v, ht, hres, hv⟩ := issue_values (val := fun c l => c.rd 0 (.int (if dw then 64 else 32)) o.a l) hr
    refine ⟨t, v, ht, hres, fun l hl => ?_⟩
    rw [hv l hl, ha]
    exact Ctx.rd_affine ..

end Sys2Proof.Machine
end

/-!
# Predicates (R393)
-/

section
namespace Sys2Proof.Machine

theorem psetWord : WordsOf 0x060 fun w i => ∃ h o m, i = .pset h o m ∧ m.mask = w.testBit 0 ∧ m.d = w.testBit 1 ∧
    field w 2 7 = 0 ∧ (∃ n, o.d = .p n ∧ n.val < 7) ∧ (m.mask = true → ∀ n, o.a.op ≠ .v n) ∧ o.b = Src.zero ∧
    o.c = Src.zero ∧ Dec.operand (field w 41 10) = some o.a.op := by
  intro w i e ho
  obtain ⟨h, o, m, hi, hok, hm, hsrc⟩ := gWord (k := .pset) (fun _ _ => rfl) e ho
  obtain ⟨hd, hb, hc, ha⟩ := and_four hok
  obtain ⟨hmask, hdw, hz⟩ := modPset_field hm
  refine ⟨h, o, m, hi, hmask, hdw, hz, eq_p_of_dP hd, fun hmk n hv => ?_, eq_zero_of_no hb, eq_zero_of_no hc, hsrc⟩
  rw [if_pos hmk, Bool.and_eq_true] at ha
  obtain ⟨-, ⟨k, hk⟩ | ⟨k, hk⟩ | ⟨k, hk, -⟩⟩ := uniformSrc_of_val ha.2 <;> rw [hv] at hk <;> cases hk

/-- PSET.MASK with a V source is no instruction. -/
theorem illegal_psetMask {w : Nat} (ho : wordOpcode w = 0x060) (hmask : w.testBit 0 = true) (hv : field w 49 2 = 0) :
    IllegalWord w := by
  refine fun lw => illegalIn_of_noInstruction (.inr fun i e => ?_)
  obtain ⟨h, o, m, -, hm, -, -, -, hno, -, -, hsrc⟩ := psetWord w i e ho
  have hsmall : field w 41 10 < 256 := by unfold field at *; omega
  rw [Dec.operand, if_pos hsmall, Option.some.injEq] at hsrc
  exact hno (hm.trans hmask) _ hsrc.symm

theorem plogWord : WordsOf 0x061 fun w i => ∃ h o m, i = .plog h o m ∧
    [PlogOp.and, .or, .xor, .andn, .not, .mov][field w 0 3]? = some m ∧ field w 3 6 = 0 ∧ (∃ n, o.d = .p n ∧ n.val < 7) ∧
    (∃ n, o.a = ⟨.p n, .none⟩) ∧ (if m = .not ∨ m = .mov then o.b = Src.zero else ∃ n, o.b = ⟨.p n, .none⟩) ∧
    o.c = Src.zero := by
  intro w i e ho
  obtain ⟨h, o, m, hi, hok, hm, -⟩ := gWord (k := .plog) (fun _ _ => rfl) e ho
  obtain ⟨hd, ha, hc, hb⟩ := and_four hok
  obtain ⟨hop, hz⟩ := plogOp_field hm
  refine ⟨h, o, m, hi, hop, hz, eq_p_of_dP hd, eq_p_of_pred ha, ?_, eq_zero_of_no hc⟩
  simp only [Bool.or_eq_true, beq_iff_eq] at hb
  by_cases hone : m = .not ∨ m = .mov
  · rw [if_pos hone] at hb ⊢
    exact eq_zero_of_no hb
  · rw [if_neg hone] at hb ⊢
    exact eq_p_of_pred hb

theorem pcntWord : WordsOf 0x062 fun w i => ∃ h o, i = .pcnt h o ∧ field w 0 9 = 0 ∧ ((∃ n, o.d = .v n) ∨ ∃ n, o.d = .s n) ∧
    (∃ n, o.a = ⟨.p n, .none⟩) ∧ o.b = Src.zero ∧ o.c = Src.zero := by
  intro w i e ho
  obtain ⟨h, o, hi, hok, h0⟩ := gWordNil (k := .pcnt) (fun _ _ => rfl) e ho
  obtain ⟨hd, ha, hb, hc⟩ := and_four hok
  exact ⟨h, o, hi, h0, eq_vs_of_dVS hd, eq_p_of_pred ha, eq_zero_of_no hb, eq_zero_of_no hc⟩

theorem ite_one_zero (p : Prop) [Decidable p] :
    ((if p then 1 else 0) = 1 ↔ p) ∧ ((if p then 1 else 0) = 0 ∨ (if p then 1 else 0) = 1) := by
  by_cases h : p
  · rw [if_pos h]
    exact ⟨iff_of_true rfl h, .inr rfl⟩
  · rw [if_neg h]
    exact ⟨iff_of_false Nat.zero_ne_one h, .inl rfl⟩

/-- The value of PSET is a bit: its lane's own bit under MASK, else whether the value is not zero. -/
theorem psetBit (mask : Bool) (a l : Nat) :
    let r := if mask then (if bitAt a l then 1 else 0) else if a != 0 then 1 else 0
    (r = 1 ↔ if mask then a.testBit l = true else a ≠ 0) ∧ (r = 0 ∨ r = 1) := by
  cases mask with
  | true => rw [bitAt_eq_testBit]; exact ite_one_zero _
  | false => simp only [bne_iff_ne]; exact ite_one_zero _

/-- Settles O6: the words by their fields, and each result by the bit or count of its lane. -/
theorem predicateResult : Obligations.PredicateResult := by
  refine ⟨⟨fun w i e ho => ?_, plogWord, pcntWord, fun w _ ho hmask hv => illegal_psetMask ho hmask hv⟩,
    fun s f h o => ⟨fun m hr => ?_, fun m hr => ?_, fun hr => ?_⟩⟩
  · obtain ⟨h, o, m, hi, hmask, hd, hz, hdst, hno, hb, hc, -⟩ := psetWord w i e ho
    exact ⟨h, o, m, hi, hmask, hd, hz, hdst, hno, hb, hc⟩
  · rw [exec_pset]
    obtain ⟨t, v, ht, hres, hv⟩ := issue_values (val := fun c l =>
      if m.mask then (if bitAt (c.rd 0 (.int (if m.d then 64 else 32)) o.a l) l then 1 else 0)
      else if c.rd 0 (.int (if m.d then 64 else 32)) o.a l != 0 then 1 else 0) hr
    exact ⟨t, v, ht, hres, fun l hl => hv l hl ▸ psetBit m.mask _ l⟩
  · rw [exec_plog]
    obtain ⟨t, v, ht, hres, hv⟩ := issue_values
      (val := fun c l => if plogBit m (c.rdPred o.a l) (c.rdPred o.b l) then 1 else 0) hr
    refine ⟨t, v, ht, hres, fun l hl => (hv l hl).trans ?_⟩
    cases m <;> exact (Bool.cond_eq_ite ..).symm
  · rw [exec_pcnt]
    exact issue_values hr

end Sys2Proof.Machine
end

/-!
# Control flow (R394 to R396, R398)

A transfer rewrites the focus fibre twice before the issue's own changes: its registers, then the program counters of its active lanes.
-/

section
namespace Sys2Proof.Machine

/-! ### Branches and calls (R394 to R396) -/

theorem laneIn_and (a b : Lanes) (l : Nat) : laneIn (a &&& b) l = (laneIn a l && laneIn b l) := BitVec.getLsbD_and

theorem laneIn_not (a : Lanes) {l : Nat} (hl : l < 16) : laneIn (~~~a) l = !laneIn a l := by
  unfold laneIn
  rw [BitVec.getLsbD_not, decide_eq_true hl, Bool.true_and]

theorem Guard.and_ok {a b : Guard} (h : a.and b = .ok) : a = .ok ∧ b = .ok := by
  cases a with
  | ok => exact ⟨rfl, h⟩
  | trap => cases h
  | block => cases h

/-- With every active lane's target legal, only the later checks stand before a jump. -/
theorem Ctx.land_ok {c : Ctx} {indirect : Bool} {target : Nat → Int}
    (h : ∀ l ∈ lanesOf c.act, c.landing indirect l (target l) = .ok) (later : Guard) (body : Res) :
    c.land indirect target later body = later.run body := by
  have hok : (lanesOf c.act).map (fun l => c.landing indirect l (target l)) = (lanesOf c.act).map fun _ => .ok :=
    List.map_congr_left h
  have hnone {β : Type} (g : Landing → Option β) (hg : g .ok = none) :
      ((lanesOf c.act).map fun _ => Landing.ok).findSome? g = none := by
    rw [List.findSome?_eq_none_iff]
    intro x hx
    obtain ⟨-, -, rfl⟩ := List.mem_map.mp hx
    exact hg
  unfold Ctx.land
  rw [hok]
  simp only
  rw [hnone _ rfl, hnone _ rfl, hnone _ rfl]

/-- State `u` is `s` with its focus fibre rewritten as `fb`. -/
structure FibreSet (s u : State) (f : Focus) (fb : Fibre) : Prop where
  machine : SameMachine s u
  frame : ∀ t, SameButFibre u t f → SameButFibre s t f
  fibre : u.fibOf f = fb

theorem FibreSet.setFib (s : State) (f : Focus) (fb : Fibre) : FibreSet s (s.setFib f.wg f.slot f.fib fb) f fb :=
  ⟨SameMachine.setFib .., SameButFibre.of_setFib s f fb, State.fib_setFib_same ..⟩

theorem FibreSet.modFibOf {s u : State} {f : Focus} {fb : Fibre} (h : FibreSet s u f fb) (g : Fibre → Fibre) :
    FibreSet s (u.modFibOf f g) f (g fb) := by
  have hset : FibreSet u (u.modFibOf f g) f (g (u.fibOf f)) := FibreSet.setFib ..
  exact ⟨h.machine.trans hset.machine, fun t ht => h.frame t (hset.frame t ht), h.fibre ▸ hset.fibre⟩

theorem Fibre.afterIssue_pcAt_jumps (fb : Fibre) (f : Focus) (h : Sched) (sh : Shape) (act : Lanes) (conv : Bool) (tick : Nat)
    (latch : Option (List Dword)) (hj : sh.jumps = true) (he : sh.enters = false) (hp : sh.pair = false) (l : Nat) (hl : l < 16) :
    (fb.afterIssue f h sh act conv tick latch).pcAt l =
      if laneIn (f.lanes &&& ~~~act &&& fb.live) l = true then nextPc f.pc else fb.pcAt l := by
  have key : (fb.afterIssue f h sh act conv tick latch).pcAt l =
      (fb.moveTo (f.lanes &&& ~~~act &&& fb.live) (fun _ => nextPc f.pc)).pcAt l := by
    unfold Fibre.afterIssue Fibre.pcAt
    simp only [hj, he, hp]
    cases h.setf with
    | none => rfl
    | some n =>
      simp only
      split
      · rfl
      · split <;> rfl
  rw [key, Fibre.moveTo_pcAt _ _ _ _ hl]

section
variable {s u : State} {f : Focus} {h : Sched} {fb : Fibre} {target : Nat → Nat}

/-- A jump of the active lanes, from a fibre whose registers alone may have been written, issues as R395 says. -/
theorem jumpedOnly_of_set (hi : s.issues f h)
    (hu : FibreSet s u f (fb.moveTo (issueCtx s f h).act target))
    (hfb : fb = { s.fibOf f with v := fb.v, s := fb.s, a := fb.a, p := fb.p, hist := fb.hist, clk := fb.clk })
    (lat : Nat) (conv : Bool) (latch : Option (List Dword)) :
    JumpedOnly s (u.afterIssue f h { lat := lat, jumps := true } (issueCtx s f h).act conv latch) f h target := by
  have hpc : fb.pc = (s.fibOf f).pc := by rw [hfb]
  have hlive : fb.live = (s.fibOf f).live := by rw [hfb]
  refine ⟨hu.machine.trans (State.afterIssue_machine ..), hu.frame _ (State.afterIssue_fibres ..), ?_, ?_, fun n => ?_,
    fun l hl => ?_⟩ <;> rw [State.afterIssue_fibOf, hu.fibre]
  · unfold Fibre.sameButRegs
    rw [Fibre.afterIssue_same, hfb]
    rfl
  · rw [Fibre.afterIssue_same, hfb]
    rfl
  · rw [Fibre.afterIssue_flagAt _ _ _ _ _ _ _ _ hi.2, hfb]
    rfl
  · rw [Fibre.afterIssue_pcAt_jumps _ _ _ _ _ _ _ _ rfl rfl rfl l hl, Fibre.moveTo_pcAt _ _ _ _ hl]
    show (if laneIn (f.lanes &&& ~~~(issueCtx s f h).act &&& fb.live) l then _ else
      if laneIn (issueCtx s f h).act l then target l else fb.pc.getD l 0) = _
    rw [hpc, hlive]
    rw [laneIn_and, laneIn_and, laneIn_and, laneIn_not _ hl]
    cases laneIn (issueCtx s f h).act l with
    | true => rw [Bool.not_true, Bool.and_false, Bool.false_and]; rfl
    | false => rw [Bool.not_false, Bool.and_true]; rfl

/-- An instruction whose body ends in a jump: its lanes move, and its registers are those that the body left. -/
theorem issue_jump {body : Ctx → Res} {lat : Nat} {latch : Option (List Dword)} {tgt : Nat → Int} (hi : s.issues f h)
    (hb : body (issueCtx s f h) = (issueCtx s f h).jump tgt (.done ((issueCtx s f h).put fb) latch))
    (hfb : fb = { s.fibOf f with v := fb.v, s := fb.s, a := fb.a, p := fb.p, hist := fb.hist, clk := fb.clk })
    (htgt : ∀ l, wrap 64 (tgt l) = target l) :
    ∃ t, issue h { lat := lat, jumps := true } body s = .next t ∧ JumpedOnly s t f h target ∧ SameRegs fb (t.fibOf f) := by
  obtain rfl : (fun l => wrap 64 (tgt l)) = target := funext htgt
  let u := ((issueCtx s f h).put fb).modFibOf f fun x => x.moveTo (issueCtx s f h).act fun l => wrap 64 (tgt l)
  have hset : FibreSet s u f (fb.moveTo (issueCtx s f h).act fun l => wrap 64 (tgt l)) := (FibreSet.setFib s f fb).modFibOf _
  have hdone : body (issueCtx s f h) = .done u latch := hb
  refine ⟨_, issue_done hi hdone, jumpedOnly_of_set hi hset hfb lat _ _, ?_⟩
  rw [State.afterIssue_fibOf, hset.fibre, Fibre.afterIssue_same]
  exact ⟨rfl, rfl, rfl, rfl⟩

end

/-- Ready operands and legal targets leave of a transfer's checks only its jump (R325, R326, R394). -/
theorem Ctx.land_checked {c : Ctx} {u : Uses} {indirect : Bool} {tgt : Nat → Int} (hu : c.check u = .ok)
    (hland : ∀ l ∈ lanesOf c.act, c.landing indirect l (tgt l) = .ok) (body : Res) :
    (c.checkNames u).run (c.land indirect tgt (c.checkAccess u) body) = body := by
  obtain ⟨hnames, haccess⟩ := Guard.and_ok hu
  rw [hnames, Ctx.land_ok hland, haccess]
  rfl

theorem extendS_whole (x : Nat) : extendS false 64 x = BitVec.ofNat 64 x := by
  apply BitVec.eq_of_toNat_eq
  show (BitVec.ofNat 64 (x % 2 ^ 64)).toNat = _
  rw [BitVec.toNat_ofNat, BitVec.toNat_ofNat, Nat.mod_mod]

/-- A result is told of the registers alone. -/
theorem ResultIn.of_sameRegs {h : Sched} {act : Lanes} {d : Operand} {regs : Nat} {x : Dword} {val : Nat → Nat}
    {fb fb1 fb2 : Fibre} (hr : ResultIn h act d regs x val fb fb1) (hs : SameRegs fb1 fb2) :
    ResultIn h act d regs x val fb fb2 := by
  obtain ⟨hv, hs, ha, hp⟩ := hs
  unfold ResultIn SameRegs Fibre.vAt Fibre.sAt Fibre.pAt at *
  rwa [hv, hs, ha, hp]

section
variable {s : State} {f : Focus} {h : Sched} {u : Uses} {indirect : Bool} {tgt : Ctx → Nat → Int} {target : Nat → Nat}

/-- A branch without a link moves its lanes and changes no register (R395). -/
theorem branch_jumps (hr : s.wordReady f h u)
    (hland : ∀ l ∈ activeLanes s f h, (issueCtx s f h).landing indirect l (tgt (issueCtx s f h) l) = .ok)
    (htgt : ∀ l, wrap 64 (tgt (issueCtx s f h) l) = target l) :
    ∃ t, branch h u indirect tgt s = .next t ∧ JumpedOnly s t f h target ∧ SameRegs (s.fibOf f) (t.fibOf f) :=
  issue_jump (fb := (issueCtx s f h).fb) hr.1 (Ctx.land_checked hr.2 hland _) (issueCtx_fb s f h) htgt

/-- A call writes the next word's address as its link and moves its lanes (R395). -/
theorem callTo_jumps {d : Operand} (hr : s.wordReady f h { u with writes := [(d, 2)] })
    (hland : ∀ l ∈ activeLanes s f h, (issueCtx s f h).landing indirect l (tgt (issueCtx s f h) l) = .ok)
    (htgt : ∀ l, wrap 64 (tgt (issueCtx s f h) l) = target l) :
    ∃ t, callTo h d u indirect tgt s = .next t ∧ JumpedOnly s t f h target ∧
      ResultIn h (issueCtx s f h).act d 2 (BitVec.ofNat 64 (nextPc f.pc)) (fun _ => nextPc f.pc) (s.fibOf f) (t.fibOf f) := by
  let fb := (issueCtx s f h).resultFibre h 4 d 64 false fun _ => nextPc f.pc
  have hsame : fb = _ := (issueCtx s f h).resultFibre_same h 4 d 64 false fun _ => nextPc f.pc
  have hin : ResultIn h _ d 2 (extendS false 64 (nextPc f.pc)) (fun _ => nextPc f.pc) (issueCtx s f h).fb fb :=
    (issueCtx s f h).resultFibre_in ..
  rw [issueCtx_fb] at hsame
  obtain ⟨t, ht, hj, hregs⟩ :
      ∃ t, callTo h d u indirect tgt s = .next t ∧ JumpedOnly s t f h target ∧ SameRegs fb (t.fibOf f) :=
    issue_jump hr.1 ((Ctx.land_checked hr.2 hland _).trans (congrArg _ (Ctx.result_eq ..))) (by rw [hsame]) htgt
  rw [extendS_whole] at hin
  exact ⟨t, ht, hj, hin.of_sameRegs hregs⟩

end

/-- A lane's indirect target is an address of 64 bits. -/
theorem wrap_indirectTarget (o : GOps) (c : Ctx) (l : Nat) : wrap 64 (indirectTarget o c l) = c.rd 0 (.int 64) o.a l := by
  refine Int.ofNat_inj.mp ?_
  rw [wrap_cast]
  exact Int.emod_eq_of_lt (Int.natCast_nonneg _) (Int.ofNat_lt.mpr (c.rd_lt 0 64 o.a l))

theorem check_noUses (c : Ctx) : c.check {} = .ok := by
  show c.checkWrites {} = .ok
  unfold Ctx.checkWrites
  split <;> rfl

/-! ### NOP (R398) -/

theorem word_mod_body (opc : Nat) (h : Sched) (b : Nat) : Enc.word opc h b % 2 ^ 61 = b % 2 ^ 61 := by
  show (b % 2 ^ 61 + 2 ^ 61 * _) % 2 ^ 61 = _
  rw [Nat.add_mul_mod_self_left, Nat.mod_mod]

theorem eq_zeros_of_gZero {o : GOps} (h : WF.gZero o = true) : o = ⟨Operand.zero, Src.zero, Src.zero, Src.zero⟩ := by
  obtain ⟨d, a, b, c⟩ := o
  obtain ⟨hd, ha, hb, hc⟩ := and_four h
  exact (GOps.mk.injEq ..).mpr ⟨beq_iff_eq.mp hd, eq_zero_of_no ha, eq_zero_of_no hb, eq_zero_of_no hc⟩

/-- A legal NOP is zero outside its opcode and its scheduling fields. -/
theorem nopWord : WordsOf 0x0C7 fun w i => (∃ h o, i = .nop h o) ∧ field w 0 61 = 0 := by
  intro w i e ho
  obtain ⟨h, o, rfl, hok, -⟩ := gWordNil (k := .nop) (fun _ _ => rfl) e ho
  obtain ⟨-, h', -, hr⟩ := decodeWord_ok e
  refine ⟨⟨h, o, rfl⟩, ?_⟩
  have hword : Enc.word 0x0C7 h (Enc.gBody o 0) = Enc.word (wordOpcode w) h' (field w 0 61) := Option.some.inj hr.word
  have hbody := congrArg (· % 2 ^ 61) hword
  simp only [word_mod_body] at hbody
  rw [Nat.mod_eq_of_lt (field_lt ..)] at hbody
  rw [← hbody, eq_zeros_of_gZero hok]
  rfl

/-- Settles O11: NOP's words by their encoding, each transfer by its jump, and NOP as an issue and nothing else. -/
theorem branchAndCallEffect : Obligations.BranchAndCallEffect := by
  refine ⟨nopWord, fun s f h => ⟨fun o hi hland => ?_, fun o hr hland => ⟨?_, ?_⟩, fun o hr hland => ?_, fun o hr hland => ?_,
    fun o hi => ?_⟩⟩
  · exact branch_jumps (tgt := directTarget o) ⟨hi, check_noUses _⟩ hland fun _ => rfl
  · exact branch_jumps (u := targetUses o) hr hland (wrap_indirectTarget o _)
  · exact branch_jumps (u := targetUses o) hr hland (wrap_indirectTarget o _)
  · exact callTo_jumps (u := {}) (tgt := directTarget o) hr hland fun _ => rfl
  · exact callTo_jumps (u := targetUses o) hr hland (wrap_indirectTarget o _)
  · rw [exec_nop, execNop]
    refine ⟨_, issue_done hi rfl, issuedOnly_put s f h {} _ none hi rfl rfl rfl (issueCtx_fb s f h), ?_⟩
    rw [State.afterIssue_fibOf, Ctx.put_fibOf, Fibre.afterIssue_same]
    exact ⟨⟨rfl, rfl, rfl, rfl⟩, rfl⟩

end Sys2Proof.Machine
end

/-!
# Tiles (R428 to R433)

A tile instruction issues as one without an effect would, beside writing one tile of its workgroup.
-/

section
namespace Sys2Proof.Machine

/-! ### Words of the tile instructions (R344, R430, R431) -/

/-- A legal word of an X-form opcode: its instruction and its XMOD field (R344). -/
theorem xWord {α : Type} {dm : Nat → Option α} {opc w : Nat} {i : Instr} {k : Sched → XOps → α → Instr}
    (hk : ∀ h b, decodeBody opc h b = Dec.xForm dm (k h) b) (e : decodeWord w = .ok i) (ho : wordOpcode w = opc) :
    ∃ h o m, i = k h o m ∧ (k h o m).operandsOk = true ∧ dm (field w 0 3) = some m := by
  obtain ⟨hok, h, hb⟩ := decodeWord_body e ho
  rw [hk, Dec.xForm, unpackFields_eq] at hb
  obtain ⟨d, hd, hb⟩ := bind_ok hb
  obtain ⟨sa, hsa, hb⟩ := bind_ok hb
  obtain ⟨sb, hsb, hb⟩ := bind_ok hb
  obtain ⟨sc, hsc, hb⟩ := bind_ok hb
  obtain ⟨m, hm, hb⟩ := bind_ok hb
  cases hb
  have hmod := mod_ok hm
  rw [field_field (by decide)] at hmod
  exact ⟨h, _, m, rfl, hok, hmod⟩

/-- The low bits of a legal word are those of the body that its instruction is encoded with. -/
theorem body_of_decodeWord {w opc b : Nat} {h : Sched} {i : Instr} (e : decodeWord w = .ok i)
    (hi : encode i = some (Enc.word opc h b)) : field w 0 61 = b % 2 ^ 61 := by
  obtain ⟨-, h', -, hr⟩ := decodeWord_ok e
  have hword : Enc.word opc h b = Enc.word (wordOpcode w) h' (field w 0 61) := Option.some.inj (hi.symm.trans hr.word)
  have hbody := congrArg (· % 2 ^ 61) hword
  simp only [word_mod_body] at hbody
  rw [hbody, Nat.mod_eq_of_lt (field_lt ..)]

theorem modTcfg_field {w : Nat} {m : ModTcfg} (hm : Dec.modTcfg (field w 0 3) = some m) :
    m.t = w.testBit 0 ∧ m.noorg = w.testBit 1 ∧ m.kt = w.testBit 2 := by
  unfold Dec.modTcfg at hm
  rw [unpackFields_eq] at hm
  split at hm
  · rename_i hf
    simp only [fieldsFrom, field_field, Nat.zero_add, Nat.reduceAdd, Nat.reduceLeDiff, List.cons.injEq, and_true] at hf
    obtain ⟨rfl, rfl, rfl⟩ := hf
    cases hm
    exact ⟨decBit_field w 0, decBit_field w 1, decBit_field w 2⟩
  · cases hm

theorem eq_t_of_dT {d : Operand} (h : WF.dT d = true) : ∃ n, d = .t n := by
  cases d with
  | t n => exact ⟨n, rfl⟩
  | _ => cases h

theorem eq_s_of_s {x : Src} (h : WF.s x = true) : ∃ n, x = ⟨.s n, .none⟩ := by
  unfold WF.s at h
  split at h
  · exact ⟨_, rfl⟩
  · cases h

theorem tcfgWord : WordsOf 0x180 fun w i => ∃ h o m, i = .tcfg h o m ∧ m.t = w.testBit 0 ∧ m.noorg = w.testBit 1 ∧
    m.kt = w.testBit 2 ∧ (m.kt = true → m.t = false) ∧ (∃ n, o.d = .t n) ∧
    (if m.noorg then o.a = Src.zero else ∃ n, o.a = ⟨.s n, .none⟩) ∧ o.b = Src.zero ∧ o.c = Src.zero := by
  intro w i e ho
  obtain ⟨h, o, m, hi, hok, hm⟩ := xWord (k := .tcfg) (fun _ _ => rfl) e ho
  obtain ⟨hok, hkt⟩ := Bool.and_eq_true_iff.mp hok
  obtain ⟨hok, -⟩ := Bool.and_eq_true_iff.mp hok
  obtain ⟨hok, -⟩ := Bool.and_eq_true_iff.mp hok
  obtain ⟨hd, ha, hb, hc⟩ := and_four hok
  obtain ⟨ht, hno, hk⟩ := modTcfg_field hm
  refine ⟨h, o, m, hi, ht, hno, hk, fun hkt' => ?_, eq_t_of_dT hd, ?_, eq_zero_of_no hb, eq_zero_of_no hc⟩
  · simpa only [hkt', Bool.not_true, Bool.false_or, Bool.not_eq_true'] using hkt
  · cases hn : m.noorg with
    | true => exact eq_zero_of_no (by rwa [hn, if_pos rfl] at ha)
    | false => exact eq_s_of_s (by rwa [hn, if_neg Bool.false_ne_true] at ha)

theorem packFields_zeros (ws : List Nat) (r : List (Nat × Nat)) :
    packFields (ws.map (·, 0) ++ r) = 2 ^ ws.sum * packFields r := by
  induction ws with
  | nil => rw [List.map_nil, List.nil_append, List.sum_nil, Nat.pow_zero, Nat.one_mul]
  | cons w ws ih =>
    rw [List.map_cons, List.cons_append, packFields, ih, Nat.zero_mod, Nat.zero_add, List.sum_cons, Nat.pow_add, Nat.mul_assoc]

/-- A legal TZERO is zero below its destination. -/
theorem tzeroWord : WordsOf 0x181 fun w i => ∃ h o, i = .tzero h o ∧ (∃ n, o.d = .t n) ∧ field w 0 51 = 0 := by
  intro w i e ho
  obtain ⟨h, o, _, hi, hok, -⟩ := xWord (k := fun h o (_ : Unit) => .tzero h o) (fun _ _ => rfl) e ho
  obtain ⟨hok, hfsb⟩ := Bool.and_eq_true_iff.mp hok
  obtain ⟨hok, hfsa⟩ := Bool.and_eq_true_iff.mp hok
  obtain ⟨hd, ha, hb, hc⟩ := and_four hok
  refine ⟨h, o, hi, eq_t_of_dT hd, ?_⟩
  have hbody : Enc.xBody o 0 = 2 ^ 51 * packFields [(10, Enc.operand o.d)] := by
    rw [Enc.xBody, eq_zero_of_no ha, eq_zero_of_no hb, eq_zero_of_no hc, beq_iff_eq.mp hfsa, beq_iff_eq.mp hfsb]
    exact packFields_zeros [3, 3, 3, 4, 10, 4, 10, 4, 10] _
  have henc : encode i = some (Enc.word 0x181 h (Enc.xBody o 0)) := by rw [hi]; rfl
  calc field w 0 51 = field (field w 0 61) 0 51 := (field_field (n := 61) (lo := 0) (by decide)).symm
    _ = field (Enc.xBody o 0) 0 51 := by rw [body_of_decodeWord e henc, field_mod (show 0 + 51 ≤ 61 by decide)]
    _ = 0 := by rw [hbody, field_zero, Nat.mul_mod_right]

/-! ### Writing one tile at issue (R230, R429) -/

theorem Workgroup.tile_modTile (w : Workgroup) (n k : Nat) (g : Tile → Tile) :
    (w.modTile n g).tile k = if k = n then g (w.tile n) else w.tile k := Tab.get_set ..

/-- The state after the body of a tile instruction that writes tile `n`. -/
def State.withTile (s : State) (f : Focus) (fb : Fibre) (n : Nat) (g : Tile → Tile) : State :=
  let u := s.setFib f.wg f.slot f.fib fb
  u.setWg f.wg ((u.wg f.wg).modTile n g)

section
variable (s : State) (f : Focus) (fb : Fibre) (n : Nat) (g : Tile → Tile)

theorem State.wg_withTile_same :
    (s.withTile f fb n g).wg f.wg = ((s.setFib f.wg f.slot f.fib fb).wg f.wg).modTile n g := State.wg_setWg_same ..

theorem State.wg_withTile_other {w : Nat} (hw : w ≠ f.wg) : (s.withTile f fb n g).wg w = s.wg w := by
  rw [State.withTile, State.wg_setWg, if_neg hw]
  exact State.wg_setSlot_other _ _ _ _ _ hw

theorem State.fibOf_withTile : (s.withTile f fb n g).fibOf f = fb := by
  show (((s.withTile f fb n g).wg f.wg).slot f.slot).fib f.fib = fb
  rw [State.wg_withTile_same]
  exact State.fib_setFib_same ..

theorem State.wgNow_withTile : (s.withTile f fb n g).wgNow f.wg = s.wgNow f.wg := by
  show (s.withTile f fb n g).now ((s.withTile f fb n g).wg f.wg).die = _
  rw [State.wg_withTile_same]
  exact State.wgNow_setSlot ..

theorem SameMachine.withTile : SameMachine s (s.withTile f fb n g) := ⟨rfl, fun _ => rfl⟩

end

/-- An instruction that writes one tile of its workgroup and no register: the frame of its issue. Its fibre is the one that an issue
without an effect leaves. -/
theorem tileWritten_afterIssue {s t : State} {f : Focus} {h : Sched} {n : Nat} {g : Tile → Tile} (hi : s.issues f h)
    (ht : t = (s.withTile f (issueCtx s f h).fb n g).afterIssue f h {} (issueCtx s f h).act (f.together s) none) :
    TileWritten s t f h n (g ((s.wg f.wg).tile n)) := by
  obtain ⟨-, -, hsame, hmoves, hflag⟩ := issuedOnly_put s f h {} _ none hi rfl rfl rfl (issueCtx_fb s f h)
  obtain ⟨hothers, hgroup, -, -, -⟩ : SameButFibre (s.withTile f (issueCtx s f h).fb n g) t f :=
    ht ▸ State.afterIssue_fibres ..
  have hfib : t.fibOf f = (issueCtx s f h).fb.afterIssue f h {} (issueCtx s f h).act (f.together s) (s.wgNow f.wg) none := by
    rw [ht, State.afterIssue_fibOf, State.fibOf_withTile, State.wgNow_withTile]
  have hplain : t.fibOf f =
      (((issueCtx s f h).put (issueCtx s f h).fb).afterIssue f h {} (issueCtx s f h).act (f.together s) none).fibOf f := by
    rw [hfib, State.afterIssue_fibOf, Ctx.put_fibOf, Ctx.put, State.setFib, State.wgNow_setSlot, issueCtx_s]
  rw [← hplain] at hsame hmoves hflag
  rw [State.wg_withTile_same, State.setFib, State.wg_setSlot_same] at hgroup
  have htile (k : Nat) : (t.wg f.wg).tile k = if k = n then g ((s.wg f.wg).tile n) else (s.wg f.wg).tile k := by
    rw [hgroup]
    exact Workgroup.tile_modTile ..
  refine ⟨?_, fun w hw => ?_, ?_, ?_, fun k hk => ?_, hsame, ?_, hmoves, hflag⟩
  · rw [ht]
    exact (SameMachine.withTile ..).trans (State.afterIssue_machine ..)
  · rw [hothers w hw, State.wg_withTile_other _ _ _ _ _ hw]
  · rw [hgroup]
    rfl
  · rw [htile, if_pos rfl]
  · rw [htile, if_neg hk]
  · rw [hfib, Fibre.afterIssue_same]
    exact ⟨rfl, rfl, rfl, rfl⟩

/-- An instruction whose body writes a tile that no engine command names. -/
theorem issue_writeTile {s : State} {f : Focus} {h : Sched} {body : Ctx → Res} {n : Nat} {g : Tile → Tile} {x : Tile}
    (hi : s.issues f h) (hbusy : ((s.wg f.wg).tile n).busy = 0)
    (hb : body (issueCtx s f h) = (issueCtx s f h).writeTile n g) (hx : g ((s.wg f.wg).tile n) = x) :
    ∃ t, issue h {} body s = .next t ∧ TileWritten s t f h n x := by
  have hdone : (issueCtx s f h).writeTile n g = .done (s.withTile f (issueCtx s f h).fb n g) none := by
    unfold Ctx.writeTile
    rw [issueCtx_wg, hbusy]
    rfl
  exact ⟨_, issue_done hi (hb.trans hdone), hx ▸ tileWritten_afterIssue hi rfl⟩

/-- A tile into which no load is under way is seen as it is. -/
theorem State.tileSeen_idle {s : State} {w n : Nat}
    (h : ∀ cmd ∈ (s.core (s.wg w).lcore).copyQ, cmd.loads w n = false) : s.tileSeen w n = ((s.wg w).tile n).data := by
  unfold State.tileSeen
  simp only
  rw [List.filter_eq_nil_iff.mpr fun cmd hcmd => by rw [h cmd hcmd]; exact Bool.false_ne_true]
  rfl

/-! ### Chunks of a tile (R432) -/

/-- Ready operands and a chunk index in range leave of TMOV's checks only its body. -/
theorem Ctx.chunk_checked {c : Ctx} {u : Uses} {k : Nat} (hu : c.check u = .ok) (hk : k ≤ 127) (body : Res) :
    ((c.checkNames u).and ((chunkRange k).and (c.checkAccess u))).run body = body := by
  obtain ⟨hnames, haccess⟩ := Guard.and_ok hu
  rw [hnames, haccess, chunkRange, if_neg (Nat.not_lt.mpr hk)]
  rfl

theorem length_leBytes (n x : Nat) : (leBytes n x).length = n := by
  induction n generalizing x with
  | zero => rfl
  | succ n ih => rw [leBytes, List.length_cons, ih]

theorem getD_leBytes {n i : Nat} (hi : i < n) (x : Nat) : (leBytes n x).getD i 0 = BitVec.ofNat 8 (x / 256 ^ i) := by
  induction n generalizing x i with
  | zero => omega
  | succ n ih =>
    cases i with
    | zero => rw [leBytes, List.getD_cons_zero, Nat.pow_zero, Nat.div_one]
    | succ i => rw [leBytes, List.getD_cons_succ, ih (by omega), Nat.div_div_eq_div_mul, Nat.pow_succ']

/-- Laying 4 bytes of each lane of a list at its place in a chunk, read at any byte. -/
theorem byte_putRuns_lanes (ls : List Nat) (k : Nat) (val : Nat → Nat) (d : Tab Byte) (j : Nat) :
    Memory.byte (putRuns d (ls.map fun l => (64 * k + 4 * l, leBytes 4 (val l)))) j =
      if 64 * k ≤ j ∧ (j - 64 * k) / 4 ∈ ls then BitVec.ofNat 8 (val ((j - 64 * k) / 4) / 256 ^ (j % 4))
      else Memory.byte d j := by
  induction ls generalizing d with
  | nil => exact (if_neg fun h => List.not_mem_nil h.2).symm
  | cons x xs ih =>
    have hstep : putRuns d ((x :: xs).map fun l => (64 * k + 4 * l, leBytes 4 (val l))) =
        putRuns (Memory.write d (64 * k + 4 * x) (leBytes 4 (val x))) (xs.map fun l => (64 * k + 4 * l, leBytes 4 (val l))) := rfl
    rw [hstep, ih]
    by_cases hxs : 64 * k ≤ j ∧ (j - 64 * k) / 4 ∈ xs
    · rw [if_pos hxs, if_pos ⟨hxs.1, List.mem_cons_of_mem _ hxs.2⟩]
    rw [if_neg hxs, Memory.byte_write, length_leBytes]
    by_cases hx : 64 * k ≤ j ∧ (j - 64 * k) / 4 = x
    · obtain ⟨hle, rfl⟩ := hx
      rw [if_pos (by omega), if_pos ⟨hle, List.mem_cons_self⟩, show j - (64 * k + 4 * ((j - 64 * k) / 4)) = j % 4 by omega,
        getD_leBytes (Nat.mod_lt _ (by decide))]
    · rw [if_neg (by omega), if_neg fun h => (List.mem_cons.mp h.2).elim (fun e => hx ⟨h.1, e⟩) fun hm => hxs ⟨h.1, hm⟩]

/-- The bytes of a tile after TMOV.TV: the active lanes' words in the chunk, the bytes of before elsewhere. -/
theorem byte_putChunk (act : Lanes) (k : Nat) (val : Nat → Nat) (d : Tab Byte) (j : Nat) :
    Memory.byte (putRuns d ((lanesOf act).map fun l => (64 * k + 4 * l, leBytes 4 (val l)))) j =
      if 64 * k ≤ j ∧ j < 64 * k + 64 ∧ laneIn act ((j - 64 * k) / 4) = true then
        BitVec.ofNat 8 (val ((j - 64 * k) / 4) / 256 ^ (j % 4))
      else Memory.byte d j := by
  rw [byte_putRuns_lanes]
  refine ite_of_iff (and_congr_right fun hle => ?_) _ _
  rw [mem_lanesOf]
  exact and_congr_left fun _ => by omega

/-! ### The tile instructions (R430 to R433) -/

theorem ofNat_mod_two_pow (n x : Nat) : BitVec.ofNat n (x % 2 ^ n) = BitVec.ofNat n x := by
  apply BitVec.eq_of_toNat_eq
  rw [BitVec.toNat_ofNat, BitVec.toNat_ofNat, Nat.mod_mod]

/-- TMOV.TV lays the active lanes' words over the chunk of its tile (R432). -/
theorem tmovTv_written {s : State} {f : Focus} {h : Sched} {o : XOps} (hbusy : ((s.wg f.wg).tile (tileOf o.d)).busy = 0)
    (hr : s.wordReady f h (tileUses o [(o.a.op, 1), (o.b.op, 2)])) (hk : (issueCtx s f h).chunk o ≤ 127) :
    ∃ t, exec (.tmov h o .tv) s = .next t ∧ TileWritten s t f h (tileOf o.d)
      { (s.wg f.wg).tile (tileOf o.d) with
        data := putRuns ((s.wg f.wg).tile (tileOf o.d)).data ((lanesOf (issueCtx s f h).act).map fun l =>
          (64 * (issueCtx s f h).chunk o + 4 * l, leBytes 4 ((issueCtx s f h).rd 0 (.int 32) o.a l))) } := by
  rw [exec_tmov, execTmov]
  exact issue_writeTile hr.1 hbusy (Ctx.chunk_checked hr.2 hk _) rfl

/-- Settles O19: the words by their fields, each write of a tile by the tile that its body gives, and TMOV.VT by its result. -/
theorem tileInstructionEffect : Obligations.TileInstructionEffect := by
  refine ⟨tcfgWord, tzeroWord, fun s f h o => ⟨fun hbusy => ⟨fun m hr => ?_, fun hr => ?_, fun hr hidle => ⟨?_, fun m => ?_⟩,
    fun hr hk => ?_⟩, fun hr hk hidle => ?_⟩⟩
  · rw [exec_tcfg]
    refine issue_writeTile hr.1 hbusy (guarded_ok _ _ _ hr.2) ?_
    rw [ofNat_mod_two_pow]
    cases m.noorg <;> cases m.kt <;> rfl
  · rw [exec_tzero]
    exact issue_writeTile hr.1 hbusy (guarded_ok _ _ _ hr.2) rfl
  · rw [exec_tmov, execTmov]
    refine issue_writeTile hr.1 hbusy (guarded_ok _ _ _ hr.2) ?_
    rw [issueCtx_s, issueCtx_f, issueCtx_wg, State.tileSeen_idle hidle, hbusy]
  · rw [exec_txp]
    refine issue_writeTile hr.1 hbusy (guarded_ok _ _ _ hr.2) ?_
    rw [issueCtx_s, issueCtx_f, issueCtx_wg, State.tileSeen_idle hidle, hbusy]
  · obtain ⟨t, ht, hres⟩ := tmovTv_written hbusy hr hk
    exact ⟨t, _, ht, hres, rfl, fun j => byte_putChunk ..⟩
  · rw [exec_tmov, execTmov]
    refine issue_result hr.1 ((Ctx.chunk_checked hr.2 hk _).trans ?_)
    rw [issueCtx_s, issueCtx_f, State.tileSeen_idle hidle]
    rfl

end Sys2Proof.Machine
end
